-- ==== Sys2Proof/Word.lean ====
section
/-! DEFINITION. The word types of the KL7 and nothing else (R6, R57, R91): the machine's numbers are little-endian
bit vectors; everything that computes on them stands in Decode.lean and under Machine/. -/

namespace Sys2Proof

/-- A 64-bit scalar register or scratchpad word (R57). -/
abbrev Word := BitVec 64
/-- One byte of memory. -/
abbrev Byte := BitVec 8
/-- One instruction word (R91). -/
abbrev IWord := BitVec 32
/-- One stream-command word (R111). -/
abbrev CWord := BitVec 128
/-- A scalar register specifier (R57). -/
abbrev SReg := BitVec 6
/-- A vector register specifier (R57). -/
abbrev VReg := BitVec 5
/-- A word address inside a code window, or a program counter (R94). -/
abbrev PC := BitVec 12

/-- One lane of a vector register: its 32 data bits and its scale side-band (R161, R163). -/
structure Lane where
  data : BitVec 32
  blk  : BitVec 8
  band : BitVec 16
deriving DecidableEq, Repr

/-- A lane with the given data and a zero side-band (R163). -/
def Lane.plain (d : BitVec 32) : Lane := ⟨d, 0#8, 0#16⟩

end Sys2Proof
end

