-- ==== Sys2Proof/Syntax.lean ====
section
/-! DEFINITION. The steps of the KL7 as data: the 193 task instructions with their decoded operand fields (R91 to R107),
the 18 stream commands as issued words (R111 to R113), and the 108 device events of the opcode table with the data each
one carries from the unit that causes it to the unit it reaches. One constructor of `Instr` per row of the opcode table. -/

namespace Sys2Proof

/-! ### Operand codes -/

/-- The element type codes 0x0 to 0xF of R102, in code order. -/
inductive Ty
  | s32 | z32 | s16 | z16 | s8 | z8 | s64 | z64 | f32 | f64 | bf16 | f16 | e4m3 | e5m2 | e2m1 | fp4b
deriving DecidableEq, Repr

/-- The scalar conversion types of R100, in code order. -/
inductive CvtTy
  | s32 | s64 | z32 | z64 | f32 | f64 | bf16 | f16
deriving DecidableEq, Repr

/-- The rounding modes of R82 and the dynamic code 0b111 of R99. -/
inductive RMode
  | rne | rtz | rup | rdn | sr | dyn
deriving DecidableEq, Repr

/-- The conditions of CMP and BCC (R96, R98, R137). -/
inductive Cond
  | eq | ne | lt | ge | ltz | gez
deriving DecidableEq, Repr

/-- The conditions of FCMP and VFCMP (R99, R103). -/
inductive FCond
  | eq | lt | le | un
deriving DecidableEq, Repr

/-- The conditions of VCMP (R103). -/
inductive VCond
  | eq | ne | lt | ge
deriving DecidableEq, Repr

/-- The address spaces of format M (R105). -/
inductive Space
  | g | p | c | x
deriving DecidableEq, Repr

/-- The operations of the atomics (R106). -/
inductive AmoFn
  | add | and | or | xor | min | max | minz | maxz | swap | cas | fadd
deriving DecidableEq, Repr

/-- The FENCE kinds of R107. -/
inductive FenceKind
  | acq | rel | full | ack
deriving DecidableEq, Repr

/-- The scopes of R107 and R295. -/
inductive Scope
  | cell | crew | rect | dev | sys
deriving DecidableEq, Repr

/-- The WAITA conditions of R107 and R218. -/
inductive WCond
  | eq | ne | sge | slt
deriving DecidableEq, Repr

/-- The eight VSHUF patterns of R189. -/
inductive Shuf
  | ziplo | ziphi | uzpev | uzpod | catlo | cathi | rev | swp2
deriving DecidableEq, Repr

/-! ### Operand forms of the task instructions (R91, R92)

A field of an instruction that its rule neither uses nor reserves is kept, so that no bit of a word is lost. -/

/-- Format R with three registers. -/
structure OpR3 where
  d : SReg
  a : SReg
  b : SReg
  ea : Bool
  eb : Bool
deriving DecidableEq, Repr

/-- Format R with b and eb reserved. -/
structure OpR2 where
  d : SReg
  a : SReg
  ea : Bool
deriving DecidableEq, Repr

/-- Format R with b reserved. -/
structure OpR2e where
  d : SReg
  a : SReg
  ea : Bool
  eb : Bool
deriving DecidableEq, Repr

/-- Format I with a register source. -/
structure OpI where
  d : SReg
  a : SReg
  ea : Bool
  imm : BitVec 11
deriving DecidableEq, Repr

/-- Format I with a shift amount of 0 to 63 (R97). -/
structure OpSh where
  d : SReg
  a : SReg
  ea : Bool
  n : BitVec 6
deriving DecidableEq, Repr

/-- EXT and INS immediate: width minus 1 and position (R97). -/
structure OpBf where
  d : SReg
  a : SReg
  ea : Bool
  w : BitVec 5
  p : BitVec 6
deriving DecidableEq, Repr

/-- Format B. -/
structure OpB where
  a : SReg
  b : SReg
  off : BitVec 12
deriving DecidableEq, Repr

/-- LOOP and LOOPX (R98). -/
structure OpLoop where
  a : SReg
  ea : Bool
  imm : BitVec 11
deriving DecidableEq, Repr

/-- MARKE and MARKF: a specifier of either file (R98). -/
structure OpMark where
  r : SReg
  vec : Bool
  ea : Bool
  eb : Bool
deriving DecidableEq, Repr

/-- TESTF. -/
structure OpTestf where
  d : SReg
  a : SReg
  b : SReg
  vec : Bool
  ea : Bool
  eb : Bool
deriving DecidableEq, Repr

/-- WAITF. -/
structure OpWaitf where
  a : SReg
  vec : Bool
  ea : Bool
  eb : Bool
deriving DecidableEq, Repr

/-- WAITM: `t` is the `waitm.t` form. -/
structure OpWaitm where
  d : SReg
  a : SReg
  b : SReg
  ea : Bool
  eb : Bool
  t : Bool
deriving DecidableEq, Repr

/-- A rounding scalar floating-point instruction with three registers (R99). -/
structure OpF3 where
  d : SReg
  a : SReg
  b : SReg
  ea : Bool
  eb : Bool
  wide : Bool
  rm : RMode
deriving DecidableEq, Repr

/-- FSQRT. -/
structure OpF2 where
  d : SReg
  a : SReg
  ea : Bool
  eb : Bool
  wide : Bool
  rm : RMode
deriving DecidableEq, Repr

/-- FMIN and FMAX. -/
structure OpFm where
  d : SReg
  a : SReg
  b : SReg
  ea : Bool
  eb : Bool
  wide : Bool
deriving DecidableEq, Repr

/-- FCMP. -/
structure OpFc where
  d : SReg
  a : SReg
  b : SReg
  ea : Bool
  eb : Bool
  wide : Bool
  cond : FCond
deriving DecidableEq, Repr

/-- FCVT (R100). -/
structure OpCvt where
  d : SReg
  a : SReg
  dst : CvtTy
  src : CvtTy
  ea : Bool
  rm : RMode
deriving DecidableEq, Repr

/-- FCLASS. -/
structure OpFk where
  d : SReg
  a : SReg
  ea : Bool
  eb : Bool
  wide : Bool
deriving DecidableEq, Repr

/-- Format V with three 5-bit register fields, a mask and a type. -/
structure OpV3 where
  vd : VReg
  va : VReg
  vb : VReg
  m : BitVec 3
  ea : Bool
  ty : Ty
deriving DecidableEq, Repr

/-- Format V with vb reserved. -/
structure OpV2 where
  vd : VReg
  va : VReg
  m : BitVec 3
  ea : Bool
  ty : Ty
deriving DecidableEq, Repr

/-- VCMP (R103). -/
structure OpVCmp where
  cond : VCond
  k : BitVec 3
  va : VReg
  vb : VReg
  m : BitVec 3
  ea : Bool
  ty : Ty
deriving DecidableEq, Repr

/-- VFCMP (R103). -/
structure OpVFCmp where
  cond : FCond
  k : BitVec 3
  va : VReg
  vb : VReg
  m : BitVec 3
  ea : Bool
  ty : Ty
deriving DecidableEq, Repr

/-- VCVT, VQUANT and VDEQ (R103, R177). -/
structure OpVCvt where
  vd : VReg
  va : VReg
  m : BitVec 3
  ea : Bool
  dst : Ty
  src : Ty
deriving DecidableEq, Repr

/-- VSHUF (R189). -/
structure OpShuf where
  vd : VReg
  va : VReg
  vb : VReg
  m : BitVec 3
  ea : Bool
  pat : Shuf
deriving DecidableEq, Repr

/-- VEXTR and VINS: no mask (R188). -/
structure OpVX where
  vd : VReg
  va : VReg
  vb : VReg
  ea : Bool
  ty : Ty
deriving DecidableEq, Repr

/-- Mask logic (R173). -/
structure OpM3 where
  d : BitVec 3
  a : BitVec 3
  b : BitVec 3
deriving DecidableEq, Repr

/-- Format M (R91, R105). -/
structure OpMem where
  d : SReg
  base : SReg
  ea : Bool
  sp : Space
  imm : BitVec 9
deriving DecidableEq, Repr

/-- LDG and STG: imm9 packed as scale, mask and index vector (R104, R198). -/
structure OpGath where
  d : SReg
  base : SReg
  ea : Bool
  x4 : Bool
  m : BitVec 3
  idx : VReg
deriving DecidableEq, Repr

/-- STX (R104). -/
structure OpStx where
  d : SReg
  base : SReg
  ea : Bool
  imm : BitVec 9
deriving DecidableEq, Repr

/-- AMO and AMO.c (R104, R106). -/
structure OpAmo where
  d : SReg
  a : SReg
  b : SReg
  ea : Bool
  eb : Bool
  fn : AmoFn
deriving DecidableEq, Repr

/-- ST.op and ST.op.c (R104, R106). -/
structure OpSt where
  a : SReg
  b : SReg
  ea : Bool
  eb : Bool
  fn : AmoFn
deriving DecidableEq, Repr

/-- DQPUSH. -/
structure OpPush where
  a : SReg
  b : SReg
  ea : Bool
  eb : Bool
  n : BitVec 4
deriving DecidableEq, Repr

/-- DQPOP and DQSTEAL. -/
structure OpPop where
  d : SReg
  a : SReg
  ea : Bool
  eb : Bool
  n : BitVec 4
deriving DecidableEq, Repr

/-- CHGET (R104, R212): `v` is the vector form. -/
structure OpGet where
  d : SReg
  e : Bool
  v : Bool
  ch : BitVec 3
deriving DecidableEq, Repr

/-- CHPEEK. -/
structure OpPeek where
  d : SReg
  a : SReg
  ea : Bool
  v : Bool
  ch : BitVec 3
deriving DecidableEq, Repr

/-- CHPUT. -/
structure OpPut where
  a : SReg
  ea : Bool
  v : Bool
  ch : BitVec 3
deriving DecidableEq, Repr

/-- CHSTAT: `out` selects the output direction. -/
structure OpStat where
  d : SReg
  e : Bool
  out : Bool
  ch : BitVec 3
deriving DecidableEq, Repr

/-- ACQ, ACQS and REL. -/
structure OpSync where
  a : SReg
  ea : Bool
deriving DecidableEq, Repr

/-- WAITA: `w32` is the 32-bit form (R107). -/
structure OpWaita where
  a : SReg
  b : SReg
  ea : Bool
  eb : Bool
  w32 : Bool
  cond : WCond
deriving DecidableEq, Repr

/-- SCMD and SCMDW (R107, R114). -/
structure OpCmd where
  d : SReg
  a : SReg
  b : SReg
  ea : Bool
  eb : Bool
  n : BitVec 4
deriving DecidableEq, Repr

/-! ### Names of units, places and packets -/

/-- A cell of a rectangle: rectangle slot and rectangle-relative coordinates (R5, R17). -/
structure CellId where
  slot : Nat
  col : Nat
  row : Nat
deriving DecidableEq, Repr

/-- A task context: the lead cell and the context number 0 to 3 (R33, R38). -/
structure CtxId where
  slot : Nat
  col : Nat
  row : Nat
  ctx : Nat
deriving DecidableEq, Repr

/-- The cell of a context. -/
def CtxId.cell (c : CtxId) : CellId := ⟨c.slot, c.col, c.row⟩

/-- A place of global storage after translation (R287, R380, R381, R391). -/
inductive Loc
  | dev (lease addr : Nat)
  | carve (lease off : Nat)
  | host (addr : Nat)
  | remote (node rlease addr : Nat)
deriving DecidableEq, Repr

/-- The engine ports of R112 that hold command queues: class and index in the rectangle. -/
inductive Port
  | strm (slot idx : Nat)
  | memn (slot idx : Nat)
  | mrow (slot idx : Nat)
deriving DecidableEq, Repr

/-- The source identities of R207. -/
inductive Src
  | task (lease handle node ctx : Nat)
  | memNode (handle node : Nat)
  | switch (id : Nat)
  | hostPort (port : Nat)
deriving DecidableEq, Repr

/-- Where the answer of a request goes. `ctxReply` names the unfinished instruction it completes and `ctxAck` the write tag,
both with one more than the number of the shared-cache slice that answers, 0 for another target; `split` names a wait-buffer entry
(R208), `node` a memory-node tag (R299). The answer of an atomic or deque request carries its sequence number back (R207, R307). -/
inductive ReplyTo
  | none
  | ctxReply (c : CtxId) (handle id slice : Nat) (seq : Option (BitVec 16))
  | ctxAck (c : CtxId) (handle tag slice : Nat) (seq : Option (BitVec 16))
  | split (entry : Nat)
  | node (slot idx tag : Nat) (seq : Option (BitVec 16))
  | host (port id : Nat)
deriving DecidableEq, Repr

/-- What a reply carries: a word, or lanes by lane number. -/
inductive Payload
  | nothing
  | word (w : BitVec 64)
  | lanes (ls : List (Nat × Lane))
deriving DecidableEq, Repr

/-- A token of a channel: one lane for a scalar token, eight for a vector token, or end-of-stream (R76, R215). -/
inductive Tok
  | data (lanes : List Lane)
  | eos
deriving DecidableEq, Repr

/-- One load or store request to the home of one line (R196 to R199, R309). `lane0` is the first lane a vector request
moves, `atHome` says that the read may not be served by a die copy (R290, R296), `side` that side-bands are wanted. `cls` is the class
of the packet that carries it, which its answer takes (R354), here and in the requests that follow. -/
structure RwReq where
  src : Src
  lease : Nat
  loc : Loc
  bytes : Nat
  write : Bool
  data : List Byte
  vec : Bool
  lane0 : Nat
  side : Bool
  atHome : Bool
  die : Nat
  reply : ReplyTo
  cls : Nat
deriving DecidableEq, Repr

/-- One atomic or ST.op request (R206 to R208). `queue` is the combining queue it waits in, if any. -/
structure AmoReq where
  src : Src
  lease : Nat
  seq : BitVec 16
  fn : AmoFn
  loc : Loc
  b : BitVec 64
  cmp : BitVec 64
  returning : Bool
  comb : Bool
  retrans : Bool
  queue : Option Nat
  reply : ReplyTo
  cls : Nat
deriving DecidableEq, Repr

/-- The deque operations of R211. -/
inductive DqOp
  | push (item : BitVec 64)
  | pop
  | steal
deriving DecidableEq, Repr

/-- One deque request to the descriptor's home (R210, R211). -/
structure DqReq where
  src : Src
  lease : Nat
  slot : Nat
  seq : BitVec 16
  op : DqOp
  loc : Loc
  va : Nat
  retrans : Bool
  parked : Bool
  reply : ReplyTo
  cls : Nat
deriving DecidableEq, Repr

/-- One ACQ, ACQS or REL request to the sync table of an object's home (R216). -/
structure SyncReq where
  src : Src
  who : CtxId
  lease : Nat
  loc : Loc
  va : Nat
  shared : Bool
  reply : ReplyTo
  cls : Nat
deriving DecidableEq, Repr

/-- One WAITA request (R218). -/
structure WaitaReq where
  src : Src
  lease : Nat
  loc : Loc
  w32 : Bool
  cond : WCond
  b : BitVec 64
  reply : ReplyTo
  cls : Nat
deriving DecidableEq, Repr

/-- One plain access of a scratchpad port (R72, R196, R197, R204): `back` aims at the back half (STX). -/
structure PadReq where
  cell : CellId
  off : Nat
  bytes : Nat
  write : Bool
  data : List Byte
  back : Bool
  vec : Bool
  lane0 : Nat
  reply : ReplyTo
  cls : Nat
deriving DecidableEq, Repr

/-- The presence-bit operations of R200. -/
inductive PresOp
  | ldf
  | ldp
  | ste (data : BitVec 64)
deriving DecidableEq, Repr

/-- One presence-bit request of a scratchpad port (R200, R201). -/
structure PresReq where
  cell : CellId
  off : Nat
  op : PresOp
  reply : ReplyTo
  cls : Nat
deriving DecidableEq, Repr

/-- The requests that a switch or a target can turn away and the source resends (R201, R216, R218, R356, R374): `node` is the read of
a memory node's tag, `chunk` a streamer's request for a chunk. -/
inductive Req
  | rw (r : RwReq)
  | amo (r : AmoReq)
  | dq (r : DqReq)
  | acquire (r : SyncReq)
  | release (r : SyncReq)
  | waita (r : WaitaReq)
  | pad (r : PadReq)
  | pres (r : PresReq)
  | node (slot idx tag cls : Nat)
  | chunk (p : Port) (id k cls : Nat)
deriving DecidableEq, Repr

/-- The class of the packet that carries a request (R354). -/
def Req.cls : Req → Nat
  | .rw r => r.cls
  | .amo r => r.cls
  | .dq r => r.cls
  | .acquire r | .release r => r.cls
  | .waita r => r.cls
  | .pad r => r.cls
  | .pres r => r.cls
  | .node _ _ _ k | .chunk _ _ _ k => k

/-- The fault register that a unit latches (R394): cause, SUB, address, node or edge number, context (if a cell), unit
class and index, and the details of R388. -/
structure FaultInfo where
  cause : Nat
  sub : Nat
  addr : BitVec 64
  node : Nat
  who : Option CtxId
  unitClass : Nat
  unitIndex : Nat
  detail1 : Nat
deriving DecidableEq, Repr

/-- Why a cut request is sent (R20, R351, R360, R371, R377). -/
inductive CutWhy
  | preempt
  | suspend
  | slice
  | move
deriving DecidableEq, Repr

/-- A translation walk (R382): the accessing lease, the address, whether the access writes, the unit that waits for it, and
the die whose shared TLB it fills. -/
structure WalkReq where
  lease : Nat
  va : Nat
  write : Bool
  who : Option CtxId
  die : Nat
deriving DecidableEq, Repr

/-- A child of a controller: a leaf or another controller (R323). -/
inductive Child
  | leaf (n : Nat)
  | ctl (n : Nat)
deriving DecidableEq, Repr

/-- The register spaces a host reaches: the physical function, or one lease's virtual function (R365, R403). -/
inductive RegSpace
  | pf
  | vf (lease : Nat)
deriving DecidableEq, Repr

/-- A failure record of a bring-up stage (R402). -/
structure DevFail where
  die : Nat
  block : Nat
  test : Nat
  unit : Nat
  detail : BitVec 64
  dtime : Nat
deriving DecidableEq, Repr

/-- Where a soft error strikes (R423). -/
inductive SoftWhere
  | line (lease addr : Nat)
  | pad (cell : CellId)
  | unit (slot : Nat) (unitClass unitIndex : Nat)
  | free
deriving DecidableEq, Repr

/-! ### What an event carries -/

/-- The device events of the opcode table with the data each one carries from the unit that causes it to the unit it
reaches, a stream command on its way to its port, and what the Hearth does after other events of a lock. -/
inductive Event
  -- a stream command (R114)
  | command (src : CtxId) (w : CWord)
  -- engines (R222 to R240, R299, R300)
  | engineCommandStart (p : Port) | copyChunkLand (p : Port) (id k : Nat) | engineCommandComplete (p : Port) (id : Nat)
  | engineCommandError (p : Port) (id cause : Nat)
  | nodeSourceDeliver (slot idx : Nat) | nodeReadResponse (slot idx tag : Nat) | nodeSinkWrite (slot idx : Nat)
  | nodeRequestElement (slot idx : Nat) | nodeStreamEnd (slot idx : Nat) | carveRepartition (lease : Nat)
  -- firings, channels and controllers (R27 to R35, R55, R77, R215, R397)
  | firingStart (c : CellId) | firingOverrun (c : CtxId)
  | channelTokenArrival (slot edge : Nat) (t : Tok) | commitMarkArrival (slot edge n : Nat)
  | creditArrival (slot edge n : Nat) | eosConsume (c : CtxId) | cellWake (c : CellId)
  | borderTokenRefuse (slot edge col row : Nat)
  | ctlStartPulse (slot : Nat) (child : Child) | ctlDonePulse (slot ctl k : Nat)
  -- replies, homes, ports and the network (R72, R88, R199 to R219, R288 to R310, R353 to R356)
  | replyArrival (dst : ReplyTo) (v : Payload) | ackArrival (c : CtxId) (handle tag slice : Nat) (seq : Option (BitVec 16)) | retryResend (r : Req)
  | homeReadWrite (r : RwReq) | homeAtomic (r : AmoReq) | homeDequeOp (r : DqReq)
  | homeAcquireRequest (r : SyncReq) | homeRelease (r : SyncReq) | homeWaitaRequest (r : WaitaReq)
  | waitaHostPoll (r : WaitaReq) | scratchpadPortAccess (r : PadReq) | presencePortRequest (r : PresReq)
  | xbarArrival (c : CtxId) (rect : Bool) (id : Nat) | barArrival (c : CtxId) (rect : Bool) (id : Nat)
  | withdrawalArrival (c : CtxId) (id : Nat) | purgeArrival (handle target : Nat)
  | combineAtSwitch (q : Nat) (first second : AmoReq) | combineWaitExpiry (r : AmoReq)
  | combinedReplySplit (entry : Nat) (v : Payload) | urgentPacketEvict (n : Nat) | evictionResend (r : Req)
  | packetPromotion (n : Nat) | shareWindowRoll | pageWalkDone (w : WalkReq)
  -- rectangles (R19 to R24, R50, R90, R327, R345, R394, R351, R360)
  | configWritten (slot : Nat) | armCheck (slot : Nat) | rectSinksDone (slot : Nat) | completionSignalWrite (slot : Nat)
  | rectOverrun (slot : Nat) | cutRequest (slot : Nat) (why : CutWhy) | cutTokenArrival (slot node : Nat)
  | stopAckArrival (slot node : Nat) | reelWrite (slot : Nat) | faultEvent (slot : Nat) (f : FaultInfo)
  | freezeArrival (slot node : Nat) | drainLimitExpiry (slot : Nat) | moveStart (slot col row : Nat)
  | autoRestore (slot : Nat)
  -- tile tasks (R241 to R245, R311, R312, R349, R350)
  | slateIssueTask (lease row : Nat) | rowHalfKstep (row : Nat) | tileTaskEnd (row : Nat) | tileTaskOverrun (row : Nat)
  | slatePreempt (lease : Nat)
  -- the host (R361 to R373, R385 to R389, R419)
  | hostCxlRead (lease va bytes id : Nat) | hostCxlWrite (lease va : Nat) (data : List Byte)
  | hostAtomic (lease va : Nat) (fn : AmoFn) (b cmp : BitVec 64) (id : Nat)
  | lqTailDoorbell (lease q : Nat) (v : BitVec 64) | lqHeadWrite (lease q : Nat) (v : BitVec 64)
  | lqCtlWrite (lease q : Nat) (v : BitVec 64) | launchRecordRead (lease q : Nat) (held : List Byte)
  | fqHeadDoorbell (lease : Nat) (v : BitVec 64) | fqCtlWrite (lease : Nat) (v : BitVec 64)
  | fqResumeWrite (lease : Nat) (v : BitVec 64) | fqInvcntWrite (lease : Nat) (v : BitVec 64)
  | invalidationDone (lease : Nat) | cntWrite (lease n : Nat) (v : BitVec 64) | cntselWrite (lease n : Nat) (v : BitVec 64)
  | writeRegionEntry (lease : Nat) | writeFormatWindow (lease : Nat) | resumeContext (lease : Nat)
  | attestReport (lease : Nat) | keyCertificate (lease : Nat) | cinderReading (lease : Nat) | cinderReadingPf
  | firmwareStage
  -- lease commands and device registers (R371, R376 to R379, R402, R411)
  | leaseCreate (lease : Nat) | leaseDestroy (lease : Nat) | grantRow (lease : Nat) | revokeRow (lease : Nat)
  | preempt (lease : Nat) | restore (lease : Nat) | leaseFree (lease : Nat) | dump (lease : Nat)
  | leaseSchedWrite (lease : Nat) (v : BitVec 64) | leasePtWrite (lease : Nat) (v : BitVec 64)
  | devPwrWrite (v : BitVec 64) | registerWrite (space : RegSpace) (off : Nat) (v : BitVec 64) | mctpStatusQuery
  -- bring-up, power, errors (R400 to R404, R412 to R415, R423, R374)
  | coldPowerUp | warmReset | bringupStageComplete (fails : List DevFail) | bringupStageTimeout
  | cinderSample | powerPacingTick | junctionTrip (die unit : Nat) | coolantFlowLow
  | softErrorDetected (place : SoftWhere) (corrected : Bool) | linkRetransmission (r : Req)
  -- work of the Hearth that waits for its lock and has no step of its own (R367, R377, R386, R399)
  | recordWrite (lease : Nat) | unknownRequest (lease : Nat) | unknownCommand (lease : Nat)
deriving DecidableEq, Repr

/-! ### The steps -/

/-- The steps of the part, one constructor per row of the opcode table. A device event has no operand field: it acts on the
event at hand (`State.net.hand`), as a task instruction acts on the context that issues. -/
inductive Instr
  -- scalar integer and address (R96, R97, R134 to R140)
  | add (o : OpR3) | sub (o : OpR3) | and (o : OpR3) | or (o : OpR3) | xor (o : OpR3) | andn (o : OpR3)
  | shl (o : OpR3) | shr (o : OpR3) | sha (o : OpR3) | rot (o : OpR3)
  | min (o : OpR3) | max (o : OpR3) | minz (o : OpR3) | maxz (o : OpR3) | sel (o : OpR3)
  | mul (o : OpR3) | mulh (o : OpR3) | mulhz (o : OpR3) | div (o : OpR3) | divz (o : OpR3)
  | rem (o : OpR3) | remz (o : OpR3) | mads (o : OpR3)
  | clz (o : OpR2) | ctz (o : OpR2) | pop (o : OpR2) | brev (o : OpR2) | bswap (o : OpR2)
  | ext (o : OpR3) | ins (o : OpR3)
  | cmpEq (o : OpR3) | cmpNe (o : OpR3) | cmpLt (o : OpR3) | cmpGe (o : OpR3) | cmpLtz (o : OpR3) | cmpGez (o : OpR3)
  | lea (o : OpR3) (k : BitVec 2) | agen2 (o : OpR3) (k : BitVec 2) | bound (o : OpR3)
  | addImm (o : OpI) | andImm (o : OpI) | orImm (o : OpI) | xorImm (o : OpI)
  | shlImm (o : OpSh) | shrImm (o : OpSh) | shaImm (o : OpSh) | rotImm (o : OpSh)
  | mulImm (o : OpI) | minImm (o : OpI) | maxImm (o : OpI)
  | cmpEqImm (o : OpI) | cmpNeImm (o : OpI) | cmpLtImm (o : OpI) | cmpGeImm (o : OpI)
  | cmpLtzImm (o : OpI) | cmpGezImm (o : OpI)
  | extImm (o : OpBf) | insImm (o : OpBf) | lui (d : SReg) (imm : BitVec 18)
  -- control and register hierarchy (R98, R141 to R153)
  | bccEq (o : OpB) | bccNe (o : OpB) | bccLt (o : OpB) | bccGe (o : OpB) | bccLtz (o : OpB) | bccGez (o : OpB)
  | j (off : BitVec 12) | jal (off : BitVec 12) | jalr (o : OpI)
  | loop (o : OpLoop) | loopx (o : OpLoop) | done | yield
  | movq (o : OpR2e) | marke (o : OpMark) | markf (o : OpMark) | testf (o : OpTestf) | waitf (o : OpWaitf)
  | waitm (o : OpWaitm) | mfs (d : SReg) (e : Bool) (n : BitVec 11) | mts (a : SReg) (ea : Bool) (n : BitVec 11)
  -- scalar floating point (R99, R100, R154 to R160)
  | fadd (o : OpF3) | fsub (o : OpF3) | fmul (o : OpF3) | fma (o : OpF3) | fdiv (o : OpF3) | fsqrt (o : OpF2)
  | fmin (o : OpFm) | fmax (o : OpFm) | fcmp (o : OpFc) | fcvt (o : OpCvt) | fclass (o : OpFk)
  -- vector (R101 to R103, R161 to R190)
  | vadd (o : OpV3) | vsub (o : OpV3) | vmul (o : OpV3) | vmulh (o : OpV3) | vmad (o : OpV3)
  | vand (o : OpV3) | vor (o : OpV3) | vxor (o : OpV3) | vshl (o : OpV3) | vshr (o : OpV3) | vsha (o : OpV3)
  | vmin (o : OpV3) | vmax (o : OpV3) | vabs (o : OpV2) | vneg (o : OpV2) | vcmp (o : OpVCmp) | vsel (o : OpV3)
  | vfadd (o : OpV3) | vfsub (o : OpV3) | vfmul (o : OpV3) | vfma (o : OpV3) | vfms (o : OpV3) | vfnma (o : OpV3)
  | vfdiv (o : OpV3) | vfsqrt (o : OpV2) | vfrcp (o : OpV2) | vfrsq (o : OpV2) | vfexp2 (o : OpV2) | vflog2 (o : OpV2)
  | vfmin (o : OpV3) | vfmax (o : OpV3) | vfcmp (o : OpVFCmp) | vfclass (o : OpV2)
  | vcvt (o : OpVCvt) | vquant (o : OpVCvt) | vdeq (o : OpVCvt) | vdot (o : OpV3) | vbdot (o : OpV3)
  | vredadd (o : OpV2) | vredmax (o : OpV2) | vredmin (o : OpV2) | vscan (o : OpV2)
  | vperm (o : OpV3) | vshuf (o : OpShuf) | vrot (o : OpV3) | vbcast (o : OpV2) | vextr (o : OpVX) | vins (o : OpVX)
  | mand (o : OpM3) | mor (o : OpM3) | mxor (o : OpM3) | mnot (d a : BitVec 3)
  | mpop (d : VReg) (a : BitVec 3) | mfirst (d : VReg) (a : BitVec 3) | vwidth (d : VReg) (ea : Bool)
  -- memory, atomics, deques and channels (R104 to R106, R191 to R215)
  | ldB (o : OpMem) | ldH (o : OpMem) | ldW (o : OpMem) | ldD (o : OpMem)
  | stB (o : OpMem) | stH (o : OpMem) | stW (o : OpMem) | stD (o : OpMem)
  | ldv (o : OpMem) | stv (o : OpMem) | ldg (o : OpGath) | stg (o : OpGath)
  | ldf (o : OpMem) | ldp (o : OpMem) | ste (o : OpMem) | stx (o : OpStx) | xbar (rect : Bool)
  | amo (o : OpAmo) | amoC (o : OpAmo) | stOp (o : OpSt) | stOpC (o : OpSt)
  | dqpush (o : OpPush) | dqpop (o : OpPop) | dqsteal (o : OpPop)
  | chget (o : OpGet) | chpeek (o : OpPeek) | chput (o : OpPut) | chstat (o : OpStat)
  -- synchronisation and command issue (R107, R216 to R220)
  | acq (o : OpSync) | acqs (o : OpSync) | rel (o : OpSync) | fence (e : Bool) (kind : FenceKind) (scope : Scope)
  | waita (o : OpWaita) | bar (rect : Bool) | scmd (o : OpCmd) | scmdw (o : OpCmd)
  -- system (R107, R253 to R261)
  | trap (code : BitVec 8) | eret | rply | rplys | sysc (code : BitVec 8) | halt | bkpt (code : BitVec 8)
  | cntrd (d : SReg) (n : BitVec 3) | cntcfg (a : SReg) (ea : Bool) (n : BitVec 3) | carve (o : OpR2) | idle
  -- stream commands arriving at their port (R111 to R115, R222 to R252)
  | cCopy (src : CtxId) (w : CWord) | cCopyr (src : CtxId) (w : CWord) | cGath (src : CtxId) (w : CWord)
  | cScat (src : CtxId) (w : CWord) | cFill (src : CtxId) (w : CWord) | cConv (src : CtxId) (w : CWord)
  | cBind (src : CtxId) (w : CWord) | cUnbind (src : CtxId) (w : CWord) | cStream (src : CtxId) (w : CWord)
  | cTtask (src : CtxId) (w : CWord) | cMma (src : CtxId) (w : CWord) | cAccsv (src : CtxId) (w : CWord)
  | cAccld (src : CtxId) (w : CWord) | cPref (src : CtxId) (w : CWord) | cFlush (src : CtxId) (w : CWord)
  | cLaunch (src : CtxId) (w : CWord) | cJoin (src : CtxId) (w : CWord) | cFree (src : CtxId) (w : CWord)
  -- engines (R222 to R240, R299, R300)
  | engineCommandStart | copyChunkLand | engineCommandComplete
  | engineCommandError
  | nodeSourceDeliver | nodeReadResponse | nodeSinkWrite
  | nodeRequestElement | nodeStreamEnd | carveRepartition
  -- firings, channels and controllers (R27 to R35, R55, R77, R215, R397)
  | firingStart | firingOverrun
  | channelTokenArrival | commitMarkArrival
  | creditArrival | eosConsume | cellWake
  | borderTokenRefuse
  | ctlStartPulse | ctlDonePulse
  -- replies, homes, ports and the network (R72, R88, R199 to R219, R288 to R310, R353 to R356)
  | replyArrival | ackArrival | retryResend
  | homeReadWrite | homeAtomic | homeDequeOp
  | homeAcquireRequest | homeRelease | homeWaitaRequest
  | waitaHostPoll | scratchpadPortAccess | presencePortRequest
  | xbarArrival | barArrival
  | withdrawalArrival | purgeArrival
  | combineAtSwitch | combineWaitExpiry
  | combinedReplySplit | urgentPacketEvict | evictionResend
  | packetPromotion | shareWindowRoll | pageWalkDone
  -- rectangles (R19 to R24, R50, R90, R327, R345, R394, R351, R360)
  | configWritten | armCheck | rectSinksDone | completionSignalWrite
  | rectOverrun | cutRequest | cutTokenArrival
  | stopAckArrival | reelWrite | faultEvent
  | freezeArrival | drainLimitExpiry | moveStart
  | autoRestore
  -- tile tasks (R241 to R245, R311, R312, R349, R350)
  | slateIssueTask | rowHalfKstep | tileTaskEnd | tileTaskOverrun
  | slatePreempt
  -- the host (R361 to R373, R385 to R389, R419)
  | hostCxlRead | hostCxlWrite
  | hostAtomic
  | lqTailDoorbell | lqHeadWrite
  | lqCtlWrite | launchRecordRead
  | fqHeadDoorbell | fqCtlWrite
  | fqResumeWrite | fqInvcntWrite
  | invalidationDone | cntWrite | cntselWrite
  | writeRegionEntry | writeFormatWindow | resumeContext
  | attestReport | keyCertificate | cinderReading | cinderReadingPf
  | firmwareStage
  -- lease commands and device registers (R371, R376 to R379, R402, R411)
  | leaseCreate | leaseDestroy | grantRow | revokeRow
  | preempt | restore | leaseFree | dump
  | leaseSchedWrite | leasePtWrite
  | devPwrWrite | registerWrite | mctpStatusQuery
  -- bring-up, power, errors (R400 to R404, R412 to R415, R423, R374)
  | coldPowerUp | warmReset | bringupStageComplete | bringupStageTimeout
  | cinderSample | powerPacingTick | junctionTrip | coolantFlowLow
  | softErrorDetected | linkRetransmission
deriving DecidableEq, Repr

end Sys2Proof
end

