-- ==== Sys2Proof/Decode.lean ====
section
/-! DEFINITION. Instruction words: the seven formats (R91), the opcode map (R95 to R107), the decoder with the checks of
R108 in their order, and the encoder. Stream-command words (R111 to R113) are read here too. -/

namespace Sys2Proof

/-! ### Code tables -/

/-- Type codes of R102. -/
def Ty.code : Ty → BitVec 4
  | .s32 => 0x0 | .z32 => 0x1 | .s16 => 0x2 | .z16 => 0x3 | .s8 => 0x4 | .z8 => 0x5 | .s64 => 0x6 | .z64 => 0x7
  | .f32 => 0x8 | .f64 => 0x9 | .bf16 => 0xA | .f16 => 0xB | .e4m3 => 0xC | .e5m2 => 0xD | .e2m1 => 0xE | .fp4b => 0xF

/-- The type of a code (R102). -/
def Ty.ofCode (c : BitVec 4) : Ty :=
  match c.toNat with
  | 0 => .s32 | 1 => .z32 | 2 => .s16 | 3 => .z16 | 4 => .s8 | 5 => .z8 | 6 => .s64 | 7 => .z64
  | 8 => .f32 | 9 => .f64 | 10 => .bf16 | 11 => .f16 | 12 => .e4m3 | 13 => .e5m2 | 14 => .e2m1 | _ => .fp4b

/-- Conversion codes of R100. -/
def CvtTy.code : CvtTy → BitVec 3
  | .s32 => 0 | .s64 => 1 | .z32 => 2 | .z64 => 3 | .f32 => 4 | .f64 => 5 | .bf16 => 6 | .f16 => 7

/-- The conversion type of a code (R100). -/
def CvtTy.ofCode (c : BitVec 3) : CvtTy :=
  match c.toNat with
  | 0 => .s32 | 1 => .s64 | 2 => .z32 | 3 => .z64 | 4 => .f32 | 5 => .f64 | 6 => .bf16 | _ => .f16

/-- An integer type of R100. -/
def CvtTy.isInt : CvtTy → Bool
  | .s32 | .s64 | .z32 | .z64 => true
  | .f32 | .f64 | .bf16 | .f16 => false

/-- Rounding codes of R99. -/
def RMode.code : RMode → BitVec 3
  | .rne => 0 | .rtz => 1 | .rup => 2 | .rdn => 3 | .sr => 4 | .dyn => 7

/-- The rounding of a code; 0b101 and 0b110 are none (R99). -/
def RMode.ofCode (c : BitVec 3) : Option RMode :=
  match c.toNat with
  | 0 => some .rne | 1 => some .rtz | 2 => some .rup | 3 => some .rdn | 4 => some .sr | 7 => some .dyn | _ => none

/-- FCMP and VFCMP condition codes (R99, R103). -/
def FCond.code : FCond → BitVec 2
  | .eq => 0 | .lt => 1 | .le => 2 | .un => 3

/-- The condition of a code (R99, R103). -/
def FCond.ofCode (c : BitVec 2) : FCond :=
  match c.toNat with
  | 0 => .eq | 1 => .lt | 2 => .le | _ => .un

/-- VCMP condition codes (R103). -/
def VCond.code : VCond → BitVec 2
  | .eq => 0 | .ne => 1 | .lt => 2 | .ge => 3

/-- The condition of a code (R103). -/
def VCond.ofCode (c : BitVec 2) : VCond :=
  match c.toNat with
  | 0 => .eq | 1 => .ne | 2 => .lt | _ => .ge

/-- Space codes of R105. -/
def Space.code : Space → BitVec 2
  | .g => 0 | .p => 1 | .c => 2 | .x => 3

/-- The space of a code (R105). -/
def Space.ofCode (c : BitVec 2) : Space :=
  match c.toNat with
  | 0 => .g | 1 => .p | 2 => .c | _ => .x

/-- Operation codes of R106. -/
def AmoFn.code : AmoFn → BitVec 4
  | .add => 0 | .and => 1 | .or => 2 | .xor => 3 | .min => 4 | .max => 5 | .minz => 6 | .maxz => 7
  | .swap => 8 | .cas => 9 | .fadd => 10

/-- The operation of a code; 0xB to 0xF are none (R106). -/
def AmoFn.ofCode (c : BitVec 4) : Option AmoFn :=
  match c.toNat with
  | 0 => some .add | 1 => some .and | 2 => some .or | 3 => some .xor | 4 => some .min | 5 => some .max
  | 6 => some .minz | 7 => some .maxz | 8 => some .swap | 9 => some .cas | 10 => some .fadd | _ => none

/-- FENCE kind codes (R107). -/
def FenceKind.code : FenceKind → BitVec 2
  | .acq => 0 | .rel => 1 | .full => 2 | .ack => 3

/-- The kind of a code (R107). -/
def FenceKind.ofCode (c : BitVec 2) : FenceKind :=
  match c.toNat with
  | 0 => .acq | 1 => .rel | 2 => .full | _ => .ack

/-- FENCE scope codes (R107). -/
def Scope.code : Scope → BitVec 3
  | .cell => 0 | .crew => 1 | .rect => 2 | .dev => 3 | .sys => 4

/-- The scope of a code; 5 to 7 are none (R107). -/
def Scope.ofCode (c : BitVec 3) : Option Scope :=
  match c.toNat with
  | 0 => some .cell | 1 => some .crew | 2 => some .rect | 3 => some .dev | 4 => some .sys | _ => none

/-- WAITA condition codes (R107). -/
def WCond.code : WCond → BitVec 2
  | .eq => 0 | .ne => 1 | .sge => 2 | .slt => 3

/-- The condition of a code (R107). -/
def WCond.ofCode (c : BitVec 2) : WCond :=
  match c.toNat with
  | 0 => .eq | 1 => .ne | 2 => .sge | _ => .slt

/-- VSHUF pattern codes (R189). -/
def Shuf.code : Shuf → BitVec 3
  | .ziplo => 0 | .ziphi => 1 | .uzpev => 2 | .uzpod => 3 | .catlo => 4 | .cathi => 5 | .rev => 6 | .swp2 => 7

/-- The pattern of a code (R189). -/
def Shuf.ofCode (c : BitVec 3) : Shuf :=
  match c.toNat with
  | 0 => .ziplo | 1 => .ziphi | 2 => .uzpev | 3 => .uzpod | 4 => .catlo | 5 => .cathi | 6 => .rev | _ => .swp2

/-! ### The seven formats (R91) -/

/-- Format R. -/
structure FmtR where
  op : BitVec 8
  d : BitVec 6
  a : BitVec 6
  b : BitVec 6
  ea : BitVec 1
  eb : BitVec 1
  fn : BitVec 4
deriving DecidableEq, Repr

/-- Format I. -/
structure FmtI where
  op : BitVec 8
  d : BitVec 6
  a : BitVec 6
  ea : BitVec 1
  imm : BitVec 11
deriving DecidableEq, Repr

/-- Format U. -/
structure FmtU where
  op : BitVec 8
  d : BitVec 6
  imm : BitVec 18
deriving DecidableEq, Repr

/-- Format B. -/
structure FmtB where
  op : BitVec 8
  a : BitVec 6
  b : BitVec 6
  off : BitVec 12
deriving DecidableEq, Repr

/-- Format J. -/
structure FmtJ where
  op : BitVec 8
  hi : BitVec 12
  lo : BitVec 12
deriving DecidableEq, Repr

/-- Format V. -/
structure FmtV where
  op : BitVec 8
  vd : BitVec 5
  va : BitVec 5
  vb : BitVec 5
  m : BitVec 3
  ea : BitVec 1
  fn : BitVec 5
deriving DecidableEq, Repr

/-- Format M. -/
structure FmtM where
  op : BitVec 8
  d : BitVec 6
  base : BitVec 6
  ea : BitVec 1
  sp : BitVec 2
  imm : BitVec 9
deriving DecidableEq, Repr

/-- The word of a format R instruction. -/
def FmtR.word (f : FmtR) : IWord := f.op ++ f.d ++ f.a ++ f.b ++ f.ea ++ f.eb ++ f.fn
/-- The word of a format I instruction. -/
def FmtI.word (f : FmtI) : IWord := f.op ++ f.d ++ f.a ++ f.ea ++ f.imm
/-- The word of a format U instruction. -/
def FmtU.word (f : FmtU) : IWord := f.op ++ f.d ++ f.imm
/-- The word of a format B instruction. -/
def FmtB.word (f : FmtB) : IWord := f.op ++ f.a ++ f.b ++ f.off
/-- The word of a format J instruction. -/
def FmtJ.word (f : FmtJ) : IWord := f.op ++ f.hi ++ f.lo
/-- The word of a format V instruction. -/
def FmtV.word (f : FmtV) : IWord := f.op ++ f.vd ++ f.va ++ f.vb ++ f.m ++ f.ea ++ f.fn
/-- The word of a format M instruction. -/
def FmtM.word (f : FmtM) : IWord := f.op ++ f.d ++ f.base ++ f.ea ++ f.sp ++ f.imm

/-- The fields of a word under format R. -/
def FmtR.read (w : IWord) : FmtR :=
  ⟨w.extractLsb' 24 8, w.extractLsb' 18 6, w.extractLsb' 12 6, w.extractLsb' 6 6, w.extractLsb' 5 1, w.extractLsb' 4 1,
    w.extractLsb' 0 4⟩
/-- The fields of a word under format I. -/
def FmtI.read (w : IWord) : FmtI :=
  ⟨w.extractLsb' 24 8, w.extractLsb' 18 6, w.extractLsb' 12 6, w.extractLsb' 11 1, w.extractLsb' 0 11⟩
/-- The fields of a word under format U. -/
def FmtU.read (w : IWord) : FmtU := ⟨w.extractLsb' 24 8, w.extractLsb' 18 6, w.extractLsb' 0 18⟩
/-- The fields of a word under format B. -/
def FmtB.read (w : IWord) : FmtB := ⟨w.extractLsb' 24 8, w.extractLsb' 18 6, w.extractLsb' 12 6, w.extractLsb' 0 12⟩
/-- The fields of a word under format J, off24 cut in two. -/
def FmtJ.read (w : IWord) : FmtJ := ⟨w.extractLsb' 24 8, w.extractLsb' 12 12, w.extractLsb' 0 12⟩
/-- The fields of a word under format V. -/
def FmtV.read (w : IWord) : FmtV :=
  ⟨w.extractLsb' 24 8, w.extractLsb' 19 5, w.extractLsb' 14 5, w.extractLsb' 9 5, w.extractLsb' 6 3, w.extractLsb' 5 1,
    w.extractLsb' 0 5⟩
/-- The fields of a word under format M. -/
def FmtM.read (w : IWord) : FmtM :=
  ⟨w.extractLsb' 24 8, w.extractLsb' 18 6, w.extractLsb' 12 6, w.extractLsb' 11 1, w.extractLsb' 9 2, w.extractLsb' 0 9⟩

/-- One bit as a Bool. -/
def flag (b : BitVec 1) : Bool := b == 1#1
/-- A Bool as one bit. -/
def bitOf (b : Bool) : BitVec 1 := if b then 1#1 else 0#1

/-! ### Refusals of the decoder (R108) -/

/-- Why a word is ILLEGAL, in the order in which R108 checks. -/
inductive Illegal
  /-- SUB 0x00: the opcode is 0x00, unallocated or reserved. -/
  | opcode
  /-- SUB 0x02: a function, type, condition, rounding, conversion or scope code is unallocated. -/
  | code
  /-- SUB 0x03: a reserved field is nonzero. -/
  | reserved
  /-- SUB 0x04: an immediate is out of range, or a register field or space is not admitted. -/
  | operand
deriving DecidableEq, Repr

/-- The SUB code that TRAPCAUSE reports (R108). -/
def Illegal.sub : Illegal → BitVec 8
  | .opcode => 0x00 | .code => 0x02 | .reserved => 0x03 | .operand => 0x04

/-! ### Admission: the checks of R108 on the decoded fields -/

/-- A destination of a fixed-latency scalar instruction: any register but l1 to l3 (R58). -/
def okDest (d : SReg) : Bool := d.toNat ≤ 60
/-- A destination of a long-latency producer: no last-result register (R58). -/
def okLong (d : SReg) : Bool := d.toNat < 60
/-- A destination of a fixed-latency vector instruction: any register but vl1 (R58). -/
def okVDest (d : VReg) : Bool := d.toNat ≤ 30
/-- A vector specifier in a 6-bit field: bit 5 is clear (R92). -/
def okV6 (d : SReg) : Bool := d.toNat < 32
/-- A vector destination of a fixed-latency instruction in a 6-bit field. -/
def okV6Dest (d : SReg) : Bool := d.toNat ≤ 30
/-- A vector destination of a long-latency producer in a 6-bit field. -/
def okV6Long (d : SReg) : Bool := d.toNat < 30
/-- A register that MARKE and MARKF allow (R148). -/
def okMark (o : OpMark) : Bool := if o.vec then o.r.toNat < 30 else o.r.toNat ≠ 0 && o.r.toNat < 60

/-- The special-register numbers that R80 allocates. -/
def sprAllocated (n : Nat) : Bool :=
  n ≤ 3 || (8 ≤ n && n ≤ 0xA) || (0x10 ≤ n && n ≤ 0x12) || (0x18 ≤ n && n ≤ 0x20) || n == 0x28 || n == 0x29 || n == 0x30 ||
    (0x40 ≤ n && n ≤ 0x4F)

/-- The special registers that R80 marks RW. -/
def sprWritable (n : Nat) : Bool :=
  n == 8 || n == 9 || (0x10 ≤ n && n ≤ 0x12) || n == 0x18 || n == 0x1A || (0x1D ≤ n && n ≤ 0x20)

/-- The eight integer types of R164. -/
def Ty.isInt : Ty → Bool
  | .s32 | .z32 | .s16 | .z16 | .s8 | .z8 | .s64 | .z64 => true
  | .f32 | .f64 | .bf16 | .f16 | .e4m3 | .e5m2 | .e2m1 | .fp4b => false
/-- .f32, .f64, .bf16 and .f16. -/
def Ty.isFp4 : Ty → Bool
  | .f32 | .f64 | .bf16 | .f16 => true
  | .s32 | .z32 | .s16 | .z16 | .s8 | .z8 | .s64 | .z64 | .e4m3 | .e5m2 | .e2m1 | .fp4b => false
/-- .f32, .bf16 and .f16. -/
def Ty.isFp3 : Ty → Bool
  | .f32 | .bf16 | .f16 => true
  | .f64 | .s32 | .z32 | .s16 | .z16 | .s8 | .z8 | .s64 | .z64 | .e4m3 | .e5m2 | .e2m1 | .fp4b => false
/-- The types of VABS and VNEG. -/
def Ty.okAbs : Ty → Bool
  | .s32 | .s16 | .s8 | .s64 | .f32 | .f64 | .bf16 | .f16 => true
  | .z32 | .z16 | .z8 | .z64 | .e4m3 | .e5m2 | .e2m1 | .fp4b => false
/-- The types of VDOT. -/
def Ty.okDot : Ty → Bool
  | .s16 | .z16 | .s8 | .z8 | .bf16 | .f16 | .e4m3 | .e5m2 | .e2m1 => true
  | .s32 | .z32 | .s64 | .z64 | .f32 | .f64 | .fp4b => false
/-- The types of VCMP. -/
def Ty.okCmp : Ty → Bool
  | .s32 | .z32 | .s64 | .z64 => true
  | .s16 | .z16 | .s8 | .z8 | .f32 | .f64 | .bf16 | .f16 | .e4m3 | .e5m2 | .e2m1 | .fp4b => false
/-- .f32 and .f64. -/
def Ty.isFp2 : Ty → Bool
  | .f32 | .f64 => true
  | .s32 | .z32 | .s16 | .z16 | .s8 | .z8 | .s64 | .z64 | .bf16 | .f16 | .e4m3 | .e5m2 | .e2m1 | .fp4b => false

/-- The first failing check of a code check, a reserved check and an operand check (R108). -/
def firstIllegal (code reserved operand : Bool) : Option Illegal :=
  if !code then some .code else if !reserved then some .reserved else if !operand then some .operand else none

/-- A fixed-latency scalar destination alone is checked. -/
def admitD (d : SReg) : Option Illegal := firstIllegal true true (okDest d)
/-- A vector destination and the type are checked (R164). -/
def admitV (okTy : Ty → Bool) (vd : VReg) (t : Ty) : Option Illegal := firstIllegal (okTy t) true (okVDest vd)

/-- A load in spaces g, p and c: fixed-latency in p: (R63, R105). -/
def admitLd (o : OpMem) : Option Illegal :=
  firstIllegal true true (match o.sp with | .p => okDest o.d | .g | .c => okLong o.d | .x => false)
/-- A store in spaces g, p and c (R105). -/
def admitSt (o : OpMem) : Option Illegal := firstIllegal true true (decide (o.sp ≠ .x))
/-- LDF and LDP: spaces p and c, long-latency in any space (R63, R105). -/
def admitLdf (o : OpMem) : Option Illegal := firstIllegal true true ((o.sp == .p || o.sp == .c) && okLong o.d)

/-- The combinable and posted operations: SWAP and CAS are not among them (R106). -/
def okComb (fn : AmoFn) : Bool := fn != .swap && fn != .cas

/-- The checks of R108 on a decoded instruction's fields: the first that fails, if any. Events and stream commands have no
instruction word and no such check. -/
def defect : Instr → Option Illegal
  | .add o | .sub o | .and o | .or o => admitD o.d
  | .xor o | .andn o | .shl o | .shr o => admitD o.d
  | .sha o | .rot o | .min o | .max o => admitD o.d
  | .minz o | .maxz o | .sel o | .mul o => admitD o.d
  | .mulh o | .mulhz o | .div o | .divz o => admitD o.d
  | .rem o | .remz o | .mads o | .ext o => admitD o.d
  | .ins o | .cmpEq o | .cmpNe o | .cmpLt o => admitD o.d
  | .cmpGe o | .cmpLtz o | .cmpGez o | .bound o => admitD o.d
  | .clz o | .ctz o | .pop o | .brev o | .bswap o => admitD o.d
  | .lea o _ | .agen2 o _ => admitD o.d
  | .addImm o | .andImm o | .orImm o | .xorImm o | .mulImm o => admitD o.d
  | .minImm o | .maxImm o | .cmpEqImm o | .cmpNeImm o | .cmpLtImm o => admitD o.d
  | .cmpGeImm o | .cmpLtzImm o | .cmpGezImm o => admitD o.d
  | .shlImm o | .shrImm o | .shaImm o | .rotImm o => admitD o.d
  | .extImm o | .insImm o => firstIllegal true true (okDest o.d && o.p.toNat + o.w.toNat + 1 ≤ 64)
  | .lui d _ => admitD d
  | .bccEq _ | .bccNe _ | .bccLt _ | .bccGe _ | .bccLtz _ | .bccGez _ | .j _ | .jal _ | .done | .yield => none
  | .jalr o => admitD o.d
  | .loop o | .loopx o => firstIllegal true true (1 ≤ o.imm.toNat && o.imm.toNat ≤ 1023)
  | .movq o => admitD o.d
  | .marke o | .markf o => firstIllegal true true (okMark o)
  | .testf o => firstIllegal true true (okDest o.d && (!o.vec || okV6 o.a))
  | .waitf o => firstIllegal true true (!o.vec || okV6 o.a)
  | .waitm o => firstIllegal true true (o.a.toNat < 48 || 60 ≤ o.a.toNat)
  | .mfs d _ n => firstIllegal true true (okDest d && sprAllocated n.toNat)
  | .mts _ _ n => firstIllegal true true (sprWritable n.toNat)
  | .fadd o | .fsub o | .fmul o | .fma o | .fdiv o => admitD o.d
  | .fsqrt o => admitD o.d
  | .fmin o | .fmax o => admitD o.d
  | .fcmp o => admitD o.d
  | .fcvt o => firstIllegal (o.dst != o.src && !(o.dst.isInt && o.src.isInt)) true (okDest o.d)
  | .fclass o => admitD o.d
  | .vadd o | .vsub o | .vmul o | .vmulh o | .vmad o => admitV Ty.isInt o.vd o.ty
  | .vand o | .vor o | .vxor o | .vshl o | .vshr o => admitV Ty.isInt o.vd o.ty
  | .vsha o | .vmin o | .vmax o => admitV Ty.isInt o.vd o.ty
  | .vabs o | .vneg o => admitV Ty.okAbs o.vd o.ty
  | .vcmp o => firstIllegal o.ty.okCmp true true
  | .vfcmp o => firstIllegal o.ty.isFp2 true true
  | .vsel o | .vperm o | .vrot o => admitV (fun _ => true) o.vd o.ty
  | .vfadd o | .vfsub o | .vfmul o | .vfma o | .vfms o => admitV Ty.isFp4 o.vd o.ty
  | .vfnma o | .vfdiv o | .vfmin o | .vfmax o => admitV Ty.isFp4 o.vd o.ty
  | .vfsqrt o | .vfclass o => admitV Ty.isFp4 o.vd o.ty
  | .vfrcp o | .vfrsq o | .vfexp2 o | .vflog2 o => admitV Ty.isFp3 o.vd o.ty
  | .vcvt o => firstIllegal (o.dst != .fp4b && o.src != .fp4b && o.dst != o.src) true (okVDest o.vd)
  | .vquant o => firstIllegal (o.dst == .fp4b && o.src.isFp3) true (okVDest o.vd)
  | .vdeq o => firstIllegal (o.src == .fp4b && o.dst.isFp3) true (okVDest o.vd)
  | .vdot o => admitV Ty.okDot o.vd o.ty
  | .vbdot o => admitV (· == .fp4b) o.vd o.ty
  | .vredadd o | .vredmax o | .vredmin o => firstIllegal (o.ty.isInt || o.ty.isFp4) true true
  | .vscan o => admitV (fun t => t.isInt || t.isFp2) o.vd o.ty
  | .vshuf o => firstIllegal true (match o.pat with | .rev | .swp2 => o.vb == 0#5 | .ziplo | .ziphi | .uzpev | .uzpod | .catlo | .cathi => true) (okVDest o.vd)
  | .vbcast o => admitV (fun _ => true) o.vd o.ty
  | .vextr _ => none
  | .vins o => admitV (fun _ => true) o.vd o.ty
  | .mand _ | .mor _ | .mxor _ | .mnot _ _ | .mpop _ _ | .mfirst _ _ | .vwidth _ _ => none
  | .ldB o | .ldH o | .ldW o | .ldD o => admitLd o
  | .stB o | .stH o | .stW o | .stD o => admitSt o
  | .ldv o => firstIllegal true true (match o.sp with | .p => okV6Dest o.d | .g | .c => okV6Long o.d | .x => false)
  | .stv o => firstIllegal true true (decide (o.sp ≠ .x) && okV6 o.d)
  | .ldg o => firstIllegal true true (okV6Long o.d)
  | .stg o => firstIllegal true true (okV6 o.d)
  | .ldf o | .ldp o => admitLdf o
  | .ste o => firstIllegal true true (o.sp == .p || o.sp == .c)
  | .stx _ | .xbar _ => none
  | .amo o => firstIllegal true true (okLong o.d)
  | .amoC o => firstIllegal (okComb o.fn) true (okLong o.d)
  | .stOp o | .stOpC o => firstIllegal (okComb o.fn) true true
  | .dqpush _ => none
  | .dqpop o | .dqsteal o => firstIllegal true true (okLong o.d)
  | .chget o => firstIllegal true true (if o.v then okV6Long o.d else okLong o.d)
  | .chpeek o => firstIllegal true true (if o.v then okV6Long o.d else okLong o.d)
  | .chput o => firstIllegal true true (!o.v || okV6 o.a)
  | .chstat o => admitD o.d
  | .acq _ | .acqs _ | .rel _ | .fence _ _ _ | .waita _ | .bar _ => none
  | .scmd o => firstIllegal true true (okLong o.d)
  | .scmdw o => firstIllegal true true (okLong o.d && o.d != 0#6)
  | .trap _ | .eret | .rply | .rplys | .sysc _ | .halt | .bkpt _ => none
  | .cntrd d _ => admitD d
  | .cntcfg _ _ _ => none
  | .carve o => admitD o.d
  | .idle => none
  | .cCopy _ _ | .cCopyr _ _ | .cGath _ _ | .cScat _ _ | .cFill _ _ => none
  | .cConv _ _ | .cBind _ _ | .cUnbind _ _ | .cStream _ _ | .cTtask _ _ => none
  | .cMma _ _ | .cAccsv _ _ | .cAccld _ _ | .cPref _ _ | .cFlush _ _ => none
  | .cLaunch _ _ | .cJoin _ _ | .cFree _ _ | .engineCommandStart | .copyChunkLand => none
  | .engineCommandComplete | .engineCommandError | .nodeSourceDeliver | .nodeReadResponse | .nodeSinkWrite => none
  | .nodeRequestElement | .nodeStreamEnd | .carveRepartition | .firingStart | .firingOverrun => none
  | .channelTokenArrival | .commitMarkArrival | .creditArrival | .eosConsume | .cellWake => none
  | .borderTokenRefuse | .ctlStartPulse | .ctlDonePulse | .replyArrival | .ackArrival => none
  | .retryResend | .homeReadWrite | .homeAtomic | .homeDequeOp | .homeAcquireRequest => none
  | .homeRelease | .homeWaitaRequest | .waitaHostPoll | .scratchpadPortAccess | .presencePortRequest => none
  | .xbarArrival | .barArrival | .withdrawalArrival | .purgeArrival | .combineAtSwitch => none
  | .combineWaitExpiry | .combinedReplySplit | .urgentPacketEvict | .evictionResend | .packetPromotion => none
  | .shareWindowRoll | .pageWalkDone | .configWritten | .armCheck | .rectSinksDone => none
  | .completionSignalWrite | .rectOverrun | .cutRequest | .cutTokenArrival | .stopAckArrival => none
  | .reelWrite | .faultEvent | .freezeArrival | .drainLimitExpiry | .moveStart => none
  | .autoRestore | .slateIssueTask | .rowHalfKstep | .tileTaskEnd | .tileTaskOverrun => none
  | .slatePreempt | .hostCxlRead | .hostCxlWrite | .hostAtomic | .lqTailDoorbell => none
  | .lqHeadWrite | .lqCtlWrite | .launchRecordRead | .fqHeadDoorbell | .fqCtlWrite => none
  | .fqResumeWrite | .fqInvcntWrite | .invalidationDone | .cntWrite | .cntselWrite => none
  | .writeRegionEntry | .writeFormatWindow | .resumeContext | .attestReport | .keyCertificate => none
  | .cinderReading | .cinderReadingPf | .firmwareStage | .leaseCreate | .leaseDestroy => none
  | .grantRow | .revokeRow | .preempt | .restore | .leaseFree => none
  | .dump | .leaseSchedWrite | .leasePtWrite | .devPwrWrite | .registerWrite => none
  | .mctpStatusQuery | .coldPowerUp | .warmReset | .bringupStageComplete | .bringupStageTimeout => none
  | .cinderSample | .powerPacingTick | .junctionTrip | .coolantFlowLow | .softErrorDetected => none
  | .linkRetransmission => none

/-! ### The decoder (R95 to R107) -/

/-- What the decoder answers. -/
abbrev Decoded := Except Illegal Instr

/-- A word whose reserved fields are to be zero: a bad code of its fields is reported first (R108). -/
def withReserved (zero : Bool) (i : Instr) : Decoded :=
  if zero then .ok i else if defect i = some .code then .error .code else .error .reserved


/-- Operands of format R with three registers. -/
def FmtR.r3 (f : FmtR) : OpR3 := ⟨f.d, f.a, f.b, flag f.ea, flag f.eb⟩
/-- Operands of format R with b and eb reserved. -/
def FmtR.r2 (f : FmtR) : OpR2 := ⟨f.d, f.a, flag f.ea⟩
/-- Operands of a rounding floating-point instruction. -/
def FmtR.f3 (f : FmtR) (rm : RMode) : OpF3 := ⟨f.d, f.a, f.b, flag f.ea, flag f.eb, flag (f.fn.extractLsb' 3 1), rm⟩
/-- The scale of LEA and AGEN2. -/
def FmtR.scale (f : FmtR) : BitVec 2 := f.fn.extractLsb' 0 2

/-- Opcode 0x01 (R96). -/
def decode01 (f : FmtR) : Decoded :=
  match f.fn.toNat with
  | 0 => .ok (.add f.r3)
  | 1 => .ok (.sub f.r3)
  | 2 => .ok (.and f.r3)
  | 3 => .ok (.or f.r3)
  | 4 => .ok (.xor f.r3)
  | 5 => .ok (.andn f.r3)
  | 6 => .ok (.shl f.r3)
  | 7 => .ok (.shr f.r3)
  | 8 => .ok (.sha f.r3)
  | 9 => .ok (.rot f.r3)
  | 10 => .ok (.min f.r3)
  | 11 => .ok (.max f.r3)
  | 12 => .ok (.minz f.r3)
  | 13 => .ok (.maxz f.r3)
  | 14 => .ok (.sel f.r3)
  | _ => .error .code

/-- Opcode 0x02 (R96). -/
def decode02 (f : FmtR) : Decoded :=
  match f.fn.toNat with
  | 0 => .ok (.mul f.r3)
  | 1 => .ok (.mulh f.r3)
  | 2 => .ok (.mulhz f.r3)
  | 3 => .ok (.div f.r3)
  | 4 => .ok (.divz f.r3)
  | 5 => .ok (.rem f.r3)
  | 6 => .ok (.remz f.r3)
  | 7 => .ok (.mads f.r3)
  | _ => .error .code

/-- Opcode 0x03 (R96). -/
def decode03 (f : FmtR) : Decoded :=
  match f.fn.toNat with
  | 0 => withReserved (f.b == 0#6 && f.eb == 0#1) (.clz f.r2)
  | 1 => withReserved (f.b == 0#6 && f.eb == 0#1) (.ctz f.r2)
  | 2 => withReserved (f.b == 0#6 && f.eb == 0#1) (.pop f.r2)
  | 3 => withReserved (f.b == 0#6 && f.eb == 0#1) (.brev f.r2)
  | 4 => withReserved (f.b == 0#6 && f.eb == 0#1) (.bswap f.r2)
  | 5 => .ok (.ext f.r3)
  | 6 => .ok (.ins f.r3)
  | _ => .error .code

/-- Opcode 0x04 (R96). -/
def decode04 (f : FmtR) : Decoded :=
  match f.fn.toNat with
  | 0 => .ok (.cmpEq f.r3)
  | 1 => .ok (.cmpNe f.r3)
  | 2 => .ok (.cmpLt f.r3)
  | 3 => .ok (.cmpGe f.r3)
  | 4 => .ok (.cmpLtz f.r3)
  | 5 => .ok (.cmpGez f.r3)
  | _ => .error .code

/-- Opcode 0x05 (R96). -/
def decode05 (f : FmtR) : Decoded :=
  if f.fn.toNat < 4 then .ok (.lea f.r3 f.scale)
  else if f.fn.toNat < 8 then .ok (.agen2 f.r3 f.scale)
  else if f.fn.toNat = 8 then .ok (.bound f.r3)
  else .error .code

/-- Operands of format I. -/
def FmtI.opI (f : FmtI) : OpI := ⟨f.d, f.a, flag f.ea, f.imm⟩
/-- A shift amount of 0 to 63 (R97). -/
def FmtI.shift (f : FmtI) (mk : OpSh → Instr) : Decoded :=
  if f.imm.extractLsb' 6 5 = 0#5 then .ok (mk ⟨f.d, f.a, flag f.ea, f.imm.extractLsb' 0 6⟩) else .error .operand
/-- The packed width and position of EXT and INS (R97). -/
def FmtI.bf (f : FmtI) : OpBf := ⟨f.d, f.a, flag f.ea, f.imm.extractLsb' 6 5, f.imm.extractLsb' 0 6⟩
/-- Operands of format B. -/
def FmtB.opB (f : FmtB) : OpB := ⟨f.a, f.b, f.off⟩
/-- The offset of J and JAL: off24[23:12] equals bit 11 in every bit (R93). -/
def FmtJ.target (f : FmtJ) (mk : BitVec 12 → Instr) : Decoded :=
  if f.hi = (if flag (f.lo.extractLsb' 11 1) then BitVec.allOnes 12 else 0#12) then .ok (mk f.lo) else .error .operand
/-- A format J word whose off24 is reserved. -/
def FmtJ.bare (f : FmtJ) (i : Instr) : Decoded := withReserved (f.hi == 0#12 && f.lo == 0#12) i
/-- A format J word that carries a code in off24[7:0]. -/
def FmtJ.coded (f : FmtJ) (mk : BitVec 8 → Instr) : Decoded :=
  withReserved (f.hi == 0#12 && f.lo.extractLsb' 8 4 == 0#4) (mk (f.lo.extractLsb' 0 8))
/-- LOOP and LOOPX: d is reserved (R98). -/
def FmtI.loopOp (f : FmtI) (mk : OpLoop → Instr) : Decoded :=
  withReserved (f.d == 0#6) (mk ⟨f.a, flag f.ea, f.imm⟩)
/-- A format R word whose fn has to be 0 or 1 (R98). -/
def FmtR.bit (f : FmtR) (k : Bool → Decoded) : Decoded :=
  if f.fn.extractLsb' 1 3 = 0#3 then k (flag (f.fn.extractLsb' 0 1)) else .error .code
/-- A format R word whose fn has to be 0. -/
def FmtR.zeroFn (f : FmtR) (k : Decoded) : Decoded := if f.fn = 0#4 then k else .error .code
/-- A rounding scalar floating-point word (R99). -/
def FmtR.round (f : FmtR) (k : RMode → Decoded) : Decoded :=
  match RMode.ofCode (f.fn.extractLsb' 0 3) with
  | some rm => k rm
  | none => .error .code
/-- FMIN, FMAX and FCLASS: fn[2:0] is 0 (R99). -/
def FmtR.noRound (f : FmtR) (k : Decoded) : Decoded := if f.fn.extractLsb' 0 3 = 0#3 then k else .error .code

/-- Opcodes 0x40 to 0x54 (R98). -/
def decodeControl (op : Nat) (w : IWord) : Decoded :=
  let r := FmtR.read w
  let i := FmtI.read w
  let b := (FmtB.read w).opB
  let j := FmtJ.read w
  match op with
  | 0x40 => .ok (.bccEq b) | 0x41 => .ok (.bccNe b) | 0x42 => .ok (.bccLt b)
  | 0x43 => .ok (.bccGe b) | 0x44 => .ok (.bccLtz b) | 0x45 => .ok (.bccGez b)
  | 0x46 => j.target .j
  | 0x47 => j.target .jal
  | 0x48 => .ok (.jalr i.opI)
  | 0x49 => i.loopOp .loop
  | 0x4A => i.loopOp .loopx
  | 0x4B => j.bare .done
  | 0x4C => j.bare .yield
  | 0x4D => r.zeroFn (withReserved (r.b == 0#6) (.movq ⟨r.d, r.a, flag r.ea, flag r.eb⟩))
  | 0x4E => r.bit fun v => withReserved (r.a == 0#6 && r.b == 0#6) (.marke ⟨r.d, v, flag r.ea, flag r.eb⟩)
  | 0x4F => r.bit fun v => withReserved (r.a == 0#6 && r.b == 0#6) (.markf ⟨r.d, v, flag r.ea, flag r.eb⟩)
  | 0x50 => r.bit fun v => .ok (.testf ⟨r.d, r.a, r.b, v, flag r.ea, flag r.eb⟩)
  | 0x51 => r.bit fun v => withReserved (r.d == 0#6 && r.b == 0#6) (.waitf ⟨r.a, v, flag r.ea, flag r.eb⟩)
  | 0x52 => r.bit fun t => .ok (.waitm ⟨r.d, r.a, r.b, flag r.ea, flag r.eb, t⟩)
  | 0x53 => withReserved (i.a == 0#6) (.mfs i.d (flag i.ea) i.imm)
  | 0x54 => withReserved (i.d == 0#6) (.mts i.a (flag i.ea) i.imm)
  | _ => .error .opcode

/-- Opcodes 0x60 to 0x6A (R99, R100). -/
def decodeFloat (op : Nat) (w : IWord) : Decoded :=
  let r := FmtR.read w
  let wide := flag (r.fn.extractLsb' 3 1)
  match op with
  | 0x60 => r.round fun rm => .ok (.fadd (r.f3 rm))
  | 0x61 => r.round fun rm => .ok (.fsub (r.f3 rm))
  | 0x62 => r.round fun rm => .ok (.fmul (r.f3 rm))
  | 0x63 => r.round fun rm => .ok (.fma (r.f3 rm))
  | 0x64 => r.round fun rm => .ok (.fdiv (r.f3 rm))
  | 0x65 => r.round fun rm => withReserved (r.b == 0#6) (.fsqrt ⟨r.d, r.a, flag r.ea, flag r.eb, wide, rm⟩)
  | 0x66 => r.noRound (.ok (.fmin ⟨r.d, r.a, r.b, flag r.ea, flag r.eb, wide⟩))
  | 0x67 => r.noRound (.ok (.fmax ⟨r.d, r.a, r.b, flag r.ea, flag r.eb, wide⟩))
  | 0x68 =>
    if r.fn.extractLsb' 2 1 = 0#1 then
      .ok (.fcmp ⟨r.d, r.a, r.b, flag r.ea, flag r.eb, wide, FCond.ofCode (r.fn.extractLsb' 0 2)⟩)
    else .error .code
  | 0x69 => r.round fun rm =>
      withReserved (r.fn.extractLsb' 3 1 == 0#1 && r.eb == 0#1)
        (.fcvt ⟨r.d, r.a, CvtTy.ofCode (r.b.extractLsb' 3 3), CvtTy.ofCode (r.b.extractLsb' 0 3), flag r.ea, rm⟩)
  | 0x6A => r.noRound (withReserved (r.b == 0#6) (.fclass ⟨r.d, r.a, flag r.ea, flag r.eb, wide⟩))
  | _ => .error .opcode

/-- The type code of a vector word: fn[4] is clear (R102). -/
def FmtV.typed (f : FmtV) (k : Ty → Decoded) : Decoded :=
  if f.fn.extractLsb' 4 1 = 0#1 then k (Ty.ofCode (f.fn.extractLsb' 0 4)) else .error .code
/-- A binary or accumulating vector word. -/
def FmtV.v3 (f : FmtV) (mk : OpV3 → Instr) : Decoded :=
  f.typed fun t => .ok (mk ⟨f.vd, f.va, f.vb, f.m, flag f.ea, t⟩)
/-- A unary vector word: vb is reserved. -/
def FmtV.v2 (f : FmtV) (mk : OpV2 → Instr) : Decoded :=
  f.typed fun t => withReserved (f.vb == 0#5) (mk ⟨f.vd, f.va, f.m, flag f.ea, t⟩)
/-- A converting vector word: vb[4] is reserved (R164). -/
def FmtV.cvt (f : FmtV) (mk : OpVCvt → Instr) : Decoded :=
  f.typed fun t => withReserved (f.vb.extractLsb' 4 1 == 0#1)
    (mk ⟨f.vd, f.va, f.m, flag f.ea, Ty.ofCode (f.vb.extractLsb' 0 4), t⟩)
/-- VEXTR and VINS: the mask field is reserved (R188). -/
def FmtV.vx (f : FmtV) (mk : OpVX → Instr) : Decoded :=
  f.typed fun t => withReserved (f.m == 0#3) (mk ⟨f.vd, f.va, f.vb, flag f.ea, t⟩)
/-- A mask-group word: fn is 0 (R173). -/
def FmtV.maskGroup (f : FmtV) (zero : Bool) (i : Instr) : Decoded :=
  if f.fn = 0#5 then withReserved zero i else .error .code
/-- The mask named by a 5-bit field. -/
def maskOf (v : VReg) : BitVec 3 := v.extractLsb' 0 3
/-- The reserved bits [4:3] of a mask field. -/
def maskHi (v : VReg) : Bool := v.extractLsb' 3 2 == 0#2

/-- Opcodes 0x80 to 0xB6 (R101 to R103). The ea bit of VWIDTH, which has no scalar source, may be either: DESIGN CHOICE (log entry 120). -/
def decodeVector (op : Nat) (w : IWord) : Decoded :=
  let f := FmtV.read w
  match op with
  | 0x80 => f.v3 .vadd
  | 0x81 => f.v3 .vsub
  | 0x82 => f.v3 .vmul
  | 0x83 => f.v3 .vmulh
  | 0x84 => f.v3 .vmad
  | 0x85 => f.v3 .vand
  | 0x86 => f.v3 .vor
  | 0x87 => f.v3 .vxor
  | 0x88 => f.v3 .vshl
  | 0x89 => f.v3 .vshr
  | 0x8A => f.v3 .vsha
  | 0x8B => f.v3 .vmin
  | 0x8C => f.v3 .vmax
  | 0x8D => f.v2 .vabs
  | 0x8E => f.v2 .vneg
  | 0x8F => f.typed fun t => .ok (.vcmp ⟨VCond.ofCode (f.vd.extractLsb' 3 2), maskOf f.vd, f.va, f.vb, f.m, flag f.ea, t⟩)
  | 0x90 => f.v3 .vsel
  | 0x91 => f.v3 .vfadd
  | 0x92 => f.v3 .vfsub
  | 0x93 => f.v3 .vfmul
  | 0x94 => f.v3 .vfma
  | 0x95 => f.v3 .vfms
  | 0x96 => f.v3 .vfnma
  | 0x97 => f.v3 .vfdiv
  | 0x98 => f.v2 .vfsqrt
  | 0x99 => f.v2 .vfrcp
  | 0x9A => f.v2 .vfrsq
  | 0x9B => f.v2 .vfexp2
  | 0x9C => f.v2 .vflog2
  | 0x9D => f.v3 .vfmin
  | 0x9E => f.v3 .vfmax
  | 0x9F => f.typed fun t => .ok (.vfcmp ⟨FCond.ofCode (f.vd.extractLsb' 3 2), maskOf f.vd, f.va, f.vb, f.m, flag f.ea, t⟩)
  | 0xA0 => f.v2 .vfclass
  | 0xA1 => f.cvt .vcvt
  | 0xA2 => f.cvt .vquant
  | 0xA3 => f.cvt .vdeq
  | 0xA4 => f.v3 .vdot
  | 0xA5 => f.v3 .vbdot
  | 0xA6 => f.v2 .vredadd
  | 0xA7 => f.v2 .vredmax
  | 0xA8 => f.v2 .vredmin
  | 0xA9 => f.v2 .vscan
  | 0xAA => f.v3 .vperm
  | 0xAB =>
    if f.fn.extractLsb' 3 2 = 0#2 then
      .ok (.vshuf ⟨f.vd, f.va, f.vb, f.m, flag f.ea, Shuf.ofCode (f.fn.extractLsb' 0 3)⟩)
    else .error .code
  | 0xAC => f.v3 .vrot
  | 0xAD => f.v2 .vbcast
  | 0xAE => f.vx .vextr
  | 0xAF => f.vx .vins
  | 0xB0 => f.maskGroup (maskHi f.vd && maskHi f.va && maskHi f.vb && f.m == 0#3 && f.ea == 0#1)
      (.mand ⟨maskOf f.vd, maskOf f.va, maskOf f.vb⟩)
  | 0xB1 => f.maskGroup (maskHi f.vd && maskHi f.va && maskHi f.vb && f.m == 0#3 && f.ea == 0#1)
      (.mor ⟨maskOf f.vd, maskOf f.va, maskOf f.vb⟩)
  | 0xB2 => f.maskGroup (maskHi f.vd && maskHi f.va && maskHi f.vb && f.m == 0#3 && f.ea == 0#1)
      (.mxor ⟨maskOf f.vd, maskOf f.va, maskOf f.vb⟩)
  | 0xB3 => f.maskGroup (maskHi f.vd && maskHi f.va && f.vb == 0#5 && f.m == 0#3 && f.ea == 0#1)
      (.mnot (maskOf f.vd) (maskOf f.va))
  | 0xB4 => f.maskGroup (maskHi f.va && f.vb == 0#5 && f.m == 0#3 && f.ea == 0#1) (.mpop f.vd (maskOf f.va))
  | 0xB5 => f.maskGroup (maskHi f.va && f.vb == 0#5 && f.m == 0#3 && f.ea == 0#1) (.mfirst f.vd (maskOf f.va))
  | 0xB6 => f.maskGroup (f.va == 0#5 && f.vb == 0#5 && f.m == 0#3) (.vwidth f.vd (flag f.ea))
  | _ => .error .opcode

/-- Operands of a format M access (R105). -/
def FmtM.mem (f : FmtM) : OpMem := ⟨f.d, f.base, flag f.ea, Space.ofCode f.sp, f.imm⟩
/-- The packed operands of LDG and STG; only space g is admitted (R104, R105). -/
def FmtM.gath (f : FmtM) (mk : OpGath → Instr) : Decoded :=
  if f.sp = 0#2 then
    .ok (mk ⟨f.d, f.base, flag f.ea, flag (f.imm.extractLsb' 8 1), f.imm.extractLsb' 5 3, f.imm.extractLsb' 0 5⟩)
  else .error .operand
/-- The operation of an atomic (R106). -/
def FmtR.amoFn (f : FmtR) (k : AmoFn → Decoded) : Decoded :=
  match AmoFn.ofCode f.fn with
  | some fn => k fn
  | none => .error .code
/-- A channel word: imm11[10:4] is reserved (R104). -/
def FmtI.chan (f : FmtI) : Bool := f.imm.extractLsb' 4 7 == 0#7
/-- The channel number of a channel word. -/
def FmtI.ch (f : FmtI) : BitVec 3 := f.imm.extractLsb' 0 3
/-- imm11[3] of a channel word. -/
def FmtI.chv (f : FmtI) : Bool := flag (f.imm.extractLsb' 3 1)

/-- Opcodes 0xC0 to 0xDB (R104 to R106). -/
def decodeMemory (op : Nat) (w : IWord) : Decoded :=
  let m := FmtM.read w
  let r := FmtR.read w
  let i := FmtI.read w
  match op with
  | 0xC0 => .ok (.ldB m.mem) | 0xC1 => .ok (.ldH m.mem) | 0xC2 => .ok (.ldW m.mem) | 0xC3 => .ok (.ldD m.mem)
  | 0xC4 => .ok (.stB m.mem) | 0xC5 => .ok (.stH m.mem) | 0xC6 => .ok (.stW m.mem) | 0xC7 => .ok (.stD m.mem)
  | 0xC8 => .ok (.ldv m.mem) | 0xC9 => .ok (.stv m.mem)
  | 0xCA => m.gath .ldg | 0xCB => m.gath .stg
  | 0xCC => .ok (.ldf m.mem) | 0xCD => .ok (.ldp m.mem) | 0xCE => .ok (.ste m.mem)
  | 0xCF => if m.sp = 3#2 then .ok (.stx ⟨m.d, m.base, flag m.ea, m.imm⟩) else .error .operand
  | 0xD0 => r.bit fun v =>
      withReserved (r.d == 0#6 && r.a == 0#6 && r.b == 0#6 && r.ea == 0#1 && r.eb == 0#1) (.xbar v)
  | 0xD1 => r.amoFn fun fn => .ok (.amo ⟨r.d, r.a, r.b, flag r.ea, flag r.eb, fn⟩)
  | 0xD2 => r.amoFn fun fn => .ok (.amoC ⟨r.d, r.a, r.b, flag r.ea, flag r.eb, fn⟩)
  | 0xD3 => r.amoFn fun fn => withReserved (r.d == 0#6) (.stOp ⟨r.a, r.b, flag r.ea, flag r.eb, fn⟩)
  | 0xD4 => r.amoFn fun fn => withReserved (r.d == 0#6) (.stOpC ⟨r.a, r.b, flag r.ea, flag r.eb, fn⟩)
  | 0xD5 => withReserved (r.d == 0#6) (.dqpush ⟨r.a, r.b, flag r.ea, flag r.eb, r.fn⟩)
  | 0xD6 => withReserved (r.b == 0#6) (.dqpop ⟨r.d, r.a, flag r.ea, flag r.eb, r.fn⟩)
  | 0xD7 => withReserved (r.b == 0#6) (.dqsteal ⟨r.d, r.a, flag r.ea, flag r.eb, r.fn⟩)
  | 0xD8 => withReserved (i.a == 0#6 && i.chan) (.chget ⟨i.d, flag i.ea, i.chv, i.ch⟩)
  | 0xD9 => withReserved i.chan (.chpeek ⟨i.d, i.a, flag i.ea, i.chv, i.ch⟩)
  | 0xDA => withReserved (i.d == 0#6 && i.chan) (.chput ⟨i.a, flag i.ea, i.chv, i.ch⟩)
  | 0xDB => withReserved (i.a == 0#6 && i.chan) (.chstat ⟨i.d, flag i.ea, i.chv, i.ch⟩)
  | _ => .error .opcode

/-- Opcodes 0xE0 to 0xFA (R107). -/
def decodeSystem (op : Nat) (w : IWord) : Decoded :=
  let r := FmtR.read w
  let i := FmtI.read w
  let j := FmtJ.read w
  match op with
  | 0xE0 => r.zeroFn (withReserved (r.d == 0#6 && r.b == 0#6 && r.eb == 0#1) (.acq ⟨r.a, flag r.ea⟩))
  | 0xE1 => r.zeroFn (withReserved (r.d == 0#6 && r.b == 0#6 && r.eb == 0#1) (.acqs ⟨r.a, flag r.ea⟩))
  | 0xE2 => r.zeroFn (withReserved (r.d == 0#6 && r.b == 0#6 && r.eb == 0#1) (.rel ⟨r.a, flag r.ea⟩))
  | 0xE3 =>
    match Scope.ofCode (i.imm.extractLsb' 0 3) with
    | some sc => withReserved (i.d == 0#6 && i.a == 0#6 && i.imm.extractLsb' 5 6 == 0#6)
        (.fence (flag i.ea) (FenceKind.ofCode (i.imm.extractLsb' 3 2)) sc)
    | none => .error .code
  | 0xE4 =>
    if r.fn.extractLsb' 2 1 = 0#1 then
      withReserved (r.d == 0#6)
        (.waita ⟨r.a, r.b, flag r.ea, flag r.eb, flag (r.fn.extractLsb' 3 1), WCond.ofCode (r.fn.extractLsb' 0 2)⟩)
    else .error .code
  | 0xE5 => r.bit fun v =>
      withReserved (r.d == 0#6 && r.a == 0#6 && r.b == 0#6 && r.ea == 0#1 && r.eb == 0#1) (.bar v)
  | 0xE6 => .ok (.scmd ⟨r.d, r.a, r.b, flag r.ea, flag r.eb, r.fn⟩)
  | 0xE7 => .ok (.scmdw ⟨r.d, r.a, r.b, flag r.ea, flag r.eb, r.fn⟩)
  | 0xF0 => j.coded .trap
  | 0xF1 => j.bare .eret
  | 0xF2 => j.bare .rply
  | 0xF3 => j.bare .rplys
  | 0xF4 => j.coded .sysc
  | 0xF5 => j.bare .halt
  | 0xF6 => j.coded .bkpt
  | 0xF7 => withReserved (i.a == 0#6 && i.ea == 0#1 && i.imm.extractLsb' 3 8 == 0#8) (.cntrd i.d (i.imm.extractLsb' 0 3))
  | 0xF8 => withReserved (i.d == 0#6 && i.imm.extractLsb' 3 8 == 0#8) (.cntcfg i.a (flag i.ea) (i.imm.extractLsb' 0 3))
  | 0xF9 => r.zeroFn (withReserved (r.b == 0#6 && r.eb == 0#1) (.carve r.r2))
  | 0xFA => j.bare .idle
  | _ => .error .opcode

/-- Opcodes 0x10 to 0x30 (R97). -/
def decodeImm (op : Nat) (w : IWord) : Decoded :=
  let i := FmtI.read w
  match op with
  | 0x10 => .ok (.addImm i.opI) | 0x11 => .ok (.andImm i.opI) | 0x12 => .ok (.orImm i.opI) | 0x13 => .ok (.xorImm i.opI)
  | 0x14 => i.shift .shlImm | 0x15 => i.shift .shrImm | 0x16 => i.shift .shaImm | 0x17 => i.shift .rotImm
  | 0x18 => .ok (.mulImm i.opI) | 0x19 => .ok (.minImm i.opI) | 0x1A => .ok (.maxImm i.opI)
  | 0x1B => .ok (.cmpEqImm i.opI) | 0x1C => .ok (.cmpNeImm i.opI) | 0x1D => .ok (.cmpLtImm i.opI)
  | 0x1E => .ok (.cmpGeImm i.opI) | 0x1F => .ok (.cmpLtzImm i.opI) | 0x20 => .ok (.cmpGezImm i.opI)
  | 0x21 => .ok (.extImm i.bf) | 0x22 => .ok (.insImm i.bf)
  | 0x30 => .ok (.lui (FmtU.read w).d (FmtU.read w).imm)
  | _ => .error .opcode

/-- The decoder: total on every 32-bit word, refusing by the first failing check of R108 that the word alone decides. The
checks of `defect` on the decoded fields follow at issue, in the same order (R108, R109). -/
def decode (w : IWord) : Decoded :=
  let op := (w.extractLsb' 24 8).toNat
  if op < 0x10 then
    match op with
    | 0x01 => decode01 (FmtR.read w)
    | 0x02 => decode02 (FmtR.read w)
    | 0x03 => decode03 (FmtR.read w)
    | 0x04 => decode04 (FmtR.read w)
    | 0x05 => decode05 (FmtR.read w)
    | _ => .error .opcode
  else if op < 0x40 then decodeImm op w
  else if op < 0x60 then decodeControl op w
  else if op < 0x80 then decodeFloat op w
  else if op < 0xC0 then decodeVector op w
  else if op < 0xE0 then decodeMemory op w
  else decodeSystem op w

/-! ### The encoder -/

/-- The format R word of three registers. -/
def OpR3.word (op : BitVec 8) (fn : BitVec 4) (o : OpR3) : IWord := FmtR.word ⟨op, o.d, o.a, o.b, bitOf o.ea, bitOf o.eb, fn⟩
/-- The format R word with b and eb reserved. -/
def OpR2.word (op : BitVec 8) (fn : BitVec 4) (o : OpR2) : IWord := FmtR.word ⟨op, o.d, o.a, 0, bitOf o.ea, 0, fn⟩
/-- The format I word. -/
def OpI.word (op : BitVec 8) (o : OpI) : IWord := FmtI.word ⟨op, o.d, o.a, bitOf o.ea, o.imm⟩
/-- The format I word of a shift. -/
def OpSh.word (op : BitVec 8) (o : OpSh) : IWord := FmtI.word ⟨op, o.d, o.a, bitOf o.ea, (0#5 ++ o.n : BitVec 11)⟩
/-- The format I word of EXT and INS. -/
def OpBf.word (op : BitVec 8) (o : OpBf) : IWord := FmtI.word ⟨op, o.d, o.a, bitOf o.ea, (o.w ++ o.p : BitVec 11)⟩
/-- The format B word. -/
def OpB.word (op : BitVec 8) (o : OpB) : IWord := FmtB.word ⟨op, o.a, o.b, o.off⟩
/-- The format J word of a target offset. -/
def jWord (op : BitVec 8) (k : BitVec 12) : IWord :=
  FmtJ.word ⟨op, if flag (k.extractLsb' 11 1) then BitVec.allOnes 12 else 0#12, k⟩
/-- The format J word of a code. -/
def jCode (op : BitVec 8) (c : BitVec 8) : IWord := FmtJ.word ⟨op, 0, (0#4 ++ c : BitVec 12)⟩
/-- The format I word of LOOP and LOOPX. -/
def OpLoop.word (op : BitVec 8) (o : OpLoop) : IWord := FmtI.word ⟨op, 0, o.a, bitOf o.ea, o.imm⟩
/-- fn of an instruction with a single mode bit. -/
def fnBit (t : Bool) : BitVec 4 := (0#3 ++ bitOf t : BitVec 4)
/-- The format R word of a rounding instruction. -/
def OpF3.word (op : BitVec 8) (o : OpF3) : IWord :=
  FmtR.word ⟨op, o.d, o.a, o.b, bitOf o.ea, bitOf o.eb, (bitOf o.wide ++ o.rm.code : BitVec 4)⟩
/-- The format R word of FMIN and FMAX. -/
def OpFm.word (op : BitVec 8) (o : OpFm) : IWord :=
  FmtR.word ⟨op, o.d, o.a, o.b, bitOf o.ea, bitOf o.eb, (bitOf o.wide ++ 0#3 : BitVec 4)⟩
/-- fn of a typed vector instruction. -/
def Ty.fn (t : Ty) : BitVec 5 := (0#1 ++ t.code : BitVec 5)
/-- The format V word of three vectors. -/
def OpV3.word (op : BitVec 8) (o : OpV3) : IWord := FmtV.word ⟨op, o.vd, o.va, o.vb, o.m, bitOf o.ea, o.ty.fn⟩
/-- The format V word with vb reserved. -/
def OpV2.word (op : BitVec 8) (o : OpV2) : IWord := FmtV.word ⟨op, o.vd, o.va, 0, o.m, bitOf o.ea, o.ty.fn⟩
/-- The format V word of a conversion. -/
def OpVCvt.word (op : BitVec 8) (o : OpVCvt) : IWord :=
  FmtV.word ⟨op, o.vd, o.va, (0#1 ++ o.dst.code : BitVec 5), o.m, bitOf o.ea, o.src.fn⟩
/-- The format V word of VEXTR and VINS. -/
def OpVX.word (op : BitVec 8) (o : OpVX) : IWord := FmtV.word ⟨op, o.vd, o.va, o.vb, 0, bitOf o.ea, o.ty.fn⟩
/-- A mask name as a 5-bit field. -/
def maskField (m : BitVec 3) : BitVec 5 := (0#2 ++ m : BitVec 5)
/-- The format V word of the mask logic group. -/
def OpM3.word (op : BitVec 8) (o : OpM3) : IWord :=
  FmtV.word ⟨op, maskField o.d, maskField o.a, maskField o.b, 0, 0, 0⟩
/-- The format M word. -/
def OpMem.word (op : BitVec 8) (o : OpMem) : IWord := FmtM.word ⟨op, o.d, o.base, bitOf o.ea, o.sp.code, o.imm⟩
/-- The format M word of LDG and STG. -/
def OpGath.word (op : BitVec 8) (o : OpGath) : IWord :=
  FmtM.word ⟨op, o.d, o.base, bitOf o.ea, 0, (bitOf o.x4 ++ o.m ++ o.idx : BitVec 9)⟩
/-- The format R word of AMO. -/
def OpAmo.word (op : BitVec 8) (o : OpAmo) : IWord := FmtR.word ⟨op, o.d, o.a, o.b, bitOf o.ea, bitOf o.eb, o.fn.code⟩
/-- The format R word of ST.op. -/
def OpSt.word (op : BitVec 8) (o : OpSt) : IWord := FmtR.word ⟨op, 0, o.a, o.b, bitOf o.ea, bitOf o.eb, o.fn.code⟩
/-- The format R word of DQPOP and DQSTEAL. -/
def OpPop.word (op : BitVec 8) (o : OpPop) : IWord := FmtR.word ⟨op, o.d, o.a, 0, bitOf o.ea, bitOf o.eb, o.n⟩
/-- imm11 of a channel instruction. -/
def chImm (v : Bool) (ch : BitVec 3) : BitVec 11 := (0#7 ++ bitOf v ++ ch : BitVec 11)
/-- The format R word of ACQ, ACQS and REL. -/
def OpSync.word (op : BitVec 8) (o : OpSync) : IWord := FmtR.word ⟨op, 0, o.a, 0, bitOf o.ea, 0, 0⟩
/-- The format R word of SCMD and SCMDW. -/
def OpCmd.word (op : BitVec 8) (o : OpCmd) : IWord := FmtR.word ⟨op, o.d, o.a, o.b, bitOf o.ea, bitOf o.eb, o.n⟩
/-- The format R word of XBAR and BAR. -/
def modeWord (op : BitVec 8) (t : Bool) : IWord := FmtR.word ⟨op, 0, 0, 0, 0, 0, fnBit t⟩

/-- The instruction word of a task instruction (R91 to R107); a stream command or a device event has none. -/
def encode : Instr → Option IWord
  | .add o => some (o.word 0x01 0x0)
  | .sub o => some (o.word 0x01 0x1)
  | .and o => some (o.word 0x01 0x2)
  | .or o => some (o.word 0x01 0x3)
  | .xor o => some (o.word 0x01 0x4)
  | .andn o => some (o.word 0x01 0x5)
  | .shl o => some (o.word 0x01 0x6)
  | .shr o => some (o.word 0x01 0x7)
  | .sha o => some (o.word 0x01 0x8)
  | .rot o => some (o.word 0x01 0x9)
  | .min o => some (o.word 0x01 0xA)
  | .max o => some (o.word 0x01 0xB)
  | .minz o => some (o.word 0x01 0xC)
  | .maxz o => some (o.word 0x01 0xD)
  | .sel o => some (o.word 0x01 0xE)
  | .mul o => some (o.word 0x02 0x0)
  | .mulh o => some (o.word 0x02 0x1)
  | .mulhz o => some (o.word 0x02 0x2)
  | .div o => some (o.word 0x02 0x3)
  | .divz o => some (o.word 0x02 0x4)
  | .rem o => some (o.word 0x02 0x5)
  | .remz o => some (o.word 0x02 0x6)
  | .mads o => some (o.word 0x02 0x7)
  | .clz o => some (o.word 0x03 0x0)
  | .ctz o => some (o.word 0x03 0x1)
  | .pop o => some (o.word 0x03 0x2)
  | .brev o => some (o.word 0x03 0x3)
  | .bswap o => some (o.word 0x03 0x4)
  | .ext o => some (o.word 0x03 0x5)
  | .ins o => some (o.word 0x03 0x6)
  | .cmpEq o => some (o.word 0x04 0x0)
  | .cmpNe o => some (o.word 0x04 0x1)
  | .cmpLt o => some (o.word 0x04 0x2)
  | .cmpGe o => some (o.word 0x04 0x3)
  | .cmpLtz o => some (o.word 0x04 0x4)
  | .cmpGez o => some (o.word 0x04 0x5)
  | .lea o k => some (o.word 0x05 (0#2 ++ k : BitVec 4))
  | .agen2 o k => some (o.word 0x05 (1#2 ++ k : BitVec 4))
  | .bound o => some (o.word 0x05 0x8)
  | .addImm o => some (o.word 0x10)
  | .andImm o => some (o.word 0x11)
  | .orImm o => some (o.word 0x12)
  | .xorImm o => some (o.word 0x13)
  | .shlImm o => some (o.word 0x14)
  | .shrImm o => some (o.word 0x15)
  | .shaImm o => some (o.word 0x16)
  | .rotImm o => some (o.word 0x17)
  | .mulImm o => some (o.word 0x18)
  | .minImm o => some (o.word 0x19)
  | .maxImm o => some (o.word 0x1A)
  | .cmpEqImm o => some (o.word 0x1B)
  | .cmpNeImm o => some (o.word 0x1C)
  | .cmpLtImm o => some (o.word 0x1D)
  | .cmpGeImm o => some (o.word 0x1E)
  | .cmpLtzImm o => some (o.word 0x1F)
  | .cmpGezImm o => some (o.word 0x20)
  | .extImm o => some (o.word 0x21)
  | .insImm o => some (o.word 0x22)
  | .lui d imm => some (FmtU.word ⟨0x30, d, imm⟩)
  | .bccEq o => some (o.word 0x40)
  | .bccNe o => some (o.word 0x41)
  | .bccLt o => some (o.word 0x42)
  | .bccGe o => some (o.word 0x43)
  | .bccLtz o => some (o.word 0x44)
  | .bccGez o => some (o.word 0x45)
  | .j k => some (jWord 0x46 k)
  | .jal k => some (jWord 0x47 k)
  | .jalr o => some (o.word 0x48)
  | .loop o => some (o.word 0x49)
  | .loopx o => some (o.word 0x4A)
  | .done => some (FmtJ.word ⟨0x4B, 0, 0⟩)
  | .yield => some (FmtJ.word ⟨0x4C, 0, 0⟩)
  | .movq o => some (FmtR.word ⟨0x4D, o.d, o.a, 0, bitOf o.ea, bitOf o.eb, 0⟩)
  | .marke o => some (FmtR.word ⟨0x4E, o.r, 0, 0, bitOf o.ea, bitOf o.eb, fnBit o.vec⟩)
  | .markf o => some (FmtR.word ⟨0x4F, o.r, 0, 0, bitOf o.ea, bitOf o.eb, fnBit o.vec⟩)
  | .testf o => some (FmtR.word ⟨0x50, o.d, o.a, o.b, bitOf o.ea, bitOf o.eb, fnBit o.vec⟩)
  | .waitf o => some (FmtR.word ⟨0x51, 0, o.a, 0, bitOf o.ea, bitOf o.eb, fnBit o.vec⟩)
  | .waitm o => some (FmtR.word ⟨0x52, o.d, o.a, o.b, bitOf o.ea, bitOf o.eb, fnBit o.t⟩)
  | .mfs d e n => some (FmtI.word ⟨0x53, d, 0, bitOf e, n⟩)
  | .mts a ea n => some (FmtI.word ⟨0x54, 0, a, bitOf ea, n⟩)
  | .fadd o => some (o.word 0x60)
  | .fsub o => some (o.word 0x61)
  | .fmul o => some (o.word 0x62)
  | .fma o => some (o.word 0x63)
  | .fdiv o => some (o.word 0x64)
  | .fsqrt o => some (FmtR.word ⟨0x65, o.d, o.a, 0, bitOf o.ea, bitOf o.eb, (bitOf o.wide ++ o.rm.code : BitVec 4)⟩)
  | .fmin o => some (o.word 0x66)
  | .fmax o => some (o.word 0x67)
  | .fcmp o => some (FmtR.word ⟨0x68, o.d, o.a, o.b, bitOf o.ea, bitOf o.eb, (bitOf o.wide ++ 0#1 ++ o.cond.code : BitVec 4)⟩)
  | .fcvt o => some (FmtR.word ⟨0x69, o.d, o.a, (o.dst.code ++ o.src.code : BitVec 6), bitOf o.ea, 0, (0#1 ++ o.rm.code : BitVec 4)⟩)
  | .fclass o => some (FmtR.word ⟨0x6A, o.d, o.a, 0, bitOf o.ea, bitOf o.eb, (bitOf o.wide ++ 0#3 : BitVec 4)⟩)
  | .vadd o => some (o.word 0x80)
  | .vsub o => some (o.word 0x81)
  | .vmul o => some (o.word 0x82)
  | .vmulh o => some (o.word 0x83)
  | .vmad o => some (o.word 0x84)
  | .vand o => some (o.word 0x85)
  | .vor o => some (o.word 0x86)
  | .vxor o => some (o.word 0x87)
  | .vshl o => some (o.word 0x88)
  | .vshr o => some (o.word 0x89)
  | .vsha o => some (o.word 0x8A)
  | .vmin o => some (o.word 0x8B)
  | .vmax o => some (o.word 0x8C)
  | .vabs o => some (o.word 0x8D)
  | .vneg o => some (o.word 0x8E)
  | .vcmp o => some (FmtV.word ⟨0x8F, (o.cond.code ++ o.k : BitVec 5), o.va, o.vb, o.m, bitOf o.ea, o.ty.fn⟩)
  | .vsel o => some (o.word 0x90)
  | .vfadd o => some (o.word 0x91)
  | .vfsub o => some (o.word 0x92)
  | .vfmul o => some (o.word 0x93)
  | .vfma o => some (o.word 0x94)
  | .vfms o => some (o.word 0x95)
  | .vfnma o => some (o.word 0x96)
  | .vfdiv o => some (o.word 0x97)
  | .vfsqrt o => some (o.word 0x98)
  | .vfrcp o => some (o.word 0x99)
  | .vfrsq o => some (o.word 0x9A)
  | .vfexp2 o => some (o.word 0x9B)
  | .vflog2 o => some (o.word 0x9C)
  | .vfmin o => some (o.word 0x9D)
  | .vfmax o => some (o.word 0x9E)
  | .vfcmp o => some (FmtV.word ⟨0x9F, (o.cond.code ++ o.k : BitVec 5), o.va, o.vb, o.m, bitOf o.ea, o.ty.fn⟩)
  | .vfclass o => some (o.word 0xA0)
  | .vcvt o => some (o.word 0xA1)
  | .vquant o => some (o.word 0xA2)
  | .vdeq o => some (o.word 0xA3)
  | .vdot o => some (o.word 0xA4)
  | .vbdot o => some (o.word 0xA5)
  | .vredadd o => some (o.word 0xA6)
  | .vredmax o => some (o.word 0xA7)
  | .vredmin o => some (o.word 0xA8)
  | .vscan o => some (o.word 0xA9)
  | .vperm o => some (o.word 0xAA)
  | .vshuf o => some (FmtV.word ⟨0xAB, o.vd, o.va, o.vb, o.m, bitOf o.ea, (0#2 ++ o.pat.code : BitVec 5)⟩)
  | .vrot o => some (o.word 0xAC)
  | .vbcast o => some (o.word 0xAD)
  | .vextr o => some (o.word 0xAE)
  | .vins o => some (o.word 0xAF)
  | .mand o => some (o.word 0xB0)
  | .mor o => some (o.word 0xB1)
  | .mxor o => some (o.word 0xB2)
  | .mnot d a => some (FmtV.word ⟨0xB3, maskField d, maskField a, 0, 0, 0, 0⟩)
  | .mpop d a => some (FmtV.word ⟨0xB4, d, maskField a, 0, 0, 0, 0⟩)
  | .mfirst d a => some (FmtV.word ⟨0xB5, d, maskField a, 0, 0, 0, 0⟩)
  | .vwidth d ea => some (FmtV.word ⟨0xB6, d, 0, 0, 0, bitOf ea, 0⟩)
  | .ldB o => some (o.word 0xC0)
  | .ldH o => some (o.word 0xC1)
  | .ldW o => some (o.word 0xC2)
  | .ldD o => some (o.word 0xC3)
  | .stB o => some (o.word 0xC4)
  | .stH o => some (o.word 0xC5)
  | .stW o => some (o.word 0xC6)
  | .stD o => some (o.word 0xC7)
  | .ldv o => some (o.word 0xC8)
  | .stv o => some (o.word 0xC9)
  | .ldg o => some (o.word 0xCA)
  | .stg o => some (o.word 0xCB)
  | .ldf o => some (o.word 0xCC)
  | .ldp o => some (o.word 0xCD)
  | .ste o => some (o.word 0xCE)
  | .stx o => some (FmtM.word ⟨0xCF, o.d, o.base, bitOf o.ea, 3, o.imm⟩)
  | .xbar t => some (modeWord 0xD0 t)
  | .amo o => some (o.word 0xD1)
  | .amoC o => some (o.word 0xD2)
  | .stOp o => some (o.word 0xD3)
  | .stOpC o => some (o.word 0xD4)
  | .dqpush o => some (FmtR.word ⟨0xD5, 0, o.a, o.b, bitOf o.ea, bitOf o.eb, o.n⟩)
  | .dqpop o => some (o.word 0xD6)
  | .dqsteal o => some (o.word 0xD7)
  | .chget o => some (FmtI.word ⟨0xD8, o.d, 0, bitOf o.e, chImm o.v o.ch⟩)
  | .chpeek o => some (FmtI.word ⟨0xD9, o.d, o.a, bitOf o.ea, chImm o.v o.ch⟩)
  | .chput o => some (FmtI.word ⟨0xDA, 0, o.a, bitOf o.ea, chImm o.v o.ch⟩)
  | .chstat o => some (FmtI.word ⟨0xDB, o.d, 0, bitOf o.e, chImm o.out o.ch⟩)
  | .acq o => some (o.word 0xE0)
  | .acqs o => some (o.word 0xE1)
  | .rel o => some (o.word 0xE2)
  | .fence e k sc => some (FmtI.word ⟨0xE3, 0, 0, bitOf e, (0#6 ++ k.code ++ sc.code : BitVec 11)⟩)
  | .waita o => some (FmtR.word ⟨0xE4, 0, o.a, o.b, bitOf o.ea, bitOf o.eb, (bitOf o.w32 ++ 0#1 ++ o.cond.code : BitVec 4)⟩)
  | .bar t => some (modeWord 0xE5 t)
  | .scmd o => some (o.word 0xE6)
  | .scmdw o => some (o.word 0xE7)
  | .trap c => some (jCode 0xF0 c)
  | .eret => some (FmtJ.word ⟨0xF1, 0, 0⟩)
  | .rply => some (FmtJ.word ⟨0xF2, 0, 0⟩)
  | .rplys => some (FmtJ.word ⟨0xF3, 0, 0⟩)
  | .sysc c => some (jCode 0xF4 c)
  | .halt => some (FmtJ.word ⟨0xF5, 0, 0⟩)
  | .bkpt c => some (jCode 0xF6 c)
  | .cntrd d n => some (FmtI.word ⟨0xF7, d, 0, 0, (0#8 ++ n : BitVec 11)⟩)
  | .cntcfg a ea n => some (FmtI.word ⟨0xF8, 0, a, bitOf ea, (0#8 ++ n : BitVec 11)⟩)
  | .carve o => some (o.word 0xF9 0)
  | .idle => some (FmtJ.word ⟨0xFA, 0, 0⟩)
  | .cCopy _ _ | .cCopyr _ _ | .cGath _ _ | .cScat _ _ | .cFill _ _ => none
  | .cConv _ _ | .cBind _ _ | .cUnbind _ _ | .cStream _ _ | .cTtask _ _ => none
  | .cMma _ _ | .cAccsv _ _ | .cAccld _ _ | .cPref _ _ | .cFlush _ _ => none
  | .cLaunch _ _ | .cJoin _ _ | .cFree _ _ | .engineCommandStart | .copyChunkLand => none
  | .engineCommandComplete | .engineCommandError | .nodeSourceDeliver | .nodeReadResponse | .nodeSinkWrite => none
  | .nodeRequestElement | .nodeStreamEnd | .carveRepartition | .firingStart | .firingOverrun => none
  | .channelTokenArrival | .commitMarkArrival | .creditArrival | .eosConsume | .cellWake => none
  | .borderTokenRefuse | .ctlStartPulse | .ctlDonePulse | .replyArrival | .ackArrival => none
  | .retryResend | .homeReadWrite | .homeAtomic | .homeDequeOp | .homeAcquireRequest => none
  | .homeRelease | .homeWaitaRequest | .waitaHostPoll | .scratchpadPortAccess | .presencePortRequest => none
  | .xbarArrival | .barArrival | .withdrawalArrival | .purgeArrival | .combineAtSwitch => none
  | .combineWaitExpiry | .combinedReplySplit | .urgentPacketEvict | .evictionResend | .packetPromotion => none
  | .shareWindowRoll | .pageWalkDone | .configWritten | .armCheck | .rectSinksDone => none
  | .completionSignalWrite | .rectOverrun | .cutRequest | .cutTokenArrival | .stopAckArrival => none
  | .reelWrite | .faultEvent | .freezeArrival | .drainLimitExpiry | .moveStart => none
  | .autoRestore | .slateIssueTask | .rowHalfKstep | .tileTaskEnd | .tileTaskOverrun => none
  | .slatePreempt | .hostCxlRead | .hostCxlWrite | .hostAtomic | .lqTailDoorbell => none
  | .lqHeadWrite | .lqCtlWrite | .launchRecordRead | .fqHeadDoorbell | .fqCtlWrite => none
  | .fqResumeWrite | .fqInvcntWrite | .invalidationDone | .cntWrite | .cntselWrite => none
  | .writeRegionEntry | .writeFormatWindow | .resumeContext | .attestReport | .keyCertificate => none
  | .cinderReading | .cinderReadingPf | .firmwareStage | .leaseCreate | .leaseDestroy => none
  | .grantRow | .revokeRow | .preempt | .restore | .leaseFree => none
  | .dump | .leaseSchedWrite | .leasePtWrite | .devPwrWrite | .registerWrite => none
  | .mctpStatusQuery | .coldPowerUp | .warmReset | .bringupStageComplete | .bringupStageTimeout => none
  | .cinderSample | .powerPacingTick | .junctionTrip | .coolantFlowLow | .softErrorDetected => none
  | .linkRetransmission => none

/-- The word of an instruction, with zero for what has no word: a replay entry's INSTR field (R87). -/
def encodeWord (i : Instr) : IWord := (encode i).getD 0#32

/-! ### Stream-command words (R111 to R113) -/

/-- CMDOP. -/
def cmdOp (w : CWord) : BitVec 8 := w.extractLsb' 120 8
/-- CFLAGS. -/
def cmdFlags (w : CWord) : BitVec 6 := w.extractLsb' 114 6
/-- PATCHC. -/
def cmdPatchC (w : CWord) : Bool := flag (w.extractLsb' 113 1)
/-- PATCHAB. -/
def cmdPatchAB (w : CWord) : Bool := flag (w.extractLsb' 112 1)
/-- TCLASS. -/
def cmdClass (w : CWord) : Nat := (w.extractLsb' 108 4).toNat
/-- TINDEX. -/
def cmdIndex (w : CWord) : Nat := (w.extractLsb' 104 4).toNat
/-- Bit 103, reserved. -/
def cmdRsv (w : CWord) : Bool := flag (w.extractLsb' 103 1)
/-- POL: the token is written once, at completion. -/
def cmdPol (w : CWord) : Bool := flag (w.extractLsb' 102 1)
/-- TOKEN. -/
def cmdToken (w : CWord) : SReg := w.extractLsb' 96 6
/-- OPC. -/
def cmdC (w : CWord) : BitVec 32 := w.extractLsb' 64 32
/-- OPB. -/
def cmdB (w : CWord) : BitVec 32 := w.extractLsb' 32 32
/-- OPA. -/
def cmdA (w : CWord) : BitVec 32 := w.extractLsb' 0 32
/-- OPB:OPA as one 64-bit value. -/
def cmdAB (w : CWord) : BitVec 64 := w.extractLsb' 0 64

/-- The command of an issued word, by CMDOP; every other CMDOP is refused with BADCMD (R113). -/
def decodeCmd (src : CtxId) (w : CWord) : Option Instr :=
  match (cmdOp w).toNat with
  | 0x01 => some (.cCopy src w)
  | 0x02 => some (.cCopyr src w)
  | 0x03 => some (.cGath src w)
  | 0x04 => some (.cScat src w)
  | 0x05 => some (.cFill src w)
  | 0x06 => some (.cConv src w)
  | 0x08 => some (.cBind src w)
  | 0x09 => some (.cUnbind src w)
  | 0x0A => some (.cStream src w)
  | 0x10 => some (.cTtask src w)
  | 0x11 => some (.cMma src w)
  | 0x12 => some (.cAccsv src w)
  | 0x13 => some (.cAccld src w)
  | 0x18 => some (.cPref src w)
  | 0x19 => some (.cFlush src w)
  | 0x20 => some (.cLaunch src w)
  | 0x21 => some (.cJoin src w)
  | 0x22 => some (.cFree src w)
  | _ => none

/-- The step that an event makes: its own row, and for a stream command the row of its CMDOP. A command of an unallocated
CMDOP is refused before it is sent (R115). What the Hearth does behind other events of its lock is part of the upkeep after a move
(R399). -/
def Event.instr : Event → Option Instr
  | .command src w => decodeCmd src w
  | .engineCommandStart _ => some .engineCommandStart
  | .copyChunkLand _ _ _ => some .copyChunkLand
  | .engineCommandComplete _ _ => some .engineCommandComplete
  | .engineCommandError _ _ _ => some .engineCommandError
  | .nodeSourceDeliver _ _ => some .nodeSourceDeliver
  | .nodeReadResponse _ _ _ => some .nodeReadResponse
  | .nodeSinkWrite _ _ => some .nodeSinkWrite
  | .nodeRequestElement _ _ => some .nodeRequestElement
  | .nodeStreamEnd _ _ => some .nodeStreamEnd
  | .carveRepartition _ => some .carveRepartition
  | .firingStart _ => some .firingStart
  | .firingOverrun _ => some .firingOverrun
  | .channelTokenArrival _ _ _ => some .channelTokenArrival
  | .commitMarkArrival _ _ _ => some .commitMarkArrival
  | .creditArrival _ _ _ => some .creditArrival
  | .eosConsume _ => some .eosConsume
  | .cellWake _ => some .cellWake
  | .borderTokenRefuse _ _ _ _ => some .borderTokenRefuse
  | .ctlStartPulse _ _ => some .ctlStartPulse
  | .ctlDonePulse _ _ _ => some .ctlDonePulse
  | .replyArrival _ _ => some .replyArrival
  | .ackArrival _ _ _ _ _ => some .ackArrival
  | .retryResend _ => some .retryResend
  | .homeReadWrite _ => some .homeReadWrite
  | .homeAtomic _ => some .homeAtomic
  | .homeDequeOp _ => some .homeDequeOp
  | .homeAcquireRequest _ => some .homeAcquireRequest
  | .homeRelease _ => some .homeRelease
  | .homeWaitaRequest _ => some .homeWaitaRequest
  | .waitaHostPoll _ => some .waitaHostPoll
  | .scratchpadPortAccess _ => some .scratchpadPortAccess
  | .presencePortRequest _ => some .presencePortRequest
  | .xbarArrival _ _ _ => some .xbarArrival
  | .barArrival _ _ _ => some .barArrival
  | .withdrawalArrival _ _ => some .withdrawalArrival
  | .purgeArrival _ _ => some .purgeArrival
  | .combineAtSwitch _ _ _ => some .combineAtSwitch
  | .combineWaitExpiry _ => some .combineWaitExpiry
  | .combinedReplySplit _ _ => some .combinedReplySplit
  | .urgentPacketEvict _ => some .urgentPacketEvict
  | .evictionResend _ => some .evictionResend
  | .packetPromotion _ => some .packetPromotion
  | .shareWindowRoll => some .shareWindowRoll
  | .pageWalkDone _ => some .pageWalkDone
  | .configWritten _ => some .configWritten
  | .armCheck _ => some .armCheck
  | .rectSinksDone _ => some .rectSinksDone
  | .completionSignalWrite _ => some .completionSignalWrite
  | .rectOverrun _ => some .rectOverrun
  | .cutRequest _ _ => some .cutRequest
  | .cutTokenArrival _ _ => some .cutTokenArrival
  | .stopAckArrival _ _ => some .stopAckArrival
  | .reelWrite _ => some .reelWrite
  | .faultEvent _ _ => some .faultEvent
  | .freezeArrival _ _ => some .freezeArrival
  | .drainLimitExpiry _ => some .drainLimitExpiry
  | .moveStart _ _ _ => some .moveStart
  | .autoRestore _ => some .autoRestore
  | .slateIssueTask _ _ => some .slateIssueTask
  | .rowHalfKstep _ => some .rowHalfKstep
  | .tileTaskEnd _ => some .tileTaskEnd
  | .tileTaskOverrun _ => some .tileTaskOverrun
  | .slatePreempt _ => some .slatePreempt
  | .hostCxlRead _ _ _ _ => some .hostCxlRead
  | .hostCxlWrite _ _ _ => some .hostCxlWrite
  | .hostAtomic _ _ _ _ _ _ => some .hostAtomic
  | .lqTailDoorbell _ _ _ => some .lqTailDoorbell
  | .lqHeadWrite _ _ _ => some .lqHeadWrite
  | .lqCtlWrite _ _ _ => some .lqCtlWrite
  | .launchRecordRead _ _ _ => some .launchRecordRead
  | .fqHeadDoorbell _ _ => some .fqHeadDoorbell
  | .fqCtlWrite _ _ => some .fqCtlWrite
  | .fqResumeWrite _ _ => some .fqResumeWrite
  | .fqInvcntWrite _ _ => some .fqInvcntWrite
  | .invalidationDone _ => some .invalidationDone
  | .cntWrite _ _ _ => some .cntWrite
  | .cntselWrite _ _ _ => some .cntselWrite
  | .writeRegionEntry _ => some .writeRegionEntry
  | .writeFormatWindow _ => some .writeFormatWindow
  | .resumeContext _ => some .resumeContext
  | .attestReport _ => some .attestReport
  | .keyCertificate _ => some .keyCertificate
  | .cinderReading _ => some .cinderReading
  | .cinderReadingPf => some .cinderReadingPf
  | .firmwareStage => some .firmwareStage
  | .leaseCreate _ => some .leaseCreate
  | .leaseDestroy _ => some .leaseDestroy
  | .grantRow _ => some .grantRow
  | .revokeRow _ => some .revokeRow
  | .preempt _ => some .preempt
  | .restore _ => some .restore
  | .leaseFree _ => some .leaseFree
  | .dump _ => some .dump
  | .leaseSchedWrite _ _ => some .leaseSchedWrite
  | .leasePtWrite _ _ => some .leasePtWrite
  | .devPwrWrite _ => some .devPwrWrite
  | .registerWrite _ _ _ => some .registerWrite
  | .mctpStatusQuery => some .mctpStatusQuery
  | .coldPowerUp => some .coldPowerUp
  | .warmReset => some .warmReset
  | .bringupStageComplete _ => some .bringupStageComplete
  | .bringupStageTimeout => some .bringupStageTimeout
  | .cinderSample => some .cinderSample
  | .powerPacingTick => some .powerPacingTick
  | .junctionTrip _ _ => some .junctionTrip
  | .coolantFlowLow => some .coolantFlowLow
  | .softErrorDetected _ _ => some .softErrorDetected
  | .linkRetransmission _ => some .linkRetransmission
  | .recordWrite _ | .unknownRequest _ | .unknownCommand _ => none

/-! ### Bytes -/

/-- A little-endian value of bytes (R6). -/
def leNat : List Byte → Nat
  | [] => 0
  | b :: bs => b.toNat + 256 * leNat bs

/-- The `n` little-endian bytes of a value (R6). -/
def leBytes : Nat → Nat → List Byte
  | 0, _ => []
  | n + 1, v => BitVec.ofNat 8 v :: leBytes n (v / 256)

/-- An instruction word from the first four bytes of a list (R91). -/
def wordOfBytes (bs : List Byte) : IWord := BitVec.ofNat 32 (leNat (bs.take 4))

/-- Decoding from bytes: the instruction and the bytes after it; `none` where fewer than four bytes are left. -/
def decodeBytes (bs : List Byte) : Option (Decoded × List Byte) :=
  if bs.length < 4 then none else some (decode (wordOfBytes bs), bs.drop 4)

/-- The decoder on a numbered word of the opcode table: a task instruction's word of 32 bits, or a stream command's word of
128 bits issued by context 0 of the cell at col 0, row 0 of rectangle slot 0. -/
def decodeTableWord (nbits w : Nat) : Option Instr :=
  if nbits = 32 then
    match decode (BitVec.ofNat 32 w) with
    | .ok i => some i
    | .error _ => none
  else if nbits = 128 then decodeCmd ⟨0, 0, 0, 0⟩ (BitVec.ofNat 128 w)
  else none

end Sys2Proof
end

