-- ==== Sys2Proof/Config.lean ====
section
/-! DEFINITION. What the part fixes once, and the free values: what the spec leaves to the part, to timing or to chance is
an opaque constant here, applied to a counter of the state, so that no proof can know its value. -/

namespace Sys2Proof

/-! ### Fixed figures -/

/-- Scratchpad bytes of a cell (R70). -/
abbrev Config.padBytes : Nat := 131072
/-- Bytes of one half of a scratchpad (R70). -/
abbrev Config.halfBytes : Nat := 65536
/-- Rectangle slots (R17). -/
abbrev Config.slots : Nat := 1024
/-- Commands that a port queue holds for a rectangle (R222). -/
abbrev Config.portQueue : Nat := 16
/-- Write tags of a context (R199, R307). -/
abbrev Config.writeTags : Nat := 64
/-- Unanswered atomic and deque requests of a context (R207). -/
abbrev Config.atomics : Nat := 16
/-- Unfinished instructions of a context, and entries of a replay queue (R86). -/
abbrev Config.unfinished : Nat := 16
/-- Permits of a streamer, memory node or row half for a slice of its own die, and of another (R353). -/
abbrev Config.enginePermits : Nat × Nat := (16, 4)
/-- Entries of the Hearth's event queue (R398). -/
abbrev Config.hearthQueue : Nat := 4096
/-- Unanswered remote-cell reads of a context (R353). -/
abbrev Config.remoteReads : Nat := 16
/-- Parked presence-bit requests of a port (R201). -/
abbrev Config.parked : Nat := 32
/-- Watches of a slice (R218). -/
abbrev Config.watches : Nat := 64
/-- Object entries of a slice's sync table (R216). -/
abbrev Config.syncObjects : Nat := 256
/-- Waiting-request entries of a slice's sync table (R216). -/
abbrev Config.syncWaiters : Nat := 1024
/-- Entries of a switch's wait buffer (R208). -/
abbrev Config.waitBuffer : Nat := 32
/-- Entries of a context's translation cache (R193). -/
abbrev Config.contextCache : Nat := 32
/-- Entries of an F-die's shared TLB (R383). -/
abbrev Config.sharedTlb : Nat := 16384
/-- Walks that an F-die's translation unit runs at once (R383). -/
abbrev Config.walks : Nat := 4096
/-- Tags of a memory node's window (R299). -/
abbrev Config.nodeTags : Nat := 256
/-- Records that the hub holds for a full fault queue (R386). -/
abbrev Config.heldRecords : Nat := 64
/-- Completed tile tasks whose state Slate keeps (R242). -/
abbrev Config.slateKeeps : Nat := 4096
/-- Unfinished tile tasks of a lease (R344). -/
abbrev Config.slateTasks : Nat := 1024
/-- Entries of a Slate ready list (R349). -/
abbrev Config.readyList : Nat := 16
/-- The most frames of lease memory on one die (R376). -/
abbrev Config.maxFrames : Nat := 91552
/-- Bytes of a frame (R376). -/
abbrev Config.frameBytes : Nat := 2097152
/-- Entries of a lease's placement cache (R332). -/
abbrev Config.placementCache : Nat := 64

/-! ### Free values: the order of events and of time -/

/-- Whether the access table of another device admits a request (R374, R392). -/
opaque Config.remoteAdmits : Nat → Bool
/-- Which of several possible moves happens next. -/
opaque Config.schedule : Nat → Nat
/-- Cycles that pass with a move. -/
opaque Config.extraCycles : Nat → Nat
/-- Cycles, of those that pass, in which a streamer moves a chunk (R340). -/
opaque Config.moving : Nat → Nat
/-- Whether the idle cell at a column and a row is clock-gated (R55). -/
opaque Config.gate : Nat → Nat → Nat → Bool
/-- The switch buffer that a packet waits in. -/
opaque Config.buffer : Nat → Nat
/-- The combining queue that a combinable request meets. -/
opaque Config.combiningQueue : Nat → Nat
/-- Whether a die copy of a line is taken or kept (R290). -/
opaque Config.dieCopy : Nat → Bool
/-- Whether a shared TLB or a context cache drops an entry of its own (R383). -/
opaque Config.dropEntry : Nat → Nat
/-- The order in which the members' partial sums of a crew reach the lead (R184). -/
opaque Config.memberOrder : Nat → Nat
/-- The K-step that a row half takes next outside REPRO (R244). -/
opaque Config.kstepOrder : Nat → Nat
/-- The order in which a row half adds the parts of a block outside REPRO (R282). -/
opaque Config.blockOrder : Nat → Nat → Nat
/-- Whether a row half skips an all-zero K-step outside REPRO (R244). -/
opaque Config.kstepSkip : Nat → Bool

/-! ### Free values: placement -/

/-- The area that Wyell picks among the free areas of a shape (R331). -/
opaque Config.area : Nat → Nat
/-- The cell that Wyell picks for an actor or a control node without a fixed position. It depends only on the image and
the shape class (R331), not on the moment. -/
opaque Config.place : List Byte → Nat → Nat
/-- The way of an edge inside its rectangle: cells that it goes by on its way (R331). It depends only on the image, the shape class
and the edge, as the placement does. -/
opaque Config.waypoints : List Byte → Nat → List (Nat × Nat)
/-- The border cell at which an edge to an engine leaves its rectangle (R331). -/
opaque Config.borderExit : Nat → Nat → Nat
/-- An engine lane outside a rectangle: the switches that it passes, and the seams that it crosses (R331). -/
opaque Config.lane : Nat → Nat → List Nat × Nat
/-- How far an engine of a class stands from a rectangle at a column and a row (R331). -/
opaque Config.engineDistance : Nat → Nat → Nat × Nat → Nat
/-- Which of several engines at one distance Wyell picks (R331). -/
opaque Config.engine : Nat → Nat → Nat
/-- Whether Wyell makes area by time slicing, where it may (R351). -/
opaque Config.slice : Nat → Bool

/-! ### Free values: the hub -/

/-- The set of a slice that a lease's line, of its memory or of its direct storage, stands in, taken modulo 1,024 (R1). -/
opaque Config.cacheSet : Nat → Bool → Nat → Nat
/-- Entries of a switch buffer beyond the three that every one has (R356). -/
opaque Config.bufferEntries : Nat → Nat
/-- The host port over which the physical function is reached (R361). -/
opaque Config.pfPort : Nat
/-- Whether a Splice port is absent (R361). -/
opaque Config.spliceAbsent : Nat → Bool
/-- The virtual functions that the adapter presents at a host port (R361, R378). -/
opaque Config.portVfs : Nat → Nat
/-- A rectangle that Wyell moves, and the column and row of its target (R360). -/
opaque Config.move : Nat → Option (Nat × Nat × Nat)

/-- The hub's random source at arming (R278). -/
opaque Config.random : Nat → BitVec 32
/-- Calibrated rail monitors of the module (R415). -/
opaque Config.rails : Nat
/-- The energy that a rail's monitor has measured over an interval, in microjoules (R415). -/
opaque Config.railEnergy : Nat → Nat → Nat
/-- The calibrated energy of one event of a row of R416 on a rail (R415). -/
opaque Config.unitEnergy : Nat → Nat → Nat
/-- The activity counts of an identifier in a row of R416 over an interval (R415). -/
opaque Config.activity : Nat → Nat → Nat → Nat
/-- The failures that a bring-up stage finds: die, block, test, unit and detail of each, and the time since the stage began (R400). -/
opaque Config.stageFailures : Nat → List (Nat × Nat × Nat × Nat × BitVec 64 × Nat)
/-- Whether the measured module power is above a CAP (first) or below it less 5 % (second) (R412). -/
opaque Config.power : Nat → Nat → Bool × Bool
/-- Whether a junction is at or above 100 degrees (R413). -/
opaque Config.hot : Nat → Bool
/-- An ECDSA signature of the module over a message, under a key number (R409, R418). -/
opaque Config.ecdsa : Nat → List Byte → List Byte
/-- The one-time signature of an attestation key's LMS leaf over a message (R408). -/
opaque Config.lmots : Nat → Nat → List Byte → List Byte
/-- The path of an attestation key's LMS leaf to its root (R408). -/
opaque Config.lmsPath : Nat → Nat → List Byte
/-- The vendor's boot keys: 0 for ECDSA, 97 bytes uncompressed, 1 for LMS, 56 bytes (R406, R409). -/
opaque Config.bootKey : Nat → List Byte
/-- The P-384 public point of an attestation key, by its number (R409). -/
opaque Config.p384Point : Nat → List Byte
/-- The identifier and root of an attestation key's LMS public key (R409). -/
opaque Config.lmsRoot : Nat → List Byte
/-- What stands between the fields of an attestation key's certificate, whose layout is open (R409). -/
opaque Config.certGap : Nat → Nat → List Byte
/-- The identity keys' signatures: ECDSA, the LMS leaf used, its one-time signature and its path (R408, R409). -/
opaque Config.identityEcdsa : List Byte → List Byte
/-- The leaf of the identity LMS key that signs an attestation key's certificate (R408). -/
opaque Config.identityLeaf : Nat → Nat
/-- The one-time signature of a leaf of the identity LMS key (R408). -/
opaque Config.identityOts : Nat → List Byte → List Byte
/-- The path of a leaf of the identity LMS key (R408). -/
opaque Config.identityPath : Nat → List Byte
/-- The module's serial identity, 16 bytes (R409). -/
opaque Config.devId : List Byte
/-- The firmware fitted at manufacture: for each bank and each KIND, the header and payload (R407). -/
opaque Config.fittedImage : Nat → Nat → List Byte
/-- The body of a reel section, whose layout is the device's own (R395). -/
opaque Config.reelBody : Nat → Nat → List Byte
/-- The line of the lease's reserved frames at which a reel is written, where it has room there (R395). -/
opaque Config.reelAddress : Nat → Nat
/-- Whether a restore finds an uncorrectable line in a reel, as the number of the line (R396). -/
opaque Config.reelDamage : Nat → Option Nat
/-- Words of a read whose value the spec leaves open. -/
opaque Config.openWord : Nat → BitVec 64
/-- Bytes whose value the spec leaves open. -/
opaque Config.openByte : Nat → Byte

end Sys2Proof
end

