-- ==== Sys2Proof/Machine/Digest.lean ====
section
/-! DEFINITION. The digests SHA-384 (R313) and SHA-256 (R405), as FIPS 180-4 defines them. -/

namespace Sys2Proof.Machine

/-- The initial hash value of SHA-384. -/
def shaInit : List (BitVec 64) :=
  [0xCBBB9D5DC1059ED8#64, 0x629A292A367CD507#64, 0x9159015A3070DD17#64, 0x152FECD8F70E5939#64,
   0x67332667FFC00B31#64, 0x8EB44A8768581511#64, 0xDB0C2E0D64F98FA7#64, 0x47B5481DBEFA4FA4#64]

/-- Round constants 0 to 9. -/
def shaRound0 : List (BitVec 64) :=
  [0x428A2F98D728AE22#64, 0x7137449123EF65CD#64, 0xB5C0FBCFEC4D3B2F#64, 0xE9B5DBA58189DBBC#64, 0x3956C25BF348B538#64,
   0x59F111F1B605D019#64, 0x923F82A4AF194F9B#64, 0xAB1C5ED5DA6D8118#64, 0xD807AA98A3030242#64, 0x12835B0145706FBE#64]
/-- Round constants 10 to 19. -/
def shaRound1 : List (BitVec 64) :=
  [0x243185BE4EE4B28C#64, 0x550C7DC3D5FFB4E2#64, 0x72BE5D74F27B896F#64, 0x80DEB1FE3B1696B1#64, 0x9BDC06A725C71235#64,
   0xC19BF174CF692694#64, 0xE49B69C19EF14AD2#64, 0xEFBE4786384F25E3#64, 0x0FC19DC68B8CD5B5#64, 0x240CA1CC77AC9C65#64]
/-- Round constants 20 to 29. -/
def shaRound2 : List (BitVec 64) :=
  [0x2DE92C6F592B0275#64, 0x4A7484AA6EA6E483#64, 0x5CB0A9DCBD41FBD4#64, 0x76F988DA831153B5#64, 0x983E5152EE66DFAB#64,
   0xA831C66D2DB43210#64, 0xB00327C898FB213F#64, 0xBF597FC7BEEF0EE4#64, 0xC6E00BF33DA88FC2#64, 0xD5A79147930AA725#64]
/-- Round constants 30 to 39. -/
def shaRound3 : List (BitVec 64) :=
  [0x06CA6351E003826F#64, 0x142929670A0E6E70#64, 0x27B70A8546D22FFC#64, 0x2E1B21385C26C926#64, 0x4D2C6DFC5AC42AED#64,
   0x53380D139D95B3DF#64, 0x650A73548BAF63DE#64, 0x766A0ABB3C77B2A8#64, 0x81C2C92E47EDAEE6#64, 0x92722C851482353B#64]
/-- Round constants 40 to 49. -/
def shaRound4 : List (BitVec 64) :=
  [0xA2BFE8A14CF10364#64, 0xA81A664BBC423001#64, 0xC24B8B70D0F89791#64, 0xC76C51A30654BE30#64, 0xD192E819D6EF5218#64,
   0xD69906245565A910#64, 0xF40E35855771202A#64, 0x106AA07032BBD1B8#64, 0x19A4C116B8D2D0C8#64, 0x1E376C085141AB53#64]
/-- Round constants 50 to 59. -/
def shaRound5 : List (BitVec 64) :=
  [0x2748774CDF8EEB99#64, 0x34B0BCB5E19B48A8#64, 0x391C0CB3C5C95A63#64, 0x4ED8AA4AE3418ACB#64, 0x5B9CCA4F7763E373#64,
   0x682E6FF3D6B2B8A3#64, 0x748F82EE5DEFB2FC#64, 0x78A5636F43172F60#64, 0x84C87814A1F0AB72#64, 0x8CC702081A6439EC#64]
/-- Round constants 60 to 69. -/
def shaRound6 : List (BitVec 64) :=
  [0x90BEFFFA23631E28#64, 0xA4506CEBDE82BDE9#64, 0xBEF9A3F7B2C67915#64, 0xC67178F2E372532B#64, 0xCA273ECEEA26619C#64,
   0xD186B8C721C0C207#64, 0xEADA7DD6CDE0EB1E#64, 0xF57D4F7FEE6ED178#64, 0x06F067AA72176FBA#64, 0x0A637DC5A2C898A6#64]
/-- Round constants 70 to 79. -/
def shaRound7 : List (BitVec 64) :=
  [0x113F9804BEF90DAE#64, 0x1B710B35131C471B#64, 0x28DB77F523047D84#64, 0x32CAAB7B40C72493#64, 0x3C9EBE0A15C9BEBC#64,
   0x431D67C49C100D4C#64, 0x4CC5D4BECB3E42B6#64, 0x597F299CFC657E2A#64, 0x5FCB6FAB3AD6FAEC#64, 0x6C44198C4A475817#64]

/-- The eighty round constants. -/
def shaRounds : List (BitVec 64) :=
  shaRound0 ++ shaRound1 ++ shaRound2 ++ shaRound3 ++
    shaRound4 ++ shaRound5 ++ shaRound6 ++ shaRound7

/-- The message schedule's small sigma functions. -/
def shaSmall {w : Nat} (r s k : Nat) (x : BitVec w) : BitVec w := x.rotateRight r ^^^ x.rotateRight s ^^^ (x >>> k)
/-- The compression's big sigma functions. -/
def shaBig {w : Nat} (r s t : Nat) (x : BitVec w) : BitVec w := x.rotateRight r ^^^ x.rotateRight s ^^^ x.rotateRight t

/-- The big-endian value of bytes. -/
def beNat (bs : List Byte) : Nat := bs.foldl (fun acc b => acc * 256 + b.toNat) 0

/-- The big-endian bytes of a value. -/
def beBytes : Nat → Nat → List Byte
  | 0, _ => []
  | n + 1, v => beBytes n (v / 256) ++ [BitVec.ofNat 8 v]

/-- The words of a block. -/
def shaWords (w : Nat) : Nat → List Byte → List (BitVec w)
  | 0, _ => []
  | n + 1, bs => BitVec.ofNat w (beNat (bs.take (w / 8))) :: shaWords w n (bs.drop (w / 8))

/-- One more word of the schedule, from the last sixteen, the latest first, under the two small sigma functions. -/
def shaNext {w : Nat} (f g : BitVec w → BitVec w) (ws : List (BitVec w)) : BitVec w :=
  f (ws.getD 1 0) + ws.getD 6 0 + g (ws.getD 14 0) + ws.getD 15 0

/-- The schedule extended by `n` words, the latest first. -/
def shaExtend {w : Nat} (f g : BitVec w → BitVec w) : Nat → List (BitVec w) → List (BitVec w)
  | 0, ws => ws
  | n + 1, ws => shaExtend f g n (shaNext f g ws :: ws)

/-- One round: the eight working variables under a constant and a schedule word, and the two big sigma functions. -/
def shaStep {w : Nat} (f g : BitVec w → BitVec w) (h : List (BitVec w)) (k x : BitVec w) : List (BitVec w) :=
  let a := h.getD 0 0
  let b := h.getD 1 0
  let c := h.getD 2 0
  let e := h.getD 4 0
  let t1 := h.getD 7 0 + f e + ((e &&& h.getD 5 0) ^^^ (~~~e &&& h.getD 6 0)) + k + x
  let t2 := g a + ((a &&& b) ^^^ (a &&& c) ^^^ (b &&& c))
  [t1 + t2, a, b, c, h.getD 3 0 + t1, e, h.getD 5 0, h.getD 6 0]

/-- The rounds of a block: its schedule, and the working variables added into the hash value. -/
def shaRun {w : Nat} (f g : BitVec w → BitVec w) (rounds h ws : List (BitVec w)) : List (BitVec w) :=
  List.zipWith (· + ·) h ((List.zip rounds ws).foldl (fun v p => shaStep f g v p.1 p.2) h)

/-- Blocks of `size` bytes compressed one after another. -/
def shaBlocks {w : Nat} (block : List (BitVec w) → List Byte → List (BitVec w)) (size : Nat) :
    Nat → List (BitVec w) → List Byte → List (BitVec w)
  | 0, h, _ => h
  | n + 1, h, bs => shaBlocks block size n (block h (bs.take size)) (bs.drop size)

/-- The padding of a message of `n` bytes in blocks of `size`, its length in `len` bytes. -/
def shaPad (size len n : Nat) : List Byte :=
  0x80#8 :: List.replicate ((2 * size - len - 1 - n % size) % size) 0#8 ++ beBytes len (8 * n)

/-- One block of SHA-384. -/
def sha384Block (h : List (BitVec 64)) (block : List Byte) : List (BitVec 64) :=
  shaRun (shaBig 14 18 41) (shaBig 28 34 39) shaRounds h
    (shaExtend (shaSmall 19 61 6) (shaSmall 1 8 7) 64 (shaWords 64 16 block).reverse).reverse

/-- The SHA-384 digest of bytes: 48 bytes. -/
def sha384 (bs : List Byte) : List Byte :=
  let m := bs ++ shaPad 128 16 bs.length
  ((shaBlocks sha384Block 128 (m.length / 128) shaInit m).take 6).flatMap fun w => beBytes 8 w.toNat

/-- The initial hash value of SHA-256. -/
def sha256Init : List (BitVec 32) :=
  [0x6A09E667#32, 0xBB67AE85#32, 0x3C6EF372#32, 0xA54FF53A#32, 0x510E527F#32, 0x9B05688C#32, 0x1F83D9AB#32, 0x5BE0CD19#32]

/-- The round constants of SHA-256: the upper halves of the first sixty-four above. -/
def sha256Rounds : List (BitVec 32) := (shaRounds.take 64).map fun k => k.extractLsb' 32 32

/-- One block of SHA-256. -/
def sha256Block (h : List (BitVec 32)) (block : List Byte) : List (BitVec 32) :=
  shaRun (shaBig 6 11 25) (shaBig 2 13 22) sha256Rounds h
    (shaExtend (shaSmall 17 19 10) (shaSmall 7 18 3) 48 (shaWords 32 16 block).reverse).reverse

/-- The SHA-256 digest of bytes: 32 bytes. -/
def sha256 (bs : List Byte) : List Byte :=
  let m := bs ++ shaPad 64 8 bs.length
  (shaBlocks sha256Block 64 (m.length / 64) sha256Init m).flatMap fun w => beBytes 4 w.toNat

end Sys2Proof.Machine
end

