-- ==== Sys2Proof/Machine/State.lean ====
section
/-! DEFINITION. The state of the KL7 as plain data: contexts, cells, channels, engines, homes, rectangles, leases and the
hub; the reasons a step can stop; the state after reset. -/

namespace Sys2Proof.Machine

/-- A finite table: pairs of a key and a value, the first pair of a key counting. -/
abbrev Tab (κ α : Type) := List (κ × α)

/-- Storage: address and byte, addresses strictly rising, no entry equal to what an unlisted address reads as. -/
abbrev Mem := List Host.Cell

/-! ### Contexts (R36, R57 to R90) -/

/-- LOOP0 or LOOP1 (R83). -/
structure LoopReg where
  /-- COUNT: iterations that remain, 0 for an inactive loop (R83). -/
  count : BitVec 32
  /-- END: the word address of the last instruction (R83). -/
  last : PC
  /-- START: the word address of the first instruction (R83). -/
  first : PC
deriving DecidableEq, Repr

/-- Where an instruction writes its result. -/
inductive Dest
  | none
  | sreg (r : SReg)
  | vreg (r : VReg)
deriving DecidableEq, Repr

/-- A replay-queue entry (R87). `id` joins the entry to replies still on their way, `left` counts them, `slices` are the
slices they come from and `lanes` holds the lanes that have come: the model's own fields. -/
structure RqEntry where
  /-- PC of the instruction (R87). -/
  pc : PC
  /-- FILE of the destination: scalar, vector or none (R87). -/
  file : BitVec 2
  /-- DEST register number (R87). -/
  dest : BitVec 6
  /-- STATUS (R87). -/
  status : BitVec 4
  /-- VA: operand A is captured (R87). -/
  va : Bool
  /-- VB: operand B is captured (R87). -/
  vb : Bool
  /-- INSTR, the instruction word (R87). -/
  instr : IWord
  /-- Captured operand A (RQWORD1) (R87). -/
  a : BitVec 64
  /-- Captured operand B (RQWORD2) (R87). -/
  b : BitVec 64
  /-- Lanes of a vector destination that came (R90). -/
  lanes : List (Nat × Lane)
  /-- Name that joins the entry to replies on their way (the model's own) (R90). -/
  id : Nat
  /-- Replies still to come (the model's own) (R90). -/
  left : Nat
  /-- Slices that still hold a permit of the entry (R353). -/
  slices : List Nat
  /-- LOOP0 and LOOP1 as a branch captured at a loop's END found them: the loop-back that its capture applied is undone if it is
  taken (R143) (the model's own). -/
  undo : Option (LoopReg × LoopReg)
  /-- The sequence number that the reply of its request carries back (R307). -/
  seq : Option (BitVec 16)
deriving DecidableEq, Repr

/-- An issued, unfinished instruction (R86): the parts of its reply still to come, what has come, the slices they come from
(R353), whether it holds its context (R202), whether it counts as an atomic (R207) or a remote-cell read (R353). -/
structure Pend where
  /-- Name of the unfinished instruction (the model's own) (R86). -/
  id : Nat
  /-- The instruction (R86). -/
  instr : Instr
  /-- Its PC (R86). -/
  pc : PC
  /-- Its destination register (R86). -/
  dest : Dest
  /-- Operand A would be captured (R87). -/
  va : Bool
  /-- Operand B would be captured (R87). -/
  vb : Bool
  /-- Operand A (R87). -/
  a : BitVec 64
  /-- Operand B (R87). -/
  b : BitVec 64
  /-- Reply parts still to come (R86). -/
  left : Nat
  /-- The value that came (R86). -/
  val : BitVec 64
  /-- The lanes that came (R86). -/
  lanes : List (Nat × Lane)
  /-- Slices whose permits it holds (R353). -/
  slices : List Nat
  /-- It holds its context (R202). -/
  hold : Bool
  /-- It counts against the 16 atomic and deque requests (R207). -/
  atomic : Bool
  /-- It counts against the 16 remote-cell reads (R353). -/
  remote : Bool
  /-- The sequence number that its reply carries back (R307). -/
  seq : Option (BitVec 16)
deriving DecidableEq, Repr

/-- Bytes that an access touches: of global storage, or of a scratchpad's addressed or back half. -/
inductive Place
  | mem (l : Loc) (bytes : Nat)
  | pad (c : CellId) (off bytes : Nat) (back : Bool)
deriving DecidableEq, Repr

/-- A write tag held by a context (R307): the acknowledgements still to come, the bytes written, whether every port has taken
them, whether they lie in the issuing cell's or crew's own scratchpads (R217), whether an STX wrote them (R205), the slices
still to answer, and the sequence number of a posted ST.op. -/
structure WriteTag where
  /-- The tag number (R307). -/
  tag : Nat
  /-- Acknowledgements still to come (R307). -/
  left : Nat
  /-- The bytes written (R199). -/
  places : List Place
  /-- Acknowledgements that came from ports and homes (R307). -/
  taken : Nat
  /-- The bytes lie in the scratchpads of the issuing cell or crew (R217). -/
  own : Bool
  /-- An STX wrote them (R205). -/
  stx : Bool
  /-- Slices whose permits it holds (R353). -/
  slices : List Nat
  /-- Sequence number of a posted ST.op (R207). -/
  seq : Option (BitVec 16)
deriving DecidableEq, Repr

/-- The target of a translation (R381). -/
inductive Leaf
  | dev (addr : Nat)
  | host (addr : Nat)
  | remote (node rlease addr : Nat)
deriving DecidableEq, Repr

/-- A translation held by a context cache or a shared TLB (R193, R383): the page's first virtual address and size. -/
structure TlbEntry where
  lease : Nat
  va : Nat
  bytes : Nat
  leaf : Leaf
  w : Bool
deriving DecidableEq, Repr

/-- The translations that a context's instruction waits for (R193): the 64 KiB page whose walk is under way, and the pages whose
walk found no mapping, because of a malformed entry or not (R382). -/
structure Walk where
  busy : Option Nat
  failed : List (Nat × Bool)
deriving DecidableEq, Repr

/-- No walk under way and none that failed. -/
def Walk.none : Walk := ⟨Option.none, []⟩

/-- A cut record (R90). -/
structure CutRecord where
  /-- The replay entries of the cut (R90). -/
  queue : List RqEntry
  /-- The word address at which fetch resumes (R90). -/
  resume : PC
  /-- The context was halted at the cut (R90). -/
  halted : Bool
deriving DecidableEq, Repr

/-- Who re-injects the entries of `Ctx.inject` (R88, R90, R257). -/
inductive InjectBy
  | eret
  | restore
  | rply
deriving DecidableEq, Repr

/-- Why a context with a firing in progress does not issue (R33). -/
inductive Hold
  /-- It may issue. -/
  | free
  /-- It waits at issue: nothing has changed since step `stamp`. -/
  | blocked (stamp : Nat)
  /-- It waits in IDLE for an event (R261). -/
  | idle
  /-- The event that its IDLE waited for has come (R261). -/
  | woken
  /-- It gave up the issue slot by YIELD: other firings in progress come first (R146). -/
  | yielded
deriving DecidableEq, Repr

/-- A task context (R36). `fenced` says that a FENCE.acq or FENCE.full at rect or a wider scope has completed, after which reads
are served at the home (R296). -/
structure Ctx where
  /-- Rectangle handle, CTXID.HANDLE (R81). -/
  handle : Nat
  /-- The owning lease (R15). -/
  lease : Nat
  /-- Node number of the actor (R316). -/
  node : Nat
  /-- Cells of the crew times 8: lanes of a vector register (CTXID.CREW) (R190). -/
  width : Nat
  /-- Deadline class, CTXID.CLASS (R36). -/
  cls : BitVec 2
  /-- The class is demoted to 0 by the overrun policy (R347). -/
  demoted : Bool
  /-- FIREBUD, the firing budget B (R80). -/
  budget : Nat
  /-- ENTRY, where a firing starts (R124). -/
  entry : PC
  /-- The code window: code words and command table (R125). -/
  window : List IWord
  /-- The code holds an XBAR.crew (R205). -/
  xbarCrew : Bool
  /-- The code holds an XBAR.rect (R205). -/
  xbarRect : Bool
  /-- The code holds a BAR.crew (R219). -/
  barCrew : Bool
  /-- The code holds a BAR.rect (R219). -/
  barRect : Bool
  /-- REPRO bit 0 (R284). -/
  repro : Bool
  /-- Program counter (R36). -/
  pc : PC
  /-- Scalar registers s0 to s47, q0 to q11, l0 to l3 by specifier (R57). -/
  sreg : Vector (BitVec 64) 64
  /-- Full/empty bits of the scalar specifiers, FEMAP (R62). -/
  sfe : BitVec 64
  /-- Vector registers v0 to v23, vq0 to vq5, vl0, vl1, lanes with side-bands (R57). -/
  vreg : Vector (List Lane) 32
  /-- Full/empty bits of the vector specifiers, VFEMAP (R62). -/
  vfe : BitVec 32
  /-- Masks m0 to m7 (R60). -/
  mreg : Vector (BitVec 128) 8
  /-- FSTAT: flags and RM (R82). -/
  fstat : BitVec 8
  /-- SRSEED, the state of the stochastic-rounding generator (R277). -/
  srseed : BitVec 32
  /-- CMDBASE[12:2] (R80). -/
  cmdbase : BitVec 11
  /-- LOOP0, the outer loop (R83). -/
  loop0 : LoopReg
  /-- LOOP1, the inner loop (R83). -/
  loop1 : LoopReg
  /-- TRAPBASE.EN (R80). -/
  trapEn : Bool
  /-- TRAPBASE[11:0] (R80). -/
  trapBase : PC
  /-- TRAPCAUSE.ACT: a handler runs (R84). -/
  act : Bool
  /-- TRAPCAUSE.SUB (R84). -/
  sub : BitVec 8
  /-- TRAPCAUSE.CAUSE (R84). -/
  cause : BitVec 8
  /-- TRAPPC (R80). -/
  trapPc : PC
  /-- TRAPADDR (R80). -/
  trapAddr : BitVec 64
  /-- The replay queue, RQCNT entries (R86). -/
  rq : List RqEntry
  /-- RQSEL (R80). -/
  rqsel : BitVec 4
  /-- L0 to l3 as the trap found them (R84). -/
  snapL : List (BitVec 64)
  /-- Vl0 and vl1 as the trap found them (R84). -/
  snapV : List (List Lane)
  /-- The cut record (R90). -/
  cut : Option CutRecord
  /-- Entries still to be re-injected (R88). -/
  inject : List RqEntry
  /-- The entry in re-injection (R88). -/
  injecting : Option RqEntry
  /-- Who re-injects: ERET, a restore or RPLY (R88). -/
  injectBy : InjectBy
  /-- Stopped by HALT or BKPT (R255). -/
  halted : Bool
  /-- Stopped by a trap without a handler (R84). -/
  stopped : Bool
  /-- A firing is in progress (R31). -/
  firing : Bool
  /-- FIRECNT (R32). -/
  fireCnt : Nat
  /-- The firing's OVERRUN has been raised (R347). -/
  overran : Bool
  /-- Why the context does not issue (R33). -/
  hold : Hold
  /-- The cycle in which the task became runnable (R34). -/
  runnableSince : Option Nat
  /-- The cycle in which it last started a firing (R34). -/
  lastStart : Option Nat
  /-- A source task's one firing is still to start (R30). -/
  sourceDue : Bool
  /-- Every output has its end-of-stream token (R215). -/
  ended : Bool
  /-- Outputs that still owe an end-of-stream token (R215). -/
  eosOwed : List Nat
  /-- Issued, unfinished instructions (R86). -/
  pend : List Pend
  /-- Write tags in use (R307). -/
  tags : List WriteTag
  /-- Sequence number of the last atomic or deque request (R207). -/
  seq : BitVec 16
  /-- Token registers with a command in flight (R69). -/
  tokens : List SReg
  /-- An acquiring FENCE of scope rect or wider has completed (R296). -/
  fenced : Bool
  /-- Translation cache (R193). -/
  tcache : List TlbEntry
  /-- The translation that the instruction at issue waits for (R193). -/
  walk : Walk
deriving DecidableEq, Repr

/-- A cell of a rectangle (R33, R37, R70, R201, R353). -/
structure Cell where
  /-- Scratchpad bytes (R70). -/
  pad : Mem
  /-- Words whose full/empty bit is empty (R71). -/
  empties : List Nat
  /-- SPCFG.XCH (R70). -/
  xch : Bool
  /-- SPCFG.FRONT (R70). -/
  front : Bool
  /-- Parked presence-bit requests, in order (R201). -/
  parked : List PresReq
  /-- The round-robin pointer (R34). -/
  rr : Nat
  /-- The context that holds the issue slot (R33). -/
  holder : Option Nat
  /-- Slices towards which a request permit is taken (R353). -/
  permits : List Nat
  /-- Clock-gated (R55). -/
  gated : Bool
  /-- The cycle in which the port took its last access from outside the cell, and where that access stands in the order of one
  cycle (R72). -/
  port : Nat × Nat
deriving DecidableEq, Repr

/-! ### Channels (R76 to R78, R320) -/

/-- A token in a channel buffer, and the class of the packet that brought it, which its credit takes (R354). -/
structure BufTok where
  tok : Tok
  committed : Bool
  cls : Nat
deriving DecidableEq, Repr

/-- An edge of a rectangle's graph with its two ends' counters (R77, R320). -/
structure Edge where
  /-- Producer node (R320). -/
  src : Nat
  /-- Producer output port (R320). -/
  srcPort : Nat
  /-- Consumer node (R320). -/
  dst : Nat
  /-- Consumer input port (R320). -/
  dstPort : Nat
  /-- KIND: 256-bit tokens rather than 32-bit ones (R320). -/
  vec : Bool
  /-- CAP in tokens (R320). -/
  cap : Nat
  /-- FMTP (R320). -/
  fmtP : Nat
  /-- FMTC (R320). -/
  fmtC : Nat
  /-- P_k of the producer port (R29). -/
  prate : Nat
  /-- C_j of the consumer port (R29). -/
  crate : Nat
  /-- Free slots that the producer holds credit for, CHOUT.COUNT (R77). -/
  free : Nat
  /-- Slots claimed by the producer's firing, CHOUT.CLAIM (R77). -/
  pclaim : Nat
  /-- Claimed slots written, CHOUT.USED (R77). -/
  pused : Nat
  /-- CHOUT.EOS (R78). -/
  eosOut : Bool
  /-- Tokens in the consumer's buffer, oldest first (R76). -/
  buf : List BufTok
  /-- Tokens claimed by the consumer's firing, CHIN.CLAIM (R77). -/
  cclaim : Nat
  /-- Claimed tokens read, CHIN.USED (R77). -/
  cused : Nat
deriving DecidableEq, Repr

/-! ### Engines (R222 to R247, R299, R359) -/

/-- A command in a port queue: the issued word, its issuer, and its progress (R222, R226). `sent` holds the chunks whose
writes are performed, `list` an index list or descriptor read at the start. -/
structure Cmd where
  /-- Name of the command (the model's own) (R222). -/
  id : Nat
  /-- The issuing context (R222). -/
  src : CtxId
  /-- The issuer's handle at issue (R18). -/
  handle : Nat
  /-- The issuer's lease (R222). -/
  lease : Nat
  /-- The issued command word (R111). -/
  word : CWord
  /-- It has left the head of its queue (R222). -/
  started : Bool
  /-- Chunks whose writes are performed, or result tokens sent (R224). -/
  sent : List Nat
  /-- Index list, descriptor or record read at the start (R226). -/
  list : List Nat
deriving DecidableEq, Repr

/-- A streamer node of a rectangle: the island it stands on and its command queue (R318). -/
structure Streamer where
  /-- The streamer island it stands on (R318). -/
  island : Nat
  /-- Its command queue (R222). -/
  queue : List Cmd
  /-- The fault register holds a fault (R394). -/
  faulted : Bool
deriving DecidableEq, Repr

/-- A tag of a memory node's window (R299): the element's number, its value once read, and the sequence number that the reply of an
update carries back (R307). -/
structure NodeTag where
  /-- The tag number (R299). -/
  tag : Nat
  /-- The element's number (R299). -/
  elem : Nat
  /-- The value once read (R299). -/
  val : Option (List Lane)
  /-- The sequence number that its reply carries back (R307). -/
  seq : Option (BitVec 16)
deriving DecidableEq, Repr

/-- A memory node's binding (R234): base, token count, issuer's command, tokens read and moved in this run, moved over all
runs, the run, the C.UNBIND that ends it, and whether this run is known to be the last. -/
structure Binding where
  /-- G (R234). -/
  base : Nat
  /-- TOKENS (R234). -/
  count : Nat
  /-- The C.BIND that made it (R234). -/
  cmd : Option Cmd
  /-- Tokens read in this run (R359). -/
  read : Nat
  /-- Tokens delivered or written in this run (R359). -/
  moved : Nat
  /-- Tokens moved over all runs (R234). -/
  total : Nat
  /-- The run's number (R317). -/
  run : Nat
  /-- The C.UNBIND that ends it (R235). -/
  unbind : Option Cmd
  /-- This run is known to be the last (R234). -/
  last : Bool
deriving DecidableEq, Repr

/-- A memory node of a rectangle (R234, R236, R240, R299, R316). `eosSeen` says that the end-of-stream token of this run has
arrived, `spent` that the stream of this run has ended, `faulted` that the node has latched a fault (R394). -/
structure MemNode where
  /-- Node number (R316). -/
  node : Nat
  /-- STREAMING, RANDOM or ORDERED-UPDATE (R317). -/
  kind : Nat
  /-- Streaming direction (R317). -/
  sink : Bool
  /-- ITSTRIDE (R317). -/
  stride : Nat
  /-- Fn of an ORDERED-UPDATE node (R317). -/
  fn : Nat
  /-- The context number that its requests carry (R207). -/
  context : Nat
  /-- R of C.STREAM (R236). -/
  rowLen : Nat
  /-- S of C.STREAM (R236). -/
  rowStride : Nat
  /-- The binding (R234). -/
  binding : Option Binding
  /-- The tag window (R299). -/
  tags : List NodeTag
  /-- The next tag (R299). -/
  nextTag : Nat
  /-- Sequence number of its last request (R300). -/
  seq : BitVec 16
  /-- The status word that C.FLUSH reads (R240). -/
  status : BitVec 2
  /-- Its command queue (R222). -/
  queue : List Cmd
  /-- The end-of-stream token of this run has arrived (R234). -/
  eosSeen : Bool
  /-- The stream of this run has ended (R234). -/
  spent : Bool
  /-- The fault register holds a fault (R394). -/
  faulted : Bool
  /-- Responses read before a cut are still to be delivered: the node reads nothing before they are (R336, R359). -/
  held : Bool
deriving DecidableEq, Repr

/-- The formats of an accumulator (R241). -/
inductive AccFmt
  | f32
  | f64
  | i32
deriving DecidableEq, Repr

/-- An accumulator slot of a row half: 256 elements (R246). -/
structure AccSlot where
  fmt : AccFmt
  elems : List (BitVec 64)
deriving DecidableEq, Repr

/-- What both accumulator slots of a row half hold before a command has put anything into them: FP32 zeros (R246) (DESIGN CHOICE). -/
def firstSlots : List (Option AccSlot) := List.replicate 2 (some ⟨.f32, List.replicate 256 0⟩)

/-- A tile-task record as read (R241). -/
structure TileRec where
  fa : Ty
  fb : Ty
  fc : Ty
  aAddr : Nat
  bAddr : Nat
  cAddr : Nat
  lda : Nat
  ldb : Nat
  ldc : Nat
  budget : Nat
  tid : Nat
  flags : Nat
  m : Nat
  n : Nat
  k : Nat
  preds : List Nat
  deadline : Nat
deriving DecidableEq, Repr

/-- Where a tile task stands (R242, R349, R350). -/
inductive TileWhere
  | waiting
  | pending
  | listed (row : Nat)
  | running (row : Nat)
deriving DecidableEq, Repr

/-- An unfinished tile task of a lease (R242 to R245, R311, R312, R350): its record, its issuer, its progress. -/
structure TileTask where
  /-- The record (R241). -/
  tile : TileRec
  /-- The C.TTASK (R242). -/
  cmd : Cmd
  /-- EARLY (R242). -/
  early : Bool
  /-- REPRO bit 0 of the issuing rectangle (R283). -/
  repro : Bool
  /-- Its place in the order of the admission unit, which follows DTIME (R343, R348). -/
  admitted : Nat
  /-- Waiting, pending, in a ready list or running (R349). -/
  place : TileWhere
  /-- Completed blocks, kept over a pre-emption (R245). -/
  blocks : Nat
  /-- The current block's accumulator, kept over a pre-emption (R245). -/
  acc : Option AccSlot
  /-- Completed K-steps of the current block (R245). -/
  done : List Nat
  /-- Sub-blocks of the current block still to be added, kept over a pre-emption (R245, R282). -/
  parts : List (List (List Lane) × List (List Lane))
  /-- The charged count (R312). -/
  charged : Nat
  /-- Its OVERRUN has fallen due (R312). -/
  spent : Bool
  /-- DEMOTED (R243). -/
  demoted : Bool
  /-- When it became ready (R348). -/
  since : Nat
deriving DecidableEq, Repr

/-- A matrix island row half (R42, R244 to R247): the lease that holds it, the matrix node bound to it, the command queue of
that node, the tile task it runs, its accumulator slots, ROWPROG (the blocks completed and the K-steps of the current one) and
the current block's accumulator. -/
structure RowHalf where
  /-- The lease that holds it (R42). -/
  lease : Nat
  /-- The matrix node bound to it (R42). -/
  bound : Option (Nat × Nat)
  /-- The command queue of that node (R222). -/
  queue : List Cmd
  /-- The tile task it runs, as a TID (R244). -/
  task : Option Nat
  /-- Accumulator slots 0 and 1 (R246). -/
  slots : List (Option AccSlot)
  /-- ROWPROG[31:16] (R245). -/
  blocks : Nat
  /-- K-steps completed of the current block, ROWPROG[15:0] their count (R245). -/
  ksteps : List Nat
  /-- The accumulator of the block in work (R244). -/
  work : Option AccSlot
  /-- Sub-blocks of the block in work that are still to be added, where their order is open (R282). -/
  parts : List (List (List Lane) × List (List Lane))
  /-- The fault register of the bound node holds a fault (R394). -/
  faulted : Bool
deriving DecidableEq, Repr

/-! ### Images (R314 to R326) -/

/-- Node kinds (R316). -/
inductive NodeKind
  | cell
  | crew
  | mem
  | mat
  | strm
  | ctl
deriving DecidableEq, Repr

/-- A node entry of an image (R316, R317). -/
structure NodeE where
  kind : NodeKind
  cls : Nat
  crew : Nat
  memKind : Nat
  sink : Bool
  pos : Option (Nat × Nat)
  ref : Nat
  leaf : Nat
  index : Nat
  stride : Nat
  fn : Nat
deriving DecidableEq, Repr

/-- An edge entry of an image (R320). -/
structure EdgeE where
  number : Nat
  src : Nat
  srcPort : Nat
  dst : Nat
  dstPort : Nat
  vec : Bool
  cutPoint : Bool
  cap : Nat
  fmtP : Nat
  fmtC : Nat
  prate : Nat
  crate : Nat
deriving DecidableEq, Repr

/-- A controller entry of an image (R323). -/
structure CtlE where
  mode : Nat
  children : List Child
  depth : Nat
  operand : Bool
  runs : Nat
  node : Nat
deriving DecidableEq, Repr

/-- A data record of a task part (R124). -/
structure DataRec where
  off : Nat
  bytes : Nat
  win : Bool
  body : List Byte
deriving DecidableEq, Repr

/-- A task part of an image (R124): `window` is its code window, code and command table. -/
structure TaskE where
  actor : Nat
  cls : Nat
  crew : Nat
  budget : Nat
  codew : Nat
  entry : Nat
  cmdw : Nat
  cmdn : Nat
  window : List IWord
  data : List DataRec
deriving DecidableEq, Repr

/-- A graph image as Wyell holds it (R313, R314). -/
structure Image where
  w : Nat
  h : Nat
  total : Nat
  nodes : List NodeE
  edges : List EdgeE
  ctls : List CtlE
  root : Option Nat
  tasks : List TaskE
  regions : List (Nat × Nat)
  xch : List (Nat × Nat × Nat × Nat)
  nleaf : Nat
  digest : List Byte
deriving DecidableEq, Repr

/-! ### Rectangles (R15 to R28, R43 to R50, R327, R341 to R347, R394 to R396) -/

/-- The rectangle states (R19). -/
inductive RectState
  | empty
  | loading
  | unarmed
  | armed
  | running
  | draining
  | saved
  | frozen
deriving DecidableEq, Repr

/-- An outcome of a rectangle (R46, R47, R373). -/
inductive Outc
  | done
  | faulted
  | killed
deriving DecidableEq, Repr

/-- The outcome that a join status word reports (R46). -/
structure ChildOut where
  outcome : Outc
  cause : Nat
  node : Nat
deriving DecidableEq, Repr

/-- A child record of a parent (R47). -/
structure ChildRec where
  handle : Nat
  out : Option ChildOut
  joined : Bool
deriving DecidableEq, Repr

/-- A binding entry of a launch (R248). -/
structure BindEntry where
  g : Nat
  tokens : Nat
  index : Nat
deriving DecidableEq, Repr

/-- The admitted item of a rectangle (R341, R342, R345, R346). -/
structure Item where
  /-- B (R341). -/
  budget : Nat
  /-- The deadline in DTIME (R341). -/
  deadline : Nat
  /-- The period of a retained rectangle's item, in cycles (R342). -/
  period : Nat
  /-- Matrix nodes of the image (R341). -/
  rows : Nat
  /-- Streamer nodes of the image (R341). -/
  strms : Nat
  /-- Cell cycles charged (R340). -/
  chargedCell : Nat
  /-- Row-half cycles charged (R340). -/
  chargedRow : Nat
  /-- Streamer cycles charged (R340). -/
  chargedStrm : Nat
  /-- DTIME of admission (R348). -/
  admittedAt : Nat
  /-- Its place in the order of the admission unit (R343, R348). -/
  admitted : Nat
  /-- It counts in the lease's utilisation (R342). -/
  counted : Bool
  /-- Demoted to class 0 by an overrun (R346). -/
  demoted : Bool
  /-- Its overrun policy is demote (R346). -/
  demotePolicy : Bool
deriving DecidableEq, Repr

/-- The iteration state of a controller (R27). -/
structure CtlState where
  active : Bool
  runs : Nat
  started : List Nat
  finished : List Nat
deriving DecidableEq, Repr

/-- The state of a leaf (R322, R234): runs since the rectangle's start, whether it is started, and whether its done pulse is on its
way. -/
structure LeafState where
  runs : Nat
  active : Bool
  pulsed : Bool
deriving DecidableEq, Repr

/-- The collector of a cut or a freeze (R26, R394): units, by node number, that still owe an acknowledgement. -/
structure Collector where
  /-- It collects a freeze rather than a cut (R394). -/
  freeze : Bool
  /-- Units that still owe an acknowledgement (R26). -/
  owed : List Nat
  /-- Units that a cut token or a freeze has reached (R327, R394). -/
  cutSent : List Nat
  /-- Nodes that have sent their cut tokens on (R327). -/
  passed : List Nat
  /-- Nodes whose acknowledgement is on its way (R25, R26). -/
  ackSent : List Nat
  /-- Cycle of the request (R394). -/
  started : Nat
  /-- Cycle of completion (R90). -/
  complete : Option Nat
  /-- Why the cut was requested (R20). -/
  why : CutWhy
  /-- The values of the lease's counter set at completion (R422). -/
  counts : List (BitVec 48)
deriving DecidableEq, Repr

/-- A reel (R395): its ORIGIN, its place in the lease's RESV frames and its length. The state it holds stays in the tables of the
slot, keyed as R336 keys it; `damage` is what a restore finds wrong with it, as an offset and a code (R396). -/
structure Reel where
  origin : Nat
  addr : Nat
  bytes : Nat
  damage : Option (Nat × Nat)
deriving DecidableEq, Repr

/-- A binding entry as read (R248). -/
structure RawBind where
  /-- The global address (R248). -/
  g : Nat
  /-- The token count (R248). -/
  tokens : Nat
  /-- The index of the memory node bound (R248). -/
  index : Nat
  /-- The field that must be zero (R248). -/
  zero : Nat
deriving DecidableEq, Repr

/-- A launch, from a record or a C.LAUNCH: the image's address, the shape it names, what the rectangle is, its item and its
bindings. -/
structure LaunchReq where
  /-- The lease that loads (R372). -/
  lease : Nat
  /-- The image's address (R372). -/
  va : Nat
  /-- WIDTH and HEIGHT of a launch record (R372). -/
  shape : Option (Nat × Nat)
  /-- The rectangle is retained (R22). -/
  retain : Bool
  /-- REPRO bit 0 (R284). -/
  repro : Bool
  /-- Cuts for time slicing are allowed (R351). -/
  preemptOk : Bool
  /-- The overrun policy is demote (R346). -/
  demote : Bool
  /-- The parent's slot of a C.LAUNCH (R43). -/
  parent : Option Nat
  /-- Launch depth (R45). -/
  depth : Nat
  /-- The deadline in DTIME (R341). -/
  deadline : Nat
  /-- B (R341). -/
  budget : Nat
  /-- ITER (R27). -/
  iter : Nat
  /-- SIGADDR (R50). -/
  sigAddr : Nat
  /-- SIGVAL (R50). -/
  sigVal : BitVec 64
  /-- STADDR (R373). -/
  stAddr : Nat
  /-- The bindings as they were read (R248). -/
  binds : List RawBind
deriving DecidableEq, Repr

/-- A load that waits: the event that brings it, the launch that it asks for, the copy of its image (R313), and, once it is admitted but
for its area, its item, which counts meanwhile, its cells, and whether it is retained (R343, R351). -/
structure LoadCopy where
  /-- The event that brings the load (R313). -/
  ev : Event
  /-- What the load asks for (R313). -/
  req : LaunchReq
  /-- The copy of its image (R313). -/
  bytes : List Byte
  /-- Its item, once it is admitted but for its area (R343). -/
  item : Option Item
  /-- Its cells (R342). -/
  cells : Nat
  /-- It is retained (R342). -/
  retain : Bool
deriving DecidableEq, Repr

/-- The way of an edge (R331): the switches that it passes, those of the rectangle's cells by column + 128 × row and those of the
engine lanes from 8192 on, and the seams that it crosses. -/
structure Route where
  edge : Nat
  switches : List Nat
  seams : Nat
deriving DecidableEq, Repr

/-- An engine bound to an engine node: its class, the node's INDEX, the engine's number (R331). -/
structure EnginePick where
  kind : NodeKind
  index : Nat
  engine : Nat
deriving DecidableEq, Repr

/-- How an image stands at an area: its placement, its engines, its routes, its drain bound (R331, R333). -/
structure Fit where
  places : List (Nat × CtxId)
  engines : List EnginePick
  routes : List Route
  drain : Nat
deriving DecidableEq, Repr

/-- A move under way: the target, and how the image will stand there (R23, R360). -/
structure MovePlan where
  col : Nat
  row : Nat
  fit : Fit
deriving DecidableEq, Repr

/-- A C.JOIN that waits (R46, R250). -/
structure JoinWait where
  cmd : Cmd
  child : Nat
deriving DecidableEq, Repr

/-- A participant that has arrived at a BAR or an XBAR (R205, R219): its context, its unfinished instruction, whether it is an
XBAR, and whether its scope is the rectangle. -/
structure Arrival where
  who : CtxId
  id : Nat
  xbar : Bool
  rect : Bool
  cls : Nat
deriving DecidableEq, Repr

/-- A rectangle in a slot. -/
structure Rect where
  /-- The owning lease (R16). -/
  lease : Nat
  /-- The state (R19). -/
  state : RectState
  /-- Anchor column (R5). -/
  col0 : Nat
  /-- Anchor row (R5). -/
  row0 : Nat
  /-- Wyell's copy of the image (R313). -/
  image : Image
  /-- The context of each actor and control node (R331). -/
  places : List (Nat × CtxId)
  /-- The rectangle is retained (R22). -/
  retain : Bool
  /-- REPRO bit 0 (R284). -/
  repro : Bool
  /-- Cuts for time slicing are allowed (R351). -/
  preemptOk : Bool
  /-- The parent's slot (R43). -/
  parent : Option Nat
  /-- Launch depth (R45). -/
  depth : Nat
  /-- SIGADDR (R50). -/
  sigAddr : Nat
  /-- SIGVAL (R50). -/
  sigVal : BitVec 64
  /-- STADDR (R373). -/
  stAddr : Nat
  /-- ITER (R27). -/
  iter : Nat
  /-- Binding entries applied at the start (R248). -/
  binds : List BindEntry
  /-- The admitted item (R341). -/
  item : Item
  /-- The routes of the edges (R331). -/
  routes : List Route
  /-- The whole-drain bound D in cycles (R333). -/
  drain : Nat
  /-- Controller states (R27). -/
  ctls : List CtlState
  /-- Leaf states (R322). -/
  leaves : List LeafState
  /-- Child records (R47). -/
  children : List ChildRec
  /-- C.JOIN commands that wait (R250). -/
  joins : List JoinWait
  /-- The budget count (R345). -/
  count : Nat
  /-- The OVERRUN of this run has been taken (R345). -/
  overran : Bool
  /-- The outcome that the freeze or kill has fixed (R46). -/
  outcome : Option ChildOut
  /-- The fault register of the first fault taken (R394). -/
  first : Option FaultInfo
  /-- Faults taken, DETAIL2 of the first record (R394). -/
  faults : Nat
  /-- The collector of a cut or a freeze (R26). -/
  collector : Option Collector
  /-- A cut taken while LOADING or UNARMED, held until arming (R21). -/
  cutDeferred : Option CutWhy
  /-- A start that reached an ARMED rectangle being armed (R20). -/
  startHeld : Option (List BindEntry)
  /-- The reel (R395). -/
  reel : Option Reel
  /-- The state to which a restore returns is RUNNING (R20). -/
  wasRunning : Bool
  /-- DTIME of the cut, for the counts that stand still (R358). -/
  stoppedAt : Nat
  /-- LOADING is that of a restore (R336). -/
  restoring : Bool
  /-- A move under way (R23, R360). -/
  move : Option MovePlan
  /-- Wyell restores it by itself (R351). -/
  sliced : Bool
  /-- Steps of the completion already done (R50). -/
  completing : Nat
  /-- Participants that have arrived at a BAR or an XBAR (R205). -/
  arrived : List Arrival
  /-- The values of the lease's counter set as the rectangle stopped (R422). -/
  stopCounts : List (BitVec 48)
  /-- The OVERRUN of this run has fallen due (R345). -/
  overdue : Bool
deriving DecidableEq, Repr

/-- A rectangle slot (R17): its generation, the purges still unanswered (R207), its rectangle. -/
structure Slot where
  /-- GEN (R17). -/
  gen : Nat
  /-- Homes that still owe the answer to a purge (R207). -/
  purges : List Nat
  /-- The rectangle (R17). -/
  rect : Option Rect
deriving DecidableEq, Repr

/-! ### Homes (R207, R208, R216, R218, R287) -/

/-- The last replies kept for a source at a home (R207). -/
structure Reply where
  home : Nat
  src : Src
  seq : BitVec 16
  val : Payload
deriving DecidableEq, Repr

/-- A hold of a sync object (R216). -/
structure SyncHold where
  lease : Nat
  loc : Loc
  src : Src
  shared : Bool
deriving DecidableEq, Repr

/-- A waiting request at a home: an ACQ or ACQS; a deque request, which waits for room or for the page of an item; a WAITA
watch. -/
inductive Waiter
  | sync (r : SyncReq)
  | deque (r : DqReq)
  | watch (r : WaitaReq)
deriving DecidableEq, Repr

/-- A line of the shared cache (R391): its place and whether it is dirty. Its side-band (R271) is what the scale region holds,
since a scale write refreshes it first (R272). -/
structure CacheLine where
  loc : Loc
  dirty : Bool
deriving DecidableEq, Repr

/-- A die copy of a line (R290): the bytes of its data as they stood at the home when it was fetched. -/
structure DieCopy where
  die : Nat
  loc : Loc
  bytes : List Byte
deriving DecidableEq, Repr

/-- An entry of a switch's wait buffer (R208): the switch, the first part's operand, whether that part has lost its effect with its
rectangle (R207), and the two parts. -/
structure WaitEntry where
  switch : Nat
  fn : AmoFn
  a1 : BitVec 64
  void : Bool
  first : AmoReq
  second : AmoReq
deriving DecidableEq, Repr

/-! ### Leases (R15, R297, R365 to R392, R419) -/

/-- A fault-queue record (R387, R388). -/
structure FaultRec where
  seq : Nat
  typ : Nat
  cause : Nat
  sub : Nat
  flags : Nat
  handle : Nat
  node : Nat
  cell : Nat
  addr : Nat
  dtime : Nat
  detail0 : Nat
  detail1 : Nat
  detail2 : Nat
deriving DecidableEq, Repr

/-- The fault queue of a virtual function (R386). -/
structure FaultQueue where
  /-- FQ_BASE (R386). -/
  base : BitVec 64
  /-- FQ_CTL.EN (R386). -/
  en : Bool
  /-- FQ_CTL.SIZEL (R386). -/
  sizel : Nat
  /-- FQ_TAIL (R386). -/
  tail : Nat
  /-- The head doorbell (R386). -/
  head : Nat
  /-- FQ_STATUS.LOST (R386). -/
  lost : Nat
  /-- Records held in the hub, FQ_STATUS.HELD their number (R386). -/
  held : List FaultRec
  /-- FQ_STATUS.WRERR (R386). -/
  wrerr : Bool
  /-- FQ_STATUS.HDERR (R386). -/
  hderr : Bool
  /-- FQ_INVVA (R386). -/
  invVa : BitVec 64
  /-- The invalidation under way, FQ_STATUS.INVBUSY (R385). -/
  inval : Option (Nat × Nat)
deriving DecidableEq, Repr

/-- A page-service record that accesses wait on (R389). -/
structure PageSvc where
  seq : Nat
  entry : Nat
  posted : Bool
  waiters : List Event
  record : FaultRec
deriving DecidableEq, Repr

/-- A launch queue (R368): `door` is what LQ_TAIL reads back, `reading` says that the read of a record waits for a page. -/
structure LaunchQueue where
  /-- LQ_BASE (R368). -/
  base : BitVec 64
  /-- LQ_CTL.POL (R368). -/
  pol : Bool
  /-- LQ_CTL.EN (R368). -/
  en : Bool
  /-- LQ_CTL.SIZEL (R368). -/
  sizel : Nat
  /-- LQ_HEAD (R368). -/
  head : BitVec 32
  /-- The queue's tail (R369). -/
  tail : BitVec 32
  /-- LQ_TAIL as it reads back (R368). -/
  door : BitVec 32
  /-- LQ_STATUS.STATE (R368). -/
  state : Nat
  /-- LQ_STATUS.CODE (R368). -/
  code : Nat
  /-- LQ_STATUS.ESEQ (R368). -/
  eseq : BitVec 32
  /-- The read of a record waits for a page (R369). -/
  reading : Bool
deriving DecidableEq, Repr

/-- A counter and its configuration (R259, R419): the rectangle a RECT configuration is bound to. -/
structure Counter where
  /-- CNT (R419). -/
  value : BitVec 48
  /-- CNTSEL (R259). -/
  cfg : BitVec 64
  /-- The rectangle of a RECT configuration (R259). -/
  rect : Option Nat
deriving DecidableEq, Repr

/-- A region-table entry (R297): base and limit in bytes, the sync object, V. -/
structure Region where
  /-- BASE (R297). -/
  base : Nat
  /-- LIMIT (R297). -/
  limit : Nat
  /-- SYNC (R297). -/
  sync : Nat
  /-- V (R297). -/
  valid : Bool
deriving DecidableEq, Repr

/-- A format window (R269). -/
structure Window where
  /-- FWIN_CTL (R269). -/
  ctl : BitVec 64
  /-- FWIN_BASE (R269). -/
  base : BitVec 64
  /-- FWIN_LIMIT (R269). -/
  limit : BitVec 64
  /-- FWIN_SCALE (R269). -/
  scale : BitVec 64
deriving DecidableEq, Repr

/-- An address range that a debugger's watch covers (R194): global addresses or, with `pad`, scratchpad base words, and whether
reads or writes hit it. -/
structure Watch where
  pad : Bool
  first : Nat
  bytes : Nat
  read : Bool
  write : Bool
deriving DecidableEq, Repr

/-- A status word that the hub has still to write (R373): its address, its value and the rectangle it names. -/
structure StWrite where
  addr : Nat
  val : BitVec 64
  handle : Nat
deriving DecidableEq, Repr

/-- The life of a lease (R376). -/
inductive LeaseState
  | none
  | live
  | ending
deriving DecidableEq, Repr

/-- A lease's registers, virtual function and hub state. -/
structure Lease where
  /-- LEASE_CMD.STATE (R376). -/
  state : LeaseState
  /-- LEASE_SCHED (R371). -/
  sched : BitVec 64
  /-- LEASE_MEM (R376). -/
  memReg : BitVec 64
  /-- LEASE_HASH (R376). -/
  hash : BitVec 64
  /-- LEASE_PT (R376). -/
  pt : BitVec 64
  /-- LEASE_CARVE (R376). -/
  carveReg : BitVec 64
  /-- LEASE_HOST (R376). -/
  host : BitVec 64
  /-- LEASE_ARG (R377). -/
  arg : BitVec 64
  /-- LEASE_CMD.OP (R376). -/
  cmdOp : BitVec 8
  /-- LEASE_CMD.RESULT (R376). -/
  cmdResult : BitVec 8
  /-- LEASE_CMD.GO (R376). -/
  cmdGo : Bool
  /-- VF_CTL[1:0] (R366). -/
  vfCtl : BitVec 2
  /-- The virtual function's mailbox (R367). -/
  mailbox : Vector (BitVec 64) 8
  /-- The launch queues (R368). -/
  lqs : Vector LaunchQueue 4
  /-- The queue whose record is read next (R369). -/
  lqTurn : Nat
  /-- The fault queue (R386). -/
  fq : FaultQueue
  /-- Page services that accesses wait on (R389). -/
  svcs : List PageSvc
  /-- The counter set (R419). -/
  counters : Vector Counter 8
  /-- CNT_OVF (R419). -/
  cntOvf : BitVec 8
  /-- ERRCNT.UE (R424). -/
  errUe : Nat
  /-- ERRCNT.CE (R424). -/
  errCe : Nat
  /-- ERRCNT.BORDER (R424). -/
  errBorder : Nat
  /-- ERRCNT.STRAYREL (R424). -/
  errStray : Nat
  /-- The region table (R297). -/
  regions : Tab Nat Region
  /-- The lease's format windows (R269). -/
  windows : Tab Nat Window
  /-- CARVE's current grant (R260). -/
  grant : Nat
  /-- The direct storage that is available, in MiB: the grant, less what a repartition under way has not yet added (R260). -/
  granted : Nat
  /-- Unfinished tile tasks (R344). -/
  tasks : List TileTask
  /-- Slate's ready lists by row half (R349). -/
  lists : Tab Nat (List Nat)
  /-- TIDs that have ended, with their outcomes (R242). -/
  ended : List (Nat × Nat)
  /-- The placement cache (R332). -/
  placed : List (List Byte × Nat × Nat × Nat × Nat)
  /-- Cycles charged in this share window, by class (R348). -/
  charge : List Nat
  /-- Interrupts raised on each of the four MSI-X vectors (R365). -/
  vectors : List Nat
  /-- Status words that wait for a page (R373). -/
  stWrites : List StWrite
  /-- Loads that wait with their images read: for a page, or for the rectangles that time slicing cuts (R313, R351). -/
  loads : List LoadCopy
  /-- Addresses that a debugger watches, set through the hub firmware (R194). -/
  watches : List Watch
deriving DecidableEq, Repr

/-- A Cinder meter (R414): whether it is stopped, whether a warm reset followed its CREATE, and its remainder in
microjoules. -/
structure Meter where
  /-- MJ (R414). -/
  mj : Nat
  /-- EPOCH (R414). -/
  epoch : Nat
  /-- CDTIME (R414). -/
  cdtime : Nat
  /-- SDTIME (R414). -/
  sdtime : Nat
  /-- The meter is stopped, FINAL of a reading (R414). -/
  stopped : Bool
  /-- A warm reset has occurred since CDTIME, WARM of a reading (R418). -/
  warm : Bool
  /-- Energy below one millijoule, in microjoules (R415). -/
  rest : Nat
  /-- Leased area times cycles since the rail monitors were read (R416). -/
  area : Nat
  /-- Energy of its shares since its last sample, in microjoules: the monitors are read at the final samples of other meters too (R415). -/
  owed : Nat
  /-- The rows of R416 in which it has been active since the monitors were read (R416). -/
  busy : List Nat
deriving DecidableEq, Repr

/-! ### The hub (R398 to R413, R423) -/

/-- What a stored firmware image is to the boot checks (R405 to R407): its KIND, version, digest, flags, and whether it
verifies but for the fused version. -/
structure Firmware where
  kind : Nat
  svn : Nat
  digest : List Byte
  advance : Bool
  good : Bool
deriving DecidableEq, Repr

/-- The device registers and the hub's own state. -/
structure Device where
  /-- DEV_STATUS.STAGE (R402). -/
  stage : Nat
  /-- DEV_STATUS.READY (R402). -/
  ready : Bool
  /-- DEV_STATUS.EMBER (R402). -/
  ember : Bool
  /-- DEV_STATUS.TRIP (R402). -/
  trip : Bool
  /-- DEV_STATUS.BANK (R402). -/
  bank : Nat
  /-- DEV_STATUS.NFAIL (R402). -/
  nfail : Nat
  /-- DEV_STATUS.SVN (R402). -/
  svn : Nat
  /-- DEV_FAIL (R402). -/
  fail : Option DevFail
  /-- DEV_PWR.CAP (R411). -/
  cap : Nat
  /-- The pacing level P, DEV_STATUS.PACE (R412). -/
  pace : Nat
  /-- DEV_ERR.CE (R423). -/
  ce : Nat
  /-- DEV_ERR.UE (R423). -/
  ue : Nat
  /-- The physical function's mailbox (R403). -/
  mailbox : Vector (BitVec 64) 8
  /-- Interrupts raised on the physical function's vector 0 (R403). -/
  vector0 : Nat
  /-- Flash banks that an update was staged into (R407). -/
  banks : Tab Nat (List Firmware)
  /-- The bank marked active (R407). -/
  active : Nat
  /-- The fused security version of each KIND (R406). -/
  fused : List Nat
  /-- PDIGEST of each running image (R406). -/
  measured : List (List Byte)
  /-- The images that have been booted, by which the fuses advance (R407). -/
  running : List Firmware
  /-- The fused SHA-384 digests of the vendor's ECDSA and LMS boot keys (R406). -/
  keyDigests : List (List Byte)
  /-- KEYSER of the current attestation key (R408). -/
  keyser : Nat
  /-- The next LMS leaf index (R408). -/
  leaf : Nat
  /-- Cycle of the last pacing step (R412). -/
  lastPace : Nat
deriving DecidableEq, Repr

/-! ### The whole machine -/

/-- A packet or event on its way: the cycle before which it is not delivered, its class (R354), the switch buffer it waits
in, when it was sent, and the step that delivers it. -/
structure Flight where
  due : Nat
  cls : Nat
  buf : Nat
  since : Nat
  ev : Event
deriving DecidableEq, Repr

/-- A move that has been granted and comes next: the model's own field. -/
inductive Move
  | event (ev : Event)
  | issue (c : CtxId)
deriving DecidableEq, Repr

/-- Time and the model's own counters: `cycles` of the arithmetic clock since cold power-up (R8, R9), `tick` for free values,
`stamp` of the last step that changed anything, `nextId` for names of requests. -/
structure Clock where
  /-- Cycles of the arithmetic clock since cold power-up, DTIME its quarter (R9). -/
  cycles : Nat
  /-- Counter of free values (the model's own) (R13). -/
  tick : Nat
  /-- Number of the last step that changed anything (the model's own) (R33). -/
  stamp : Nat
  /-- Next name of a request (the model's own) (R222). -/
  nextId : Nat
  /-- Cycle of the last energy sample (R415). -/
  lastSample : Nat
  /-- First cycle of the current share window (R348). -/
  window : Nat
  /-- Cycle in which the bring-up stage began (R400). -/
  stageStart : Nat
  /-- Cycle at which the rail monitors were read last (R415). -/
  measured : Nat
deriving DecidableEq, Repr

/-- What is on its way, what comes next, and the event that the step at hand delivers. -/
structure Net where
  /-- Packets and events on their way (R354). -/
  agenda : List Flight
  /-- The move that comes next (the model's own) (R33). -/
  turn : Option Move
  /-- What the outside world does next, in order (R361). -/
  inputs : List Event
  /-- The event that the step at hand delivers (the model's own) (R21). -/
  hand : Option Event
  /-- The class of the packet that carries it (the model's own) (R354). -/
  cls : Nat
  /-- Wait buffers of the switches (R208). -/
  waits : Tab Nat WaitEntry
  /-- Sequence number of the last request that each switch forwarded for two others (R207, R208). -/
  forwarded : Tab Nat (BitVec 16)
deriving DecidableEq, Repr

/-- Caches, translations and the states of homes. `lines` stands in order of use, the latest first (R391). -/
structure Homes where
  /-- Lines of the shared cache with their dirty bits, in order of use (R391). -/
  lines : List CacheLine
  /-- Die copies of lines (R290). -/
  copies : List DieCopy
  /-- Shared TLBs by F-die (R383). -/
  tlbs : Tab Nat (List TlbEntry)
  /-- Reply caches of the homes (R207). -/
  replies : List Reply
  /-- Holds of sync objects (R216). -/
  holds : List SyncHold
  /-- Requests that wait at homes: acquires, deque requests and watches (R216). -/
  waiters : List Waiter
  /-- Lines of 128 bytes whose data holds an uncorrectable error (R193, R423). -/
  bad : List Loc
deriving DecidableEq, Repr

/-- What the host has been answered: identifier and bytes of each answered read or atomic, oldest first. -/
structure HostSide where
  /-- What the host has been answered (R363). -/
  answers : List (Nat × List Byte)
deriving DecidableEq, Repr

/-- The machine. -/
structure State where
  clock : Clock
  net : Net
  cur : CtxId
  mem : Mem
  homes : Homes
  ctxs : Tab CtxId Ctx
  cells : Tab CellId Cell
  edges : Tab (Nat × Nat) Edge
  nodes : Tab (Nat × Nat) MemNode
  strms : Tab (Nat × Nat) Streamer
  rows : Tab Nat RowHalf
  rects : Tab Nat Slot
  leases : Tab Nat Lease
  meters : Tab Nat Meter
  dev : Device
  host : HostSide
deriving DecidableEq, Repr

/-- Why the machine stops with a fault. No rule of the spec names one of these: each is a step that no run of the part takes,
given to a meaning by a caller that names what is not there. Stopping there is safe. -/
inductive Fault
  /-- Raised by a task instruction when `cur` names no context: no cell issues from a context that does not exist. Safe. -/
  | noContext
  /-- Raised by an event that names a rectangle, cell, edge, engine or lease that does not exist. Safe. -/
  | noUnit
  /-- Raised by an event that its unit cannot cause in this state: the event is not due. Safe. -/
  | notDue
deriving DecidableEq, Repr

/-- Why the machine gives no meaning. -/
inductive Refusal
  /-- Raised by an arm of the dispatcher for an instruction whose meaning is not written. Safe. -/
  | notModelled (mnemonic : String)
deriving DecidableEq, Repr

/-! ### Reset -/

/-- A launch queue after reset (R368). -/
def LaunchQueue.reset : LaunchQueue := ⟨0, false, false, 0, 0, 0, 0, 0, 0, 0, false⟩
/-- A fault queue after reset (R386). -/
def FaultQueue.reset : FaultQueue := ⟨0, false, 0, 0, 0, 0, [], false, false, 0, none⟩
/-- A counter after reset (R419). -/
def Counter.reset : Counter := ⟨0, 0, none⟩
/-- A lease's block after reset (R376). -/
def Lease.reset : Lease :=
  { state := .none, sched := 0, memReg := 0, hash := 0, pt := 0, carveReg := 0, host := 0, arg := 0, cmdOp := 0,
    cmdResult := 0, cmdGo := false, vfCtl := 0, mailbox := Vector.replicate 8 0, lqs := Vector.replicate 4 LaunchQueue.reset,
    lqTurn := 0, fq := FaultQueue.reset, svcs := [], counters := Vector.replicate 8 Counter.reset, cntOvf := 0, errUe := 0,
    errCe := 0, errBorder := 0, errStray := 0, regions := [], windows := [], grant := 0, granted := 0, tasks := [],
    lists := [], ended := [], placed := [], charge := [0, 0, 0], vectors := [0, 0, 0, 0],
    stWrites := [], loads := [], watches := [] }
/-- A Cinder meter at cold power-up (R414). -/
def Meter.reset : Meter := ⟨0, 0, 0, 0, true, false, 0, 0, 0, []⟩
/-- The hub at cold power-up: stage 0 of bring-up is the first work (R400), DEV_PWR.CAP is 3,400 (R411). -/
def Device.reset : Device :=
  { stage := 0, ready := false, ember := false, trip := false, bank := 0, nfail := 0,
    svn := 0, fail := none, cap := 3400, pace := 0, ce := 0, ue := 0, mailbox := Vector.replicate 8 0, vector0 := 0,
    banks := [], active := 0, fused := [0, 0, 0], measured := [[], [], []], running := [],
    keyDigests := [sha384 (Config.bootKey 0), sha384 (Config.bootKey 1)], keyser := 0, leaf := 0, lastPace := 0 }

/-- The machine right after cold power-up: DTIME 0 (R9), every register at the value the spec gives, no lease, no
rectangle, memory with nothing listed, bring-up at stage 0 (R400). -/
def State.reset : State :=
  { clock := ⟨0, 0, 0, 1, 0, 0, 0, 0⟩, net := ⟨[], none, [], none, 2, [], []⟩, cur := ⟨0, 0, 0, 0⟩, mem := [],
    homes := ⟨[], [], [], [], [], [], []⟩, ctxs := [], cells := [], edges := [], nodes := [], strms := [], rows := [],
    rects := [], leases := [], meters := [], dev := Device.reset, host := ⟨[]⟩ }

end Sys2Proof.Machine
end

