-- ==== Sys2Proof/Machine/Ops.lean ====
section
/-! DEFINITION. The named operations over tables, memory, registers, channels' ends and what is on its way; taking a trap and
the return from one; counting events. -/

namespace Sys2Proof

/-! ### Places -/

/-- The key of one byte of global storage: every place of R287 outside the scratchpads has its own. -/
def Loc.key : Loc → Nat
  | .dev lease a => 4 * (a * 256 + lease % 256)
  | .carve lease off => 4 * (off * 256 + lease % 256) + 1
  | .host a => 4 * a + 2
  | .remote node rl a => 4 * ((a * 1048576 + node % 1048576) * 256 + rl % 256) + 3

/-- The place some bytes further. -/
def Loc.add : Loc → Nat → Loc
  | .dev l a, n => .dev l (a + n)
  | .carve l a, n => .carve l (a + n)
  | .host a, n => .host (a + n)
  | .remote d l a, n => .remote d l (a + n)

/-- The place rounded down to a multiple of `n`. -/
def Loc.align : Loc → Nat → Loc
  | .dev l a, n => .dev l (a - a % n)
  | .carve l a, n => .carve l (a - a % n)
  | .host a, n => .host (a - a % n)
  | .remote d l a, n => .remote d l (a - a % n)

/-- The address within its space. -/
def Loc.addr : Loc → Nat
  | .dev _ a | .carve _ a | .host a | .remote _ _ a => a

/-- A place in host memory. -/
def Loc.isHost : Loc → Bool
  | .host _ => true
  | .dev _ _ | .carve _ _ | .remote _ _ _ => false

end Sys2Proof

namespace Sys2Proof.Machine

/-! ### Tables -/

/-- The value of a key. -/
def Tab.get? {κ α : Type} [DecidableEq κ] : Tab κ α → κ → Option α
  | [], _ => none
  | (k, v) :: t, x => if k = x then some v else Tab.get? t x

/-- The table with a key's value replaced, or the key added at the end. -/
def Tab.put {κ α : Type} [DecidableEq κ] : Tab κ α → κ → α → Tab κ α
  | [], x, v => [(x, v)]
  | (k, w) :: t, x, v => if k = x then (k, v) :: t else (k, w) :: Tab.put t x v

/-- The table without a key. -/
def Tab.drop {κ α : Type} [DecidableEq κ] (t : Tab κ α) (x : κ) : Tab κ α := t.filter fun p => p.1 ≠ x

/-! ### Memory -/

/-- The byte at an address; an unlisted address reads zero (R71, R260, R378). -/
def Mem.read : Mem → Nat → Byte
  | [], _ => 0#8
  | (a, b) :: m, x => if a = x then b else Mem.read m x

/-- Memory with one byte written, in canonical form. -/
def Mem.write : Mem → Nat → Byte → Mem
  | [], x, v => if v = 0#8 then [] else [(x, v)]
  | (a, b) :: m, x, v =>
    if x < a then (if v = 0#8 then (a, b) :: m else (x, v) :: (a, b) :: m)
    else if x = a then (if v = 0#8 then m else (x, v) :: m)
    else (a, b) :: Mem.write m x v

/-- Every listed address lies above a bound, they rise, and no byte is zero. -/
def Mem.wfFrom : Nat → Mem → Bool
  | _, [] => true
  | lo, (a, b) :: m => decide (lo ≤ a) && decide (b ≠ 0#8) && Mem.wfFrom (a + 1) m

/-- The canonical form of memory. -/
def Mem.wf (m : Mem) : Bool := Mem.wfFrom 0 m

/-- Memory with a list of bytes written at the keys that `k` gives their offsets. -/
def Mem.writeAt (k : Nat → Nat) : Mem → Nat → List Byte → Mem
  | m, _, [] => m
  | m, i, b :: bs => Mem.writeAt k (m.write (k i) b) (i + 1) bs

/-- The `n` bytes at the keys that `k` gives the offsets from `i`. -/
def Mem.readAt (m : Mem) (k : Nat → Nat) : Nat → Nat → List Byte
  | _, 0 => []
  | i, n + 1 => m.read (k i) :: Mem.readAt m k (i + 1) n

/-- The bytes of global storage from a place on (R6). -/
def State.load (s : State) (l : Loc) (n : Nat) : List Byte := s.mem.readAt (fun i => Loc.key (l.add i)) 0 n

/-- Global storage with bytes written from a place on. -/
def State.store (s : State) (l : Loc) (bs : List Byte) : State :=
  { s with mem := s.mem.writeAt (fun i => Loc.key (l.add i)) 0 bs }

/-- The little-endian value of bytes of global storage. -/
def State.loadNat (s : State) (l : Loc) (n : Nat) : Nat := leNat (s.load l n)

/-- The die copies of a lease dropped on a die (R292). -/
def State.dropCopies (s : State) (lease die : Nat) (p : Loc → Bool) : State :=
  { s with homes := { s.homes with copies := s.homes.copies.filter fun k =>
      !(k.die == die && p k.loc && (match k.loc with
        | .dev l _ | .carve l _ => l == lease
        | .host _ | .remote _ _ _ => false)) } }

/-! ### Contexts, cells and the other tables -/

/-- The context of a name. -/
def State.ctx? (s : State) (c : CtxId) : Option Ctx := Tab.get? s.ctxs c
/-- The state with a context replaced. -/
def State.setCtx (s : State) (c : CtxId) (x : Ctx) : State := { s with ctxs := Tab.put s.ctxs c x }
/-- The state with a context changed, if it exists. -/
def State.modCtx (s : State) (c : CtxId) (f : Ctx → Ctx) : State :=
  match s.ctx? c with
  | some x => s.setCtx c (f x)
  | none => s
/-- The cell of a name. -/
def State.cell? (s : State) (k : CellId) : Option Cell := Tab.get? s.cells k
/-- The state with a cell replaced. -/
def State.setCell (s : State) (k : CellId) (x : Cell) : State := { s with cells := Tab.put s.cells k x }
/-- The state with a cell changed, if it exists. -/
def State.modCell (s : State) (k : CellId) (f : Cell → Cell) : State :=
  match s.cell? k with
  | some x => s.setCell k (f x)
  | none => s
/-- The edge of a slot by its number. -/
def State.edge? (s : State) (slot n : Nat) : Option Edge := Tab.get? s.edges (slot, n)
/-- The state with an edge replaced. -/
def State.setEdge (s : State) (slot n : Nat) (e : Edge) : State := { s with edges := Tab.put s.edges (slot, n) e }
/-- The slot of a number: empty, of generation 0, until it is first used (R17). -/
def State.slot (s : State) (n : Nat) : Slot := (Tab.get? s.rects n).getD { gen := 0, purges := [], rect := none }
/-- The rectangle in a slot. -/
def State.rect? (s : State) (n : Nat) : Option Rect := (s.slot n).rect
/-- The state with the rectangle of a slot replaced. -/
def State.setRect (s : State) (n : Nat) (r : Rect) : State :=
  { s with rects := Tab.put s.rects n { s.slot n with rect := some r } }
/-- The state with the rectangle of a slot changed, if there is one. -/
def State.modRect (s : State) (n : Nat) (f : Rect → Rect) : State :=
  match s.rect? n with
  | some r => s.setRect n (f r)
  | none => s
/-- The block of a lease (R375). -/
def State.lease (s : State) (n : Nat) : Lease := (Tab.get? s.leases n).getD Lease.reset
/-- The state with the block of a lease replaced. -/
def State.setLease (s : State) (n : Nat) (l : Lease) : State := { s with leases := Tab.put s.leases n l }
/-- The state with the block of a lease changed. -/
def State.modLease (s : State) (n : Nat) (f : Lease → Lease) : State := s.setLease n (f (s.lease n))
/-- The meter of an identifier (R414). -/
def State.meter (s : State) (n : Nat) : Meter := (Tab.get? s.meters n).getD Meter.reset
/-- The state with a meter replaced. -/
def State.setMeter (s : State) (n : Nat) (m : Meter) : State := { s with meters := Tab.put s.meters n m }
/-- A row half (R42): held by no lease until it is granted. -/
def State.row (s : State) (n : Nat) : RowHalf :=
  (Tab.get? s.rows n).getD
    { lease := 0, bound := none, queue := [], task := none, slots := firstSlots, blocks := 0, ksteps := [], work := none, parts := [],
      faulted := false }
/-- The state with a row half replaced. -/
def State.setRow (s : State) (n : Nat) (r : RowHalf) : State := { s with rows := Tab.put s.rows n r }
/-- A memory node of a slot by its index. -/
def State.node? (s : State) (slot i : Nat) : Option MemNode := Tab.get? s.nodes (slot, i)
/-- The state with a memory node replaced. -/
def State.setNode (s : State) (slot i : Nat) (n : MemNode) : State := { s with nodes := Tab.put s.nodes (slot, i) n }
/-- A streamer node of a slot by its index. -/
def State.strm? (s : State) (slot i : Nat) : Option Streamer := Tab.get? s.strms (slot, i)
/-- The state with a streamer node replaced. -/
def State.setStrm (s : State) (slot i : Nat) (n : Streamer) : State := { s with strms := Tab.put s.strms (slot, i) n }

/-- The handle of the rectangle in a slot (R17). -/
def State.handleOf (s : State) (n : Nat) : Nat :=
  match s.rect? n with
  | some r => r.lease * 16777216 + (s.slot n).gen * 65536 + n
  | none => 0
/-- LEASE of a handle (R17). -/
def hLease (h : Nat) : Nat := h / 16777216 % 256
/-- GEN of a handle (R17). -/
def hGen (h : Nat) : Nat := h / 65536 % 256
/-- SLOT of a handle (R17). -/
def hSlot (h : Nat) : Nat := h % 1024
/-- The slot that a live handle names; a stale handle names none (R18). -/
def State.live? (s : State) (h : Nat) : Option Nat :=
  match s.rect? (hSlot h) with
  | some _ => if s.handleOf (hSlot h) = h then some (hSlot h) else none
  | none => none

/-! ### Time and free values -/

/-- Device time in nanoseconds (R8, R9). -/
def State.dtime (s : State) : Nat := s.clock.cycles / 4 % 18446744073709551616
/-- The counter that free values are taken at. -/
def State.tick (s : State) : Nat := s.clock.tick
/-- The state after a free value was taken. -/
def State.bump (s : State) : State := { s with clock := { s.clock with tick := s.clock.tick + 1 } }
/-- A fresh name for a request, and the state after it was taken. -/
def State.fresh (s : State) : State := { s with clock := { s.clock with nextId := s.clock.nextId + 1 } }

/-! ### What is on its way -/

/-- The state with a packet or event sent: it is delivered in a later step, not before `wait` cycles from now. -/
def State.postIn (s : State) (wait cls : Nat) (ev : Event) : State :=
  { s with net := { s.net with
      agenda := s.net.agenda ++
        [(⟨s.clock.cycles + wait, cls, Config.buffer s.clock.tick, s.clock.cycles, ev⟩ : Flight)] } }.bump
/-- The state with a request sent that goes ahead of every later one: a request that its source resends keeps its place among
the source's accesses (R199, R288). -/
def State.postFirst (s : State) (wait cls : Nat) (ev : Event) : State :=
  { s with net := { s.net with
      agenda := (⟨s.clock.cycles + wait, cls, Config.buffer s.clock.tick, s.clock.cycles, ev⟩ : Flight) :: s.net.agenda } }.bump
/-- A packet or event sent with nothing but its way to delay it. -/
def State.post (s : State) (cls : Nat) (ev : Event) : State := s.postIn 0 cls ev
/-- Several events sent in order. -/
def State.postAll (s : State) (cls : Nat) (evs : List Event) : State := evs.foldl (fun t ev => t.post cls ev) s

/-- A context runs in class 0: its firing or its rectangle's item is demoted (R346, R347). -/
def State.isDemoted (s : State) (x : Ctx) : Bool :=
  x.demoted || (match s.live? x.handle with
    | some n => (s.rect? n).elim false fun r => r.item.demoted
    | none => false)

/-- The deadline class that a context runs in. -/
def State.classOf (s : State) (x : Ctx) : Nat := if s.isDemoted x then 0 else x.cls.toNat

/-- The packet class of a context's requests (R354). -/
def State.ctxClass (s : State) (x : Ctx) : Nat := min 2 (s.classOf x)

/-! ### Counting (R420) -/

/-- A counter after `n` events of a code by agents of a rectangle (handle 0: of no rectangle); the second part says whether
it wrapped. -/
def Counter.add (k : Counter) (code handle n : Nat) : Counter × Bool :=
  let on := k.cfg.getLsbD 21 && (k.cfg.extractLsb' 0 12).toNat == code &&
    (!k.cfg.getLsbD 15 || (handle != 0 && k.rect == some handle))
  if on then ({ k with value := BitVec.ofNat 48 (k.value.toNat + n) }, decide (2 ^ 48 ≤ k.value.toNat + n)) else (k, false)

/-- The lease's set after `n` events: a wrap sets the counter's OVF bit and, with OVI, raises vector 1 (R420). -/
def Lease.count (l : Lease) (code handle n : Nat) : Lease :=
  let res := l.counters.map fun k => k.add code handle n
  let wraps := (res.toList.map Prod.snd)
  let irq := (List.zip wraps (l.counters.toList.map fun k => k.cfg.getLsbD 22)).any fun p => p.1 && p.2
  { l with
    counters := res.map Prod.fst
    cntOvf := l.cntOvf ||| BitVec.ofNat 8 ((List.range 8).foldl (fun acc i => if wraps.getD i false then acc + 2 ^ i else acc) 0)
    vectors := if irq then l.vectors.modify 1 (· + 1) else l.vectors }

/-- Events of a lease counted (R420). Events of lease 0 count nowhere. -/
def State.count (s : State) (lease code handle n : Nat) : State :=
  if lease = 0 then s else s.modLease lease fun l => l.count code handle n

/-! ### Registers of a context (R57 to R62) -/

/-- s0 (R57). -/
def zeroReg : SReg := 0#6
/-- s47, the link register (R98). -/
def linkReg : SReg := 47#6
/-- l0 (R57). -/
def lastReg : SReg := 60#6

/-- The value of a scalar register: s0 reads zero (R57). -/
def Ctx.s (x : Ctx) (r : SReg) : BitVec 64 := if r = zeroReg then 0 else x.sreg[r.toNat]
/-- The full/empty bit of a scalar register: s0 and l0 to l3 are always full (R57). -/
def Ctx.sFull (x : Ctx) (r : SReg) : Bool := r.toNat = 0 || 60 ≤ r.toNat || x.sfe.getLsbD r.toNat
/-- The value of a vector register. -/
def Ctx.v (x : Ctx) (r : VReg) : List Lane := x.vreg[r.toNat]
/-- The full/empty bit of a vector register: vl0 and vl1 are always full (R57). -/
def Ctx.vFull (x : Ctx) (r : VReg) : Bool := 30 ≤ r.toNat || x.vfe.getLsbD r.toNat
/-- A mask register over the lanes of the crew: m0 reads all-ones (R60). -/
def Ctx.m (x : Ctx) (r : BitVec 3) : BitVec 128 :=
  if r = 0#3 then BitVec.ofNat 128 (2 ^ x.width - 1) else x.mreg[r.toNat]

/-- A scalar register's bit set to full or empty; the bits of s0 and l0 to l3 do not change (R57). -/
def Ctx.markS (x : Ctx) (r : SReg) (full : Bool) : Ctx :=
  if r.toNat = 0 || 60 ≤ r.toNat then x
  else { x with sfe := if full then x.sfe ||| (1#64 <<< r.toNat) else x.sfe &&& ~~~(1#64 <<< r.toNat) }
/-- A vector register's bit set to full or empty. -/
def Ctx.markV (x : Ctx) (r : VReg) (full : Bool) : Ctx :=
  if 30 ≤ r.toNat then x
  else { x with vfe := if full then x.vfe ||| (1#32 <<< r.toNat) else x.vfe &&& ~~~(1#32 <<< r.toNat) }

/-- A scalar register's value written, its bit untouched: s0 discards it, the last-result file is written by pushes alone. -/
def Ctx.putS (x : Ctx) (r : SReg) (w : BitVec 64) : Ctx :=
  if r.toNat = 0 || 60 ≤ r.toNat then x else { x with sreg := x.sreg.set r.toNat w (by omega) }
/-- A vector register's value written, its bit untouched. -/
def Ctx.putV (x : Ctx) (r : VReg) (ls : List Lane) : Ctx :=
  if 30 ≤ r.toNat then x else { x with vreg := x.vreg.set r.toNat ls (by omega) }
/-- A mask written: m0 discards it (R60). -/
def Ctx.putM (x : Ctx) (r : BitVec 3) (w : BitVec 128) : Ctx :=
  if r = 0#3 then x else { x with mreg := x.mreg.set r.toNat w (by omega) }

/-- A result pushed into l0 (R58); under RPLY it goes to the trap snapshot (R257). -/
def Ctx.pushL (x : Ctx) (w : BitVec 64) : Ctx :=
  if x.injecting.isSome && x.injectBy == .rply then { x with snapL := (w :: x.snapL).take 4 }
  else { x with sreg := (((x.sreg.set 63 x.sreg[62]).set 62 x.sreg[61]).set 61 x.sreg[60]).set 60 w }
/-- A result pushed into vl0 (R58, R168). -/
def Ctx.pushV (x : Ctx) (ls : List Lane) : Ctx :=
  if x.injecting.isSome && x.injectBy == .rply then { x with snapV := (ls :: x.snapV).take 2 }
  else { x with vreg := (x.vreg.set 31 x.vreg[30]).set 30 ls }

/-- An operand register read by a completed instruction becomes empty (R59). -/
def Ctx.useS (x : Ctx) (r : SReg) : Ctx := if 48 ≤ r.toNat && r.toNat < 60 then x.markS r false else x
/-- A vector operand register read by a completed instruction becomes empty (R59). -/
def Ctx.useV (x : Ctx) (r : VReg) : Ctx := if 24 ≤ r.toNat && r.toNat < 30 then x.markV r false else x
/-- Several scalar sources consumed. -/
def Ctx.useAll (x : Ctx) (rs : List SReg) : Ctx := rs.foldl Ctx.useS x
/-- Several vector sources consumed. -/
def Ctx.useVAll (x : Ctx) (rs : List VReg) : Ctx := rs.foldl Ctx.useV x

/-- A fixed-latency scalar result: written and left full, and pushed into l0 (R58, R62, R127). -/
def Ctx.result (x : Ctx) (d : SReg) (w : BitVec 64) : Ctx := ((x.putS d w).markS d true).pushL w
/-- A fixed-latency vector result: written and left full, and pushed into vl0 (R58, R168). -/
def Ctx.resultV (x : Ctx) (d : VReg) (ls : List Lane) : Ctx := ((x.putV d ls).markV d true).pushV ls

/-- A long-latency producer of the context is in flight for a register (R65, R66, R69): an unfinished instruction, an entry of
a replay queue with status INFLIGHT, or a command whose token the register is. -/
def Ctx.inFlight (x : Ctx) (d : Dest) : Bool :=
  let entry := fun (e : RqEntry) => e.status == 1#4 && (match d with
    | .none => false
    | .sreg r => e.file == 0#2 && e.dest == r
    | .vreg r => e.file == 1#2 && e.dest == r.setWidth 6)
  match d with
  | .none => false
  | .sreg r => decide (r ≠ zeroReg) && (x.pend.any (fun p => p.dest == d) || x.rq.any entry || x.inject.any entry ||
      x.tokens.contains r)
  | .vreg _ => x.pend.any (fun p => p.dest == d) || x.rq.any entry || x.inject.any entry

/-- The instruction of a queue entry, where its word decodes. -/
def RqEntry.decoded (e : RqEntry) : Option Instr := (decode e.instr).toOption

/-- An entry whose request has left the cell and is still unanswered, of an instruction of a kind (R88). -/
def RqEntry.inflight (e : RqEntry) (kind : Instr → Bool) : Bool := e.status == 1#4 && e.decoded.any kind

/-- A vector register that an older, unfinished vector instruction still reads: the index register of an LDG whose answers are on
their way (R66). -/
def Ctx.stillRead (x : Ctx) (d : Dest) : Bool :=
  let reads := fun (i : Instr) => match i with
    | .ldg o => d == .vreg o.idx
    | _ => false
  x.pend.any (fun p => reads p.instr) ||
    (x.rq ++ x.inject).any fun e => e.inflight reads

/-- The interlocks of R66 on a destination. -/
def Ctx.hazard (x : Ctx) (d : Dest) : Bool := x.inFlight d || x.stillRead d

/-! ### Fetch order -/

/-- The word address after the instruction at `pc` has issued, with loop-back applied: LOOP1 first, LOOP0 only where LOOP1
has just reached 0; none inside a handler (R143). -/
def Ctx.loopBack (x : Ctx) (pc : PC) : Ctx × PC :=
  if x.act then (x, pc + 1#12)
  else
    let in1 := x.loop1.count ≠ 0#32 ∧ x.loop1.last = pc
    let in0 := x.loop0.count ≠ 0#32 ∧ x.loop0.last = pc
    let c1 := x.loop1.count - 1#32
    let c0 := x.loop0.count - 1#32
    let x1 := if in1 then { x with loop1 := { x.loop1 with count := c1 } } else x
    if in1 ∧ c1 ≠ 0#32 then (x1, x.loop1.first)
    else if in0 then
      ({ x1 with loop0 := { x.loop0 with count := c0 } }, if c0 ≠ 0#32 then x.loop0.first else pc + 1#12)
    else (x1, pc + 1#12)

/-- J, JAL and JALR, at which no loop-back is due (R143). -/
def isJump : Instr → Bool
  | .j _ | .jal _ | .jalr _ => true
  | _ => false

/-- BCC, at which a loop-back is due unless it is taken (R143). -/
def isBranch : Instr → Bool
  | .bccEq _ | .bccNe _ | .bccLt _ | .bccGe _ | .bccLtz _ | .bccGez _ => true
  | _ => false

/-- The context after an instruction at `pc` was captured unexecuted, and the address that fetch would take after it: a loop-back due
at it is already applied (R132, R143). -/
def Ctx.passBy (x : Ctx) (i : Instr) (pc : PC) : Ctx × PC := if isJump i then (x, pc + 1#12) else x.loopBack pc

/-- The loop registers that a captured branch has to put back if it is taken. -/
def Ctx.undoOf (x : Ctx) (i : Instr) : Option (LoopReg × LoopReg) := if isBranch i then some (x.loop0, x.loop1) else none

/-- The loop-back that the capture of a branch applied is undone, where the loop registers are still as it left them (R143). -/
def Ctx.undoLoop (x : Ctx) (e : RqEntry) : Ctx :=
  match e.undo with
  | none => x
  | some (l0, l1) =>
    let y := ({ x with act := false, loop0 := l0, loop1 := l1 }.loopBack e.pc).1
    if y.loop0 = x.loop0 ∧ y.loop1 = x.loop1 then { x with loop0 := l0, loop1 := l1 } else x

/-- The address of the instruction that executes: the entry's where one is re-injected (R87), the program counter's else. -/
def Ctx.at (x : Ctx) : PC := match x.injecting with | some e => e.pc | none => x.pc

/-- The context after an instruction finished or left its request: fetch goes on after it, or at the target of a transfer;
a re-injected entry leaves its queue, and a transfer ends the re-injection of the entries after it (R133, R143, R256). -/
def Ctx.advance (x : Ctx) (goto : Option PC) : Ctx :=
  match x.injecting with
  | some e =>
    match goto with
    | some t =>
      { x.undoLoop e with injecting := none, inject := [], injectBy := .restore, pc := t, hold := .free, walk := .none }
    | none => { x with injecting := none, inject := x.inject.tail, injectBy := .restore, hold := .free, walk := .none }
  | none =>
    match goto with
    | some t => { x with pc := t, hold := .free, walk := .none }
    | none =>
      let (y, pc) := x.loopBack x.pc
      { y with pc := pc, hold := .free, walk := .none }

/-- The state after a context's instruction completed: counted as INSTR (R420), and fetch goes on. -/
def State.retire (s : State) (x : Ctx) (goto : Option PC) : State :=
  (s.setCtx s.cur (x.advance goto)).count x.lease 0x001 x.handle 1

/-! ### Traps (R84 to R89, R132) -/

/-- A trap: cause and SUB codes, the address it reports, and DETAIL1 of a fault record that it may become (R388). -/
structure Trap where
  cause : BitVec 8
  sub : BitVec 8
  addr : BitVec 64
  detail : Nat
deriving DecidableEq, Repr

/-- ILLEGAL (R85). -/
def Trap.illegal (sub : BitVec 8) : Trap := ⟨0x01, sub, 0, 0⟩
/-- EMPTYREAD (R85). -/
def Trap.emptyRead (sub : BitVec 8) : Trap := ⟨0x02, sub, 0, 0⟩
/-- OVERRUN (R85). -/
def Trap.overrun : Trap := ⟨0x03, 0, 0, 0⟩
/-- PAGE (R85): an unmapped address or a malformed entry (R382). -/
def Trap.page (sub : BitVec 8) (a : BitVec 64) (malformed : Bool) : Trap := ⟨0x04, sub, a, if malformed then 2 else 1⟩
/-- ACCESS (R85). -/
def Trap.access (sub : BitVec 8) (a : BitVec 64) : Trap := ⟨0x05, sub, a, 0⟩
/-- ALIGN (R85). -/
def Trap.align (a : BitVec 64) : Trap := ⟨0x06, 0, a, 0⟩
/-- DIVZERO (R85). -/
def Trap.divZero : Trap := ⟨0x08, 0, 0, 0⟩

/-- WATCH (R85, R195). -/
def Trap.watch (write : Bool) (a : BitVec 64) : Trap := ⟨0x09, if write then 1 else 0, a, 0⟩

/-- The scalar register that is operand A of an instruction, if it has one (R87). The scalar operands of a vector instruction are
captured like any other; its vector and mask sources are not (R89). -/
def operandA : Instr → Option SReg
  | .add o | .sub o | .and o | .or o | .xor o | .andn o | .shl o | .shr o | .sha o | .rot o | .min o | .max o | .minz o
  | .maxz o | .sel o | .mul o | .mulh o | .mulhz o | .div o | .divz o | .rem o | .remz o | .mads o | .ext o | .ins o
  | .cmpEq o | .cmpNe o | .cmpLt o | .cmpGe o | .cmpLtz o | .cmpGez o | .lea o _ | .agen2 o _ | .bound o => some o.a
  | .clz o | .ctz o | .pop o | .brev o | .bswap o | .carve o => some o.a
  | .addImm o | .andImm o | .orImm o | .xorImm o | .mulImm o | .minImm o | .maxImm o | .cmpEqImm o | .cmpNeImm o
  | .cmpLtImm o | .cmpGeImm o | .cmpLtzImm o | .cmpGezImm o | .jalr o => some o.a
  | .shlImm o | .shrImm o | .shaImm o | .rotImm o => some o.a
  | .extImm o | .insImm o => some o.a
  | .bccEq o | .bccNe o | .bccLt o | .bccGe o | .bccLtz o | .bccGez o => some o.a
  | .loop o | .loopx o => some o.a
  | .movq o => some o.a
  | .mts a _ _ | .cntcfg a _ _ => some a
  | .fadd o | .fsub o | .fmul o | .fma o | .fdiv o => some o.a
  | .fsqrt o => some o.a
  | .fmin o | .fmax o => some o.a
  | .fcmp o => some o.a
  | .fcvt o => some o.a
  | .fclass o => some o.a
  | .ldB o | .ldH o | .ldW o | .ldD o | .stB o | .stH o | .stW o | .stD o | .ldf o | .ldp o | .ste o => some o.base
  | .ldv o | .stv o => some o.base
  | .ldg o | .stg o => some o.base
  | .stx o => some o.base
  | .amo o | .amoC o => some o.a
  | .stOp o | .stOpC o => some o.a
  | .dqpush o => some o.a
  | .dqpop o | .dqsteal o => some o.a
  | .chpeek o => some o.a
  | .waitm o => some o.a
  | .chput o => if o.v then none else some o.a
  | .acq o | .acqs o | .rel o => some o.a
  | .waita o => some o.a
  | .scmd o | .scmdw o => some o.a
  | _ => none

/-- The scalar register that is operand B of an instruction, if it has one (R87). -/
def operandB : Instr → Option SReg
  | .add o | .sub o | .and o | .or o | .xor o | .andn o | .shl o | .shr o | .sha o | .rot o | .min o | .max o | .minz o
  | .maxz o | .sel o | .mul o | .mulh o | .mulhz o | .div o | .divz o | .rem o | .remz o | .mads o | .ext o | .ins o
  | .cmpEq o | .cmpNe o | .cmpLt o | .cmpGe o | .cmpLtz o | .cmpGez o | .lea o _ | .agen2 o _ | .bound o => some o.b
  | .bccEq o | .bccNe o | .bccLt o | .bccGe o | .bccLtz o | .bccGez o => some o.b
  | .waitm o => some o.b
  | .fadd o | .fsub o | .fmul o | .fma o | .fdiv o => some o.b
  | .fmin o | .fmax o => some o.b
  | .fcmp o => some o.b
  | .stB o | .stH o | .stW o | .stD o | .ste o => some o.d
  | .stx o => some o.d
  | .amo o | .amoC o => some o.b
  | .stOp o | .stOpC o => some o.b
  | .dqpush o => some o.b
  | .waita o => some o.b
  | .scmd o | .scmdw o => some o.b
  | _ => none

/-- The destination of an instruction as FILE and DEST (R87). -/
def destOf : Instr → BitVec 2 × BitVec 6
  | .add o | .sub o | .and o | .or o | .xor o | .andn o | .shl o | .shr o | .sha o | .rot o | .min o | .max o | .minz o
  | .maxz o | .sel o | .mul o | .mulh o | .mulhz o | .div o | .divz o | .rem o | .remz o | .mads o | .ext o | .ins o
  | .cmpEq o | .cmpNe o | .cmpLt o | .cmpGe o | .cmpLtz o | .cmpGez o | .lea o _ | .agen2 o _ | .bound o => (0, o.d)
  | .clz o | .ctz o | .pop o | .brev o | .bswap o | .carve o => (0, o.d)
  | .addImm o | .andImm o | .orImm o | .xorImm o | .mulImm o | .minImm o | .maxImm o | .cmpEqImm o | .cmpNeImm o
  | .cmpLtImm o | .cmpGeImm o | .cmpLtzImm o | .cmpGezImm o | .jalr o => (0, o.d)
  | .shlImm o | .shrImm o | .shaImm o | .rotImm o => (0, o.d)
  | .extImm o | .insImm o => (0, o.d)
  | .lui d _ | .mfs d _ _ | .cntrd d _ => (0, d)
  | .jal _ => (0, linkReg)
  | .movq o => (0, o.d)
  | .marke o | .markf o => if o.vec then (1, o.r) else (0, o.r)
  | .testf o => (0, o.d)
  | .fadd o | .fsub o | .fmul o | .fma o | .fdiv o => (0, o.d)
  | .fsqrt o => (0, o.d)
  | .fmin o | .fmax o => (0, o.d)
  | .fcmp o => (0, o.d)
  | .fcvt o => (0, o.d)
  | .fclass o => (0, o.d)
  | .vadd o | .vsub o | .vmul o | .vmulh o | .vmad o | .vand o | .vor o | .vxor o | .vshl o | .vshr o | .vsha o | .vmin o
  | .vmax o | .vsel o | .vfadd o | .vfsub o | .vfmul o | .vfma o | .vfms o | .vfnma o | .vfdiv o | .vfmin o | .vfmax o
  | .vdot o | .vbdot o | .vperm o | .vrot o => (1, o.vd.setWidth 6)
  | .vabs o | .vneg o | .vfsqrt o | .vfrcp o | .vfrsq o | .vfexp2 o | .vflog2 o | .vfclass o | .vscan o | .vbcast o =>
    (1, o.vd.setWidth 6)
  | .vredadd o | .vredmax o | .vredmin o => (0, o.vd.setWidth 6)
  | .vcvt o | .vquant o | .vdeq o => (1, o.vd.setWidth 6)
  | .vshuf o => (1, o.vd.setWidth 6)
  | .vextr o => (0, o.vd.setWidth 6)
  | .vins o => (1, o.vd.setWidth 6)
  | .vcmp o => (2, o.k.setWidth 6)
  | .vfcmp o => (2, o.k.setWidth 6)
  | .mand o | .mor o | .mxor o => (2, o.d.setWidth 6)
  | .mnot d _ => (2, d.setWidth 6)
  | .mpop d _ | .mfirst d _ | .vwidth d _ => (0, d.setWidth 6)
  | .ldB o | .ldH o | .ldW o | .ldD o | .ldf o | .ldp o => (0, o.d)
  | .ldv o => (1, o.d)
  | .ldg o => (1, o.d)
  | .amo o | .amoC o => (0, o.d)
  | .dqpop o | .dqsteal o => (0, o.d)
  | .chget o => if o.v then (1, o.d) else (0, o.d)
  | .chpeek o => if o.v then (1, o.d) else (0, o.d)
  | .chstat o => (0, o.d)
  | .scmd o | .scmdw o => (0, o.d)
  | _ => (3, 0)

/-- An operand's value where it can be captured: its register is full (R87). -/
def Ctx.capture (x : Ctx) (r : Option SReg) : Option (BitVec 64) :=
  match r with
  | some k => if x.sFull k then some (x.s k) else none
  | none => none

/-- The entry of an instruction that stands at `pc` (R87); a re-injected one keeps the operands it holds. -/
def Ctx.entryFor (x : Ctx) (i : Instr) (word : IWord) (pc : PC) (status : BitVec 4) : RqEntry :=
  let old := x.injecting
  let a := match old with
    | some e => if e.va then some e.a else x.capture (operandA i)
    | none => x.capture (operandA i)
  let b := match old with
    | some e => if e.vb then some e.b else x.capture (operandB i)
    | none => x.capture (operandB i)
  { pc := pc, file := (destOf i).1, dest := (destOf i).2, status := status, va := a.isSome, vb := b.isSome, instr := word,
    a := a.getD 0, b := b.getD 0, lanes := [], id := 0, left := 0, slices := [], seq := none,
    undo := match old with
      | some e => e.undo
      | none => x.undoOf i }

/-- The entry of an unfinished instruction: its request has left the cell, so it is INFLIGHT (R88); an SCMDW whose word has left
is the WAITF of its token, WAITING (R220). -/
def Pend.entry (p : Pend) : RqEntry :=
  match p.instr with
  | .scmdw o =>
    { pc := p.pc, file := 3, dest := 0, status := 0, va := false, vb := false,
      instr := encodeWord (.waitf ⟨o.d, false, false, false⟩), a := 0, b := 0, lanes := [], id := 0, left := 0, slices := [],
      undo := none, seq := none }
  | _ =>
    { pc := p.pc, file := (destOf p.instr).1, dest := (destOf p.instr).2, status := 1, va := p.va, vb := p.vb,
      instr := encodeWord p.instr, a := p.a, b := p.b, lanes := p.lanes, id := p.id, left := p.left, slices := p.slices,
      undo := none, seq := p.seq }

/-- An unfinished instruction noted: among the unfinished ones, or, where RPLY re-injects it, as the oldest entry of the trap's
queue, on which the RPLY waits (R86, R257). -/
def Ctx.addPend (x : Ctx) (p : Pend) : Ctx :=
  if x.injecting.isSome && x.injectBy == .rply then { x with rq := p.entry :: x.rq.tail } else { x with pend := x.pend ++ [p] }

/-- The context as a trap leaves it (R84): it captures its replay queue `queue` and its last-result registers, sets TRAPCAUSE, TRAPADDR
and TRAPPC (`resume`), and stands at its handler or, where the trap becomes a fault, has stopped. Where a handler ran, the entries of
its trap's queue whose replies are still to come are kept beside the new queue, which takes its place. -/
def Ctx.takeTrap (x : Ctx) (t : Trap) (queue : List RqEntry) (resume : PC) (faulting : Bool) : Ctx :=
  { x with rq := queue, snapL := [x.sreg[60], x.sreg[61], x.sreg[62], x.sreg[63]], snapV := [x.vreg[30], x.vreg[31]],
           cause := t.cause, sub := t.sub, trapAddr := t.addr, trapPc := resume, pend := [], inject := [],
           injecting := none, act := x.act || !faulting, stopped := faulting, pc := if faulting then x.pc else x.trapBase,
           cut := if x.act then some ⟨x.rq.filter fun e => e.status == 1#4, resume, false⟩ else x.cut,
           hold := .free, walk := .none }

/-- A trap (R84): its handler is entered, or it becomes a fault: without a handler, while one runs, or where `forceFault` says so. -/
def State.enterTrap (s : State) (c : CtxId) (x : Ctx) (t : Trap) (queue : List RqEntry) (resume : PC)
    (forceFault : Bool) : State :=
  let faulting := x.act || !x.trapEn || forceFault
  let s1 := (s.setCtx c (x.takeTrap t queue resume faulting)).count x.lease 0x003 x.handle 1
  if faulting then
    s1.post 3 (.faultEvent c.slot
      ⟨t.cause.toNat, t.sub.toNat, t.addr, x.node, some c, 0, 0, t.detail⟩)
  else s1

/-- A trap raised by the instruction that executes: the unfinished older instructions, the trapping entry and, at a
re-injection, the entries after it form the replay queue (R84, R132, R256). `plain` keeps TRAPPC at the next word (R254); a
loop-back due at the instruction counts all the same (R143). -/
def State.raiseWith (s : State) (x : Ctx) (i : Instr) (word : IWord) (t : Trap) (status : BitVec 4) (plain : Bool) : State :=
  let e := x.entryFor i word x.at status
  let older := x.pend.map Pend.entry
  match x.injecting with
  | some _ => s.enterTrap s.cur x t (older ++ [e] ++ x.inject.tail) x.pc false
  | none =>
    let (y, pc) := x.passBy i x.pc
    s.enterTrap s.cur y t (older ++ [e]) (if plain then x.pc + 1#12 else pc) false

/-- A trap raised by the instruction that executes (R84). -/
def State.raise (s : State) (x : Ctx) (i : Instr) (t : Trap) : State := s.raiseWith x i (encodeWord i) t 3 false

/-! ### Issue -/

/-- Why an instruction does not take effect now: it raises a trap, it waits at issue (R33), or it waits in
the address stage for a page walk (R193). -/
inductive Stop
  | trap (t : Trap)
  | block
  | walk (w : WalkReq)
deriving DecidableEq, Repr

/-- What an instruction answers when it is presented for issue. -/
abbrev Issue := Except Stop

/-- The context waits at issue (R33). -/
def State.block (s : State) (x : Ctx) : State :=
  s.setCtx s.cur { x with injecting := none, hold := .blocked s.clock.stamp }

/-- Walks under way in the translation unit of a die (R383). -/
def State.walksOf (s : State) (die : Nat) : Nat :=
  (s.net.agenda.filter fun f => match f.ev with
    | .pageWalkDone w => w.die == die
    | _ => false).length

/-- The context waits in the address stage: its first try sends the walk, once fewer than 4,096 are under way on its die (R193,
R382, R383). -/
def State.startWalk (s : State) (x : Ctx) (w : WalkReq) : State :=
  if x.walk.busy = some (w.va / 65536) ∨ Config.walks ≤ s.walksOf w.die then s.block x
  else (s.block { x with walk := { x.walk with busy := some (w.va / 65536) } }).post 2 (.pageWalkDone w)

/-- Issued, unfinished instructions of the context, but for the one that a re-injection executes: those whose answers are to come, and the
entries that are still to be re-injected (R86). -/
def Ctx.unfinished (x : Ctx) : Nat := x.pend.length + x.inject.tail.length

/-- An instruction presented for issue: with 16 unfinished ones it waits (R86); then the encoding checks (R109), the interlocks
on its destination (R66, R69), and what `body` does. -/
def issue (i : Instr) (d : Dest) (s : State) (body : Ctx → Issue State) : Host.Outcome State Fault Refusal :=
  match s.ctx? s.cur with
  | none => .fault .noContext
  | some x =>
    if Config.unfinished ≤ x.unfinished then .next (s.block x)
    else match defect i with
    | some e => .next (s.raise x i (Trap.illegal e.sub))
    | none =>
      if x.hazard d then .next (s.block x)
      else match body x with
        | .ok t => .next t
        | .error (.trap t) => .next (s.raise x i t)
        | .error .block => .next (s.block x)
        | .error (.walk w) => .next (s.startWalk x w)

end Sys2Proof.Machine
end

