-- ==== Sys2Proof/Machine/Flags.lean ====
section
/-! DEFINITION. Numbers: the formats of R262 to R266, exact values, the helpers Round and Sat (R274 to R276), the
generator of R277, and the FSTAT flags that each operation raises (R82, R154 to R160). -/

namespace Sys2Proof.Machine

/-! ### Flags of FSTAT (R82) -/

/-- The five sticky flags in their order in FSTAT: NV, DZ, OF, UF, NX from bit 4 down. -/
abbrev Flags := BitVec 5
/-- Invalid operation. -/
def flagNV : Flags := 0x10
/-- Division by zero. -/
def flagDZ : Flags := 0x08
/-- Overflow. -/
def flagOF : Flags := 0x04
/-- Underflow. -/
def flagUF : Flags := 0x02
/-- Inexact. -/
def flagNX : Flags := 0x01

/-- A flag where a condition holds. -/
def flagIf (b : Bool) (f : Flags) : Flags := if b then f else 0

/-- The context with flags raised: an instruction sets flags and never clears one (R82). -/
def Ctx.raiseFlags (x : Ctx) (f : Flags) : Ctx := { x with fstat := x.fstat ||| ((f ++ 0#3 : BitVec 8)) }

/-! ### Formats (R263) -/

/-- The floating-point formats of R263. -/
inductive FF
  | f64 | f32 | bf16 | f16 | e5m2 | e4m3 | e2m1
deriving DecidableEq, Repr

/-- Fraction bits M. -/
def FF.frac : FF → Nat
  | .f64 => 52 | .f32 => 23 | .bf16 => 7 | .f16 => 10 | .e5m2 => 2 | .e4m3 => 3 | .e2m1 => 1
/-- Exponent bits. -/
def FF.ebits : FF → Nat
  | .f64 => 11 | .f32 => 8 | .bf16 => 8 | .f16 => 5 | .e5m2 => 5 | .e4m3 => 4 | .e2m1 => 2
/-- Exponent bias. -/
def FF.bias : FF → Nat
  | .f64 => 1023 | .f32 => 127 | .bf16 => 127 | .f16 => 15 | .e5m2 => 15 | .e4m3 => 7 | .e2m1 => 1
/-- Bits of a value. -/
def FF.width (f : FF) : Nat := 1 + f.ebits + f.frac
/-- The exponent of the least significant bit of a subnormal. -/
def FF.tinyExp (f : FF) : Int := 1 - (f.bias : Int) - f.frac
/-- The code of the largest finite magnitude. -/
def FF.maxCode : FF → Nat
  | .f64 => 0x7FEFFFFFFFFFFFFF | .f32 => 0x7F7FFFFF | .bf16 => 0x7F7F | .f16 => 0x7BFF | .e5m2 => 0x7B | .e4m3 => 0x7E
  | .e2m1 => 0x7
/-- The code of positive infinity, where the format has one. -/
def FF.infCode : FF → Option Nat
  | .f64 => some 0x7FF0000000000000 | .f32 => some 0x7F800000 | .bf16 => some 0x7F80 | .f16 => some 0x7C00
  | .e5m2 => some 0x7C | .e4m3 | .e2m1 => none
/-- The canonical NaN (R264), where the format has one. -/
def FF.nanCode : FF → Option Nat
  | .f64 => some 0x7FF8000000000000 | .f32 => some 0x7FC00000 | .bf16 => some 0x7FC0 | .f16 => some 0x7E00
  | .e5m2 => some 0x7E | .e4m3 => some 0x7F | .e2m1 => none
/-- The formats whose finite overflow follows the rounding direction (R275); E5M2, E4M3 and E2M1 saturate. -/
def FF.overflows : FF → Bool
  | .f64 | .f32 | .bf16 | .f16 => true
  | .e5m2 | .e4m3 | .e2m1 => false
/-- The formats that tell signalling NaNs from quiet ones (R264). -/
def FF.signals : FF → Bool
  | .f64 | .f32 | .bf16 | .f16 => true
  | .e5m2 | .e4m3 | .e2m1 => false

/-- An exact number: a NaN, an infinity, or `mant * 2^exp` with a sign, a zero among them. `sticky` says that the true
magnitude lies strictly between `mant` and `mant + 1` units. -/
inductive FpVal
  | nan (signalling : Bool)
  | inf (neg : Bool)
  | fin (neg : Bool) (mant : Nat) (exp : Int) (sticky : Bool)
deriving DecidableEq, Repr

/-- A zero of a sign. -/
def FpVal.zero (neg : Bool) : FpVal := .fin neg 0 0 false
/-- An integer as a number. -/
def FpVal.ofInt (i : Int) : FpVal := .fin (decide (i < 0)) i.natAbs 0 false
/-- A signalling NaN. -/
def FpVal.isSig : FpVal → Bool
  | .nan s => s
  | .inf _ | .fin _ _ _ _ => false
/-- A NaN. -/
def FpVal.isNan : FpVal → Bool
  | .nan _ => true
  | .inf _ | .fin _ _ _ _ => false
/-- The sign. -/
def FpVal.neg? : FpVal → Bool
  | .nan _ => false
  | .inf n => n
  | .fin n _ _ _ => n
/-- The number with the opposite sign. -/
def FpVal.negate : FpVal → FpVal
  | .nan s => .nan s
  | .inf n => .inf !n
  | .fin n m e s => .fin (!n) m e s
/-- An exact zero. -/
def FpVal.isZero : FpVal → Bool
  | .fin _ m _ s => m == 0 && !s
  | .nan _ | .inf _ => false

/-- The value of a code of a format (R263 to R265). -/
def FF.decode (f : FF) (w : Nat) : FpVal :=
  let neg := w.testBit (f.width - 1)
  let body := w % 2 ^ (f.width - 1)
  let e := body / 2 ^ f.frac
  let m := body % 2 ^ f.frac
  if f.infCode = some body then .inf neg
  else if f.nanCode ≠ none ∧ f.maxCode < body then .nan (f.signals && !m.testBit (f.frac - 1))
  else if e = 0 then .fin neg m f.tinyExp false
  else .fin neg (2 ^ f.frac + m) (f.tinyExp + e - 1) false

/-! ### Round (R274, R275) -/

/-- The bits above a cut at `k`, rounded by the mode with draw `r`: `m` units of which `k` low bits are dropped. -/
def roundAt (neg : Bool) (m k : Nat) (sticky : Bool) (mode : RMode) (r : Nat) : Nat :=
  let lo := m >>> k
  let rest := m % 2 ^ k
  let half := if k = 0 then 0 else 2 ^ (k - 1)
  if rest = 0 ∧ !sticky then lo
  else
    let up := match mode with
      | .rne => decide (half < rest) || (rest == half && (k != 0) && (sticky || lo % 2 == 1))
      | .rtz => false
      | .rup => !neg
      | .rdn => neg
      | .sr => decide (r < rest * 2 ^ 32 / 2 ^ k)
      | .dyn => false
    if up then lo + 1 else lo

/-- The number of significant bits. -/
def bitLen (m : Nat) : Nat := if m = 0 then 0 else m.log2 + 1

/-- The code of a finite magnitude `mant * 2^exp` that the format holds, `exp` at least the subnormal exponent. -/
def FF.pack (f : FF) (neg : Bool) (mant : Nat) (exp : Int) : Nat :=
  let sign := if neg then 2 ^ (f.width - 1) else 0
  -- normalise to exactly M + 1 bits, or stop at the subnormal exponent
  let up := min (f.frac + 1 - bitLen mant) (exp - f.tinyExp).toNat
  let m := mant <<< up
  let e := exp - up
  let down := bitLen m - (f.frac + 1)
  let m := m >>> down
  let e := e + down
  sign + (if m < 2 ^ f.frac then m else (e - f.tinyExp).toNat * 2 ^ f.frac + m)

/-- The result of a finite overflow (R275). -/
def FF.overflow (f : FF) (neg : Bool) (mode : RMode) : Nat :=
  let sign := if neg then 2 ^ (f.width - 1) else 0
  let infinite := f.overflows && (match mode with
    | .rne | .sr => true
    | .rtz | .dyn => false
    | .rup => !neg
    | .rdn => neg)
  sign + (if infinite then f.infCode.getD f.maxCode else f.maxCode)

/-- Round(f, x, mode) with the draw `r`, and the flags it raises (R274, R275). -/
def FF.round (f : FF) (mode : RMode) (r : Nat) : FpVal → Nat × Flags
  | .nan s =>
    match f.nanCode with
    | some c => (c, flagIf s flagNV)
    | none => (0, flagNV)
  | .inf neg =>
    let sign := if neg then 2 ^ (f.width - 1) else 0
    match f.infCode with
    | some c => (sign + c, 0)
    | none => (sign + f.maxCode, flagNV)
  | .fin neg m e sticky =>
    if m = 0 ∧ !sticky then (if neg then 2 ^ (f.width - 1) else 0, 0)
    else
      -- y: rounded with an unbounded exponent range
      let k := bitLen m - (f.frac + 1)
      let ym := roundAt neg m k sticky mode r
      let ye := e + k
      let tiny := decide ((bitLen ym : Int) + ye ≤ 1 - (f.bias : Int))
      if tiny then
        -- z: y rounded once more, to the subnormal grid
        let k2 := (f.tinyExp - ye).toNat
        let zm := roundAt neg ym k2 false mode r
        let ze := ye + k2
        let exact := !sticky && m % 2 ^ k == 0 && ym % 2 ^ k2 == 0
        (f.pack neg zm ze, if exact then 0 else flagNX ||| flagUF)
      else
        let code := f.pack false ym ye
        let exact := !sticky && m % 2 ^ k == 0
        if f.maxCode < code then
          (f.overflow neg mode, flagOF ||| flagNX)
        else ((if neg then 2 ^ (f.width - 1) else 0) + code, flagIf (!exact) flagNX)

/-- A number rounded to an integer under a mode, and whether that was inexact; no range check (R274). -/
def FpVal.toInt (mode : RMode) (r : Nat) : FpVal → Int × Bool
  | .nan _ | .inf _ => (0, false)
  | .fin neg m e sticky =>
    let k := (-e).toNat
    let up := e.toNat
    let q := roundAt neg (m <<< up) k sticky mode r
    (if neg then -(q : Int) else q, sticky || (m <<< up) % 2 ^ k != 0)

/-- Sat to an integer range (R276). -/
def satInt (lo hi x : Int) : Int := if x < lo then lo else if hi < x then hi else x

/-- Conversion to an integer range: clamped, with the flags of R159. -/
def FpVal.toRange (lo hi : Int) (mode : RMode) (r : Nat) (x : FpVal) : Int × Flags :=
  match x with
  | .nan _ => (0, flagNV)
  | .inf neg => (if neg then lo else hi, flagNV)
  | .fin _ _ _ _ =>
    let q := x.toInt mode r
    if q.1 < lo ∨ hi < q.1 then (satInt lo hi q.1, flagNV) else (q.1, flagIf q.2 flagNX)

/-! ### Exact operations with the flags of R154 to R158 -/

/-- NV where an input is a signalling NaN. -/
def sigFlags (xs : List FpVal) : Flags := flagIf (xs.any FpVal.isSig) flagNV

/-- The sum of two finite numbers; a zero sum of unlike signs is +0, under RDN −0 (R155). -/
def finAdd (mode : RMode) (n1 : Bool) (m1 : Nat) (e1 : Int) (n2 : Bool) (m2 : Nat) (e2 : Int) : FpVal :=
  let e := min e1 e2
  let a : Int := (m1 <<< (e1 - e).toNat : Nat)
  let b : Int := (m2 <<< (e2 - e).toNat : Nat)
  let s := (if n1 then -a else a) + (if n2 then -b else b)
  if s = 0 then .zero (if n1 = n2 then n1 else mode == .rdn)
  else .fin (decide (s < 0)) s.natAbs e false

/-- a + b (R156). -/
def numAdd (mode : RMode) (x y : FpVal) : FpVal × Flags :=
  match x, y with
  | .nan _, _ => (.nan false, sigFlags [x, y])
  | _, .nan _ => (.nan false, sigFlags [x, y])
  | .inf a, .inf b => if a = b then (.inf a, 0) else (.nan false, flagNV)
  | .inf a, .fin _ _ _ _ => (.inf a, 0)
  | .fin _ _ _ _, .inf b => (.inf b, 0)
  | .fin n1 m1 e1 _, .fin n2 m2 e2 _ => (finAdd mode n1 m1 e1 n2 m2 e2, 0)

/-- a * b (R156). -/
def numMul (x y : FpVal) : FpVal × Flags :=
  match x, y with
  | .nan _, _ => (.nan false, sigFlags [x, y])
  | _, .nan _ => (.nan false, sigFlags [x, y])
  | .inf a, .inf b => (.inf (a != b), 0)
  | .inf a, .fin b m _ _ => if m = 0 then (.nan false, flagNV) else (.inf (a != b), 0)
  | .fin a m _ _, .inf b => if m = 0 then (.nan false, flagNV) else (.inf (a != b), 0)
  | .fin n1 m1 e1 _, .fin n2 m2 e2 _ => (.fin (n1 != n2) (m1 * m2) (e1 + e2) false, 0)

/-- a * b + c, exact (R156): an infinity times a zero sets NV whatever c is. -/
def numFma (mode : RMode) (x y z : FpVal) : FpVal × Flags :=
  let p := numMul x y
  let s := numAdd mode p.1 z
  (s.1, p.2 ||| s.2 ||| sigFlags [x, y, z])

/-- a / b (R156): enough quotient bits for one rounding of any format and mode, the rest in `sticky`. -/
def numDiv (x y : FpVal) : FpVal × Flags :=
  match x, y with
  | .nan _, _ => (.nan false, sigFlags [x, y])
  | _, .nan _ => (.nan false, sigFlags [x, y])
  | .inf _, .inf _ => (.nan false, flagNV)
  | .inf a, .fin b _ _ _ => (.inf (a != b), 0)
  | .fin a _ _ _, .inf b => (.zero (a != b), 0)
  | .fin n1 m1 e1 _, .fin n2 m2 e2 _ =>
    if m2 = 0 then (if m1 = 0 then (.nan false, flagNV) else (.inf (n1 != n2), flagDZ))
    else if m1 = 0 then (.zero (n1 != n2), 0)
    else
      let k := 96 + bitLen m2
      let a := m1 <<< k
      (.fin (n1 != n2) (a / m2) (e1 - e2 - k) (a % m2 != 0), 0)

/-- The integer square root, bit by bit from `n` down. -/
def isqrtFrom (m : Nat) : Nat → Nat → Nat
  | 0, acc => acc
  | n + 1, acc =>
    let try' := acc + 2 ^ n
    isqrtFrom m n (if try' * try' ≤ m then try' else acc)

/-- The integer square root. -/
def isqrt (m : Nat) : Nat := isqrtFrom m (bitLen m / 2 + 1) 0

/-- sqrt a (R156). -/
def numSqrt (x : FpVal) : FpVal × Flags :=
  match x with
  | .nan s => (.nan false, flagIf s flagNV)
  | .inf neg => if neg then (.nan false, flagNV) else (.inf false, 0)
  | .fin neg m e _ =>
    if m = 0 then (x, 0)
    else if neg then (.nan false, flagNV)
    else
      let k := if e % 2 = 0 then 192 else 193
      let a := m <<< k
      let q := isqrt a
      (.fin false q ((e - k) / 2) (q * q != a), 0)

/-- x < y for numbers that are not NaN; zeros are equal. -/
def numLt (x y : FpVal) : Bool :=
  match x, y with
  | .nan _, _ => false
  | _, .nan _ => false
  | .inf a, .inf b => a && !b
  | .inf a, .fin _ _ _ _ => a
  | .fin _ _ _ _, .inf b => !b
  | .fin n1 m1 e1 _, .fin n2 m2 e2 _ =>
    let e := min e1 e2
    let a : Int := (m1 <<< (e1 - e).toNat : Nat)
    let b : Int := (m2 <<< (e2 - e).toNat : Nat)
    decide ((if n1 then -a else a) < (if n2 then -b else b))

/-- x = y for numbers that are not NaN; zeros are equal (R158). -/
def numEq (x y : FpVal) : Bool := !x.isNan && !y.isNan && !numLt x y && !numLt y x

/-- The comparison of FCMP and VFCMP and its flag (R158). -/
def numCmp (c : FCond) (x y : FpVal) : Bool × Flags :=
  let nan := x.isNan || y.isNan
  match c with
  | .eq => (numEq x y, sigFlags [x, y])
  | .lt => (numLt x y, flagIf nan flagNV)
  | .le => (numLt x y || numEq x y, flagIf nan flagNV)
  | .un => (nan, sigFlags [x, y])

/-- Whether the first of two codes is taken by FMIN (or FMAX): −0 is less than +0 (R157). -/
def minTakesFirst (big : Bool) (x y : FpVal) : Bool :=
  let lt := numLt x y || (x.isZero && y.isZero && x.neg? && !y.neg?)
  let gt := numLt y x || (x.isZero && y.isZero && !x.neg? && y.neg?)
  if big then !lt else !gt

/-- FMIN and FMAX on codes of a format: NaN rules of R157. -/
def FF.minMax (f : FF) (big : Bool) (a b : Nat) : Nat × Flags :=
  let x := f.decode a
  let y := f.decode b
  let r := match x.isNan, y.isNan with
    | true, true => f.nanCode.getD 0
    | true, false => b
    | false, true => a
    | false, false => if minTakesFirst big x y then a else b
  (r, sigFlags [x, y])

/-- The class word (R160). -/
def FF.classify (f : FF) (a : Nat) : Nat :=
  match f.decode a with
  | .nan s => if s then 2 ^ 8 else 2 ^ 9
  | .inf neg => if neg then 2 ^ 0 else 2 ^ 7
  | .fin neg m _ _ =>
    if m = 0 then (if neg then 2 ^ 3 else 2 ^ 4)
    else if m < 2 ^ f.frac then (if neg then 2 ^ 2 else 2 ^ 5)
    else (if neg then 2 ^ 1 else 2 ^ 6)

/-! ### The functions of R175, to far more bits than their rounding needs -/

/-- Fraction bits of the fixed-point values below. -/
def fixBits : Nat := 320

/-- The logarithm's series: `acc + sum term / (2k + 1)` of the terms of atanh(1/3). -/
def atanhThird : Nat → Nat → Nat → Nat → Nat
  | 0, _, _, acc => acc
  | n + 1, k, term, acc => atanhThird n (k + 1) (term / 9) (acc + term / (2 * k + 1))

/-- ln 2 = 2 atanh(1/3) with `fixBits` fraction bits. -/
def ln2Fix : Nat := 2 * atanhThird 110 0 (2 ^ fixBits / 3) 0

/-- The exponential series from term `k` on. -/
def expSeries : Nat → Nat → Nat → Nat → Nat → Nat
  | 0, _, _, _, acc => acc
  | n + 1, k, y, term, acc => expSeries n (k + 1) y (term * y / 2 ^ fixBits / (k + 1)) (acc + term)

/-- 2^x for a finite x with the value `mant * 2^exp`, in correctly rounded precision for FP32 (R175). -/
def numExp2 (x : FpVal) : FpVal × Flags :=
  match x with
  | .nan s => (.nan false, flagIf s flagNV)
  | .inf neg => if neg then (.zero false, 0) else (.inf false, 0)
  | .fin neg m e _ =>
    -- beyond these bounds every result overflows or rounds to a zero or the least subnormal
    let big := decide (8 < (bitLen m : Int) + e)
    if m = 0 then (.fin false 1 0 false, 0)
    else if big then (if neg then .fin false 1 (-400) true else .fin false 1 400 true, 0)
    else
      let v : Int := (m <<< (e + fixBits).toNat : Nat)
      let v := if neg then -v else v
      let n := v / (2 ^ fixBits : Nat)
      let f := (v % (2 ^ fixBits : Nat)).toNat
      if f = 0 then (.fin false 1 n false, 0)
      else
        let y := f * ln2Fix / 2 ^ fixBits
        let r := expSeries 90 0 y (2 ^ fixBits) 0
        (.fin false (r / 2 ^ (fixBits - 200)) (n - 200) true, 0)

/-- The fraction bits of log2 of u in [1, 2), one squaring for each. -/
def log2Bits : Nat → Nat → Nat → Nat
  | 0, _, acc => acc
  | n + 1, u, acc =>
    let sq := u * u / 2 ^ fixBits
    if 2 ^ (fixBits + 1) ≤ sq then log2Bits n (sq / 2) (2 * acc + 1) else log2Bits n sq (2 * acc)

/-- log2 x, in correctly rounded precision for FP32 (R175). -/
def numLog2 (x : FpVal) : FpVal × Flags :=
  match x with
  | .nan s => (.nan false, flagIf s flagNV)
  | .inf neg => if neg then (.nan false, flagNV) else (.inf false, 0)
  | .fin neg m e _ =>
    if m = 0 then (.inf true, flagDZ)
    else if neg then (.nan false, flagNV)
    else
      let l := bitLen m - 1
      let n : Int := e + l
      if m = 2 ^ l then (.ofInt n, 0)
      else
        let q := log2Bits 120 (m <<< (fixBits - l)) 0
        let total : Int := n * (2 ^ 120 : Nat) + q
        if 0 ≤ total then (.fin false total.toNat (-120) true, 0)
        else (.fin true (total.natAbs - 1) (-120) true, 0)

/-- 1 / x (R175). -/
def numRcp (x : FpVal) : FpVal × Flags := numDiv (.fin false 1 0 false) x

/-- 1 / sqrt x (R175). -/
def numRsq (x : FpVal) : FpVal × Flags :=
  match x with
  | .nan s => (.nan false, flagIf s flagNV)
  | .inf neg => if neg then (.nan false, flagNV) else (.zero false, 0)
  | .fin neg m e _ =>
    if m = 0 then (.inf neg, flagDZ)
    else if neg then (.nan false, flagNV)
    else
      let m := if e % 2 = 0 then m else m * 2
      let e := if e % 2 = 0 then e else e - 1
      let k := 96 + bitLen m
      let q := isqrt (2 ^ (2 * k) / m)
      (.fin false q (-(e / 2) - k) (q * q * m != 2 ^ (2 * k)), 0)

/-! ### The stochastic-rounding generator (R277) -/

/-- One step of the shift register. -/
def lfsrStep (s : BitVec 32) : BitVec 32 := if s.getLsbD 0 then (s >>> 1) ^^^ 0x80200003#32 else s >>> 1

/-- `n` steps of the shift register. -/
def lfsrSteps : Nat → BitVec 32 → BitVec 32
  | 0, s => s
  | n + 1, s => lfsrSteps n (lfsrStep s)

/-- The state after one draw, which is the draw itself. -/
def srDraw (s : BitVec 32) : BitVec 32 := lfsrSteps 32 s

/-- A seed: zero becomes 1 (R277). -/
def srSeed (w : BitVec 32) : BitVec 32 := if w = 0 then 1 else w

/-- The rounding mode of FSTAT.RM (R82). -/
def Ctx.rm (x : Ctx) : RMode :=
  match (x.fstat.extractLsb' 0 3).toNat with
  | 0 => .rne | 1 => .rtz | 2 => .rup | 3 => .rdn | _ => .sr

/-- The rounding of an instruction: 0b111 takes FSTAT.RM (R155). -/
def Ctx.rounding (x : Ctx) (m : RMode) : RMode :=
  match m with
  | .dyn => x.rm
  | .rne | .rtz | .rup | .rdn | .sr => m

/-- The context after the draw of a scalar instruction that rounds: one under SR, none else (R155). -/
def Ctx.drawn (x : Ctx) (m : RMode) : Ctx := if m = .sr then { x with srseed := srDraw x.srseed } else x

/-! ### Block scales (R266) -/

/-- The value of an E3M5 code; NaN for 0xFF. -/
def e3m5 (c : BitVec 8) : FpVal :=
  let e := (c.extractLsb' 5 3).toNat
  let m := (c.extractLsb' 0 5).toNat
  if c = 0xFF then .nan false
  else if e = 0 then .fin false m (-7) false
  else .fin false (32 + m) ((e : Int) - 8) false

/-- The value of a block scale in units of 1/128; every code but NaN is an integer there. -/
def e3m5Units (c : Nat) : Nat := if c < 0x20 then c else (32 + c % 32) <<< (c / 32 - 1)

/-- The value of an E2M1 code in units of one half, with its sign (R265). -/
def e2m1Halves (q : Nat) : Int :=
  let m : Int := match q % 8 with
    | 0 => 0 | 1 => 1 | 2 => 2 | 3 => 3 | 4 => 4 | 5 => 6 | 6 => 8 | _ => 12
  if q / 8 % 2 = 1 then -m else m

end Sys2Proof.Machine
end

