-- ==== Sys2Proof/Machine/Operands.lean ====
section
/-! DEFINITION. Operand forms: reads under their policies (R64, R65, R130, R131), captured operands of a re-injected entry
(R87, R132), immediates, elements and lanes of vector registers (R161 to R163), and how an instruction completes. -/

namespace Sys2Proof

/-! ### Element types (R102, R161) -/

/-- Bits of an element. -/
def Ty.width : Ty → Nat
  | .s32 | .z32 | .f32 => 32
  | .s16 | .z16 | .bf16 | .f16 => 16
  | .s8 | .z8 | .e4m3 | .e5m2 => 8
  | .s64 | .z64 | .f64 => 64
  | .e2m1 | .fp4b => 4

/-- Elements of a register of `w` lanes (R161). -/
def Ty.count (t : Ty) (w : Nat) : Nat := w * 32 / t.width

/-- The signed integer types. -/
def Ty.signed : Ty → Bool
  | .s32 | .s16 | .s8 | .s64 => true
  | .z32 | .z16 | .z8 | .z64 | .f32 | .f64 | .bf16 | .f16 | .e4m3 | .e5m2 | .e2m1 | .fp4b => false

/-- The lane whose mask bit governs element `i` (R162). -/
def Ty.laneOf (t : Ty) (i : Nat) : Nat := i * t.width / 32

end Sys2Proof

namespace Sys2Proof.Machine

/-- The floating-point format of a type; the integer types and .fp4b have none of their own and answer E2M1. -/
def ffOf : Ty → FF
  | .f32 => .f32 | .f64 => .f64 | .bf16 => .bf16 | .f16 => .f16 | .e4m3 => .e4m3 | .e5m2 => .e5m2
  | .s32 | .z32 | .s16 | .z16 | .s8 | .z8 | .s64 | .z64 | .e2m1 | .fp4b => .e2m1

/-- The value of an element of an integer type. -/
def intOf (t : Ty) (v : Nat) : Int :=
  if t.signed && v.testBit (t.width - 1) then (v : Int) - (2 ^ t.width : Nat) else v

/-- The range of an integer type (R262). -/
def rangeOf (t : Ty) : Int × Int :=
  if t.signed then (-((2 ^ (t.width - 1) : Nat) : Int), ((2 ^ (t.width - 1) : Nat) : Int) - 1) else (0, ((2 ^ t.width : Nat) : Int) - 1)

/-- An integer wrapped to `w` bits. -/
def wrapTo (w : Nat) (i : Int) : Nat := (i % ((2 ^ w : Nat) : Int)).toNat

/-! ### Reads of source operands (R64, R65, R126) -/

/-- Which source of an instruction a read names: a, b or the implicitly read d (R131). -/
inductive Operand
  | a
  | b
  | d
deriving DecidableEq, Repr

/-- The SUB code of EMPTYREAD under policy 1 (R131). -/
def Operand.sub1 : Operand → BitVec 8
  | .a => 0x00 | .b => 0x01 | .d => 0x01
/-- The SUB code of EMPTYREAD where no producer is in flight (R131). -/
def Operand.sub0 : Operand → BitVec 8
  | .a => 0x10 | .b => 0x11 | .d => 0x12

/-- What the read of an empty register does: under policy 1 it traps; under policy 0 it waits for a producer in flight and
traps where there is none (R64, R65). -/
def Ctx.emptyRead (x : Ctx) (k : Operand) (pol : Bool) (d : Dest) : Stop :=
  if pol then .trap (.emptyRead k.sub1) else if x.inFlight d then .block else .trap (.emptyRead k.sub0)

/-- The value of a scalar source read afresh. -/
def Ctx.read (x : Ctx) (k : Operand) (pol : Bool) (r : SReg) : Issue (BitVec 64) :=
  if x.sFull r then .ok (x.s r) else .error (x.emptyRead k pol (.sreg r))

/-- The value of a vector source (R166). -/
def Ctx.readV (x : Ctx) (k : Operand) (pol : Bool) (r : VReg) : Issue (List Lane) :=
  if x.vFull r then .ok (x.v r) else .error (x.emptyRead k pol (.vreg r))

/-- Operand A: the captured value of a re-injected entry where it has one (R87), else the register. -/
def Ctx.readA (x : Ctx) (pol : Bool) (r : SReg) : Issue (BitVec 64) :=
  match x.injecting with
  | some e => if e.va then .ok e.a else x.read .a pol r
  | none => x.read .a pol r

/-- Operand B, as operand A. -/
def Ctx.readB (x : Ctx) (pol : Bool) (r : SReg) : Issue (BitVec 64) :=
  match x.injecting with
  | some e => if e.vb then .ok e.b else x.read .b pol r
  | none => x.read .b pol r

/-- ILLEGAL, SUB 0x05, as an issue answer. -/
def illegal5 {α : Type} : Issue α := .error (.trap (.illegal 0x05))

/-! ### Immediates (R97, R98, R104, R141) -/

/-- imm11 sign-extended. -/
def sext11 (i : BitVec 11) : BitVec 64 := i.signExtend 64
/-- imm11 zero-extended. -/
def zext11 (i : BitVec 11) : BitVec 64 := i.setWidth 64
/-- imm9 sign-extended and scaled by the access size (R104). -/
def imm9 (i : BitVec 9) (size : Nat) : BitVec 64 := i.signExtend 64 * BitVec.ofNat 64 size

/-! ### Completion of a fixed-latency instruction (R59, R62, R127, R168) -/

/-- A scalar result: sources consumed, destination written and full, l0 pushed. -/
def State.doneS (s : State) (x : Ctx) (uses : List SReg) (d : SReg) (w : BitVec 64) : State :=
  s.retire ((x.useAll uses).result d w) none

/-- No result: sources consumed. -/
def State.done0 (s : State) (x : Ctx) (uses : List SReg) : State := s.retire (x.useAll uses) none

/-- A vector result: sources consumed, destination written and full, vl0 pushed. -/
def State.doneV (s : State) (x : Ctx) (uses : List VReg) (d : VReg) (ls : List Lane) : State :=
  s.retire ((x.useVAll uses).resultV d ls) none

/-! ### Elements and lanes (R161 to R163) -/

/-- The elements of one lane of a type of 32 bits or fewer, lowest first. -/
def laneElems (w : Nat) (d : BitVec 32) : List Nat :=
  (List.range (32 / w)).map fun j => d.toNat / 2 ^ (w * j) % 2 ^ w

/-- The 64-bit elements of a register: lanes in pairs. -/
def pairElems : List Lane → List Nat
  | lo :: hi :: t => (lo.data.toNat + 2 ^ 32 * hi.data.toNat) :: pairElems t
  | [lo] => [lo.data.toNat]
  | [] => []

/-- The elements of a register (R161). -/
def elemsOf (t : Ty) (ls : List Lane) : List Nat :=
  if t.width = 64 then pairElems ls else ls.flatMap fun l => laneElems t.width l.data

/-- The number that elements of `w` bits form, lowest first. -/
def packElems (w : Nat) : List Nat → Nat
  | [] => 0
  | e :: t => e % 2 ^ w + 2 ^ w * packElems w t

/-- Lanes of 64-bit elements. -/
def pairLanes : List Nat → List Lane
  | [] => []
  | e :: t => .plain (BitVec.ofNat 32 e) :: .plain (BitVec.ofNat 32 (e / 2 ^ 32)) :: pairLanes t

/-- `n` lanes of elements of `w` bits. -/
def narrowLanes (w : Nat) : Nat → List Nat → List Lane
  | 0, _ => []
  | n + 1, es => .plain (BitVec.ofNat 32 (packElems w (es.take (32 / w)))) :: narrowLanes w n (es.drop (32 / w))

/-- The `n` lanes that hold elements of a type, their side-bands zero (R163). -/
def lanesOf (t : Ty) (n : Nat) (es : List Nat) : List Lane :=
  if t.width = 64 then pairLanes es else narrowLanes t.width n es

/-- Lane `l` is governed: by its own bit, or by that of the even lane of its pair for a 64-bit type (R162). -/
def governsLane (t : Ty) (m : BitVec 128) (l : Nat) : Bool := m.getLsbD (if t.width = 64 then l / 2 * 2 else l)

/-- Element `i` is governed (R162). -/
def governs (t : Ty) (m : BitVec 128) (i : Nat) : Bool := m.getLsbD (t.laneOf i)

/-- New lanes where they are governed, the old ones elsewhere (R60, R162). -/
def mergeLanes (t : Ty) (m : BitVec 128) (new old : List Lane) : List Lane :=
  (List.zip new old).zipIdx.map fun p => if governsLane t m p.2 then p.1.1 else p.1.2

/-- A register with every element computed by `f` from its number, under a mask. -/
def mapElems (t : Ty) (w : Nat) (m : BitVec 128) (old : List Lane) (f : Nat → Nat) : List Lane :=
  mergeLanes t m (lanesOf t w ((List.range (t.count w)).map f)) old

/-- The union of the flags that governed elements raise (R162, R167). -/
def unionFlags (t : Ty) (m : BitVec 128) (n : Nat) (f : Nat → Flags) : Flags :=
  (List.range n).foldl (fun acc i => if governs t m i then acc ||| f i else acc) 0

/-- The generator states after each of `n` draws (R167). -/
def srDraws : Nat → BitVec 32 → List (BitVec 32)
  | 0, _ => []
  | n + 1, s => srDraw s :: srDraws n (srDraw s)

/-- The draws of an instruction for its `n` element positions: none but under SR. -/
def Ctx.draws (x : Ctx) (m : RMode) (n : Nat) : List Nat :=
  if m = .sr then (srDraws n x.srseed).map BitVec.toNat else []

/-- The context after `n` draws under SR. -/
def Ctx.afterDraws (x : Ctx) (m : RMode) (n : Nat) : Ctx :=
  if m = .sr then { x with srseed := (srDraws n x.srseed).getLastD x.srseed } else x

end Sys2Proof.Machine
end

