-- ==== Sys2Proof/Machine/Translate.lean ====
section
/-! DEFINITION. Addresses: where cells and lines lie (R4, R390, R391), page tables and their walks (R380 to R383), translation
caches (R193), and the translation of a task's access (R193, R194, R305). -/

namespace Sys2Proof.Machine

/-! ### Lease registers (R371, R376) -/

/-- The F-dies that a lease owns, by rising number. -/
def Lease.dies (l : Lease) : List Nat := (List.range 4).filter fun i => l.memReg.getLsbD i
/-- Frames of lease memory on each owned die. -/
def Lease.framesPerDie (l : Lease) : Nat := (l.memReg.extractLsb' 8 17).toNat
/-- Frames reserved on each owned die. -/
def Lease.resv (l : Lease) : Nat := (l.memReg.extractLsb' 32 9).toNat
/-- The host port of a lease (R376). -/
def Lease.port (l : Lease) : Nat := (l.host.extractLsb' 0 2).toNat
/-- The Splice port that carries the lease's host port: 0 for host ports 0 and 1, 1 for 2 and 3, the other where that one is absent
(R361). -/
def Lease.splice (l : Lease) : Nat := if Config.spliceAbsent (l.port / 2) then 1 - l.port / 2 else l.port / 2
/-- The bytes of a lease's physical space: FRAMES × k × 2 MiB (R390). -/
def Lease.bytes (l : Lease) : Nat := l.framesPerDie * l.dies.length * Config.frameBytes
/-- The hash seed. -/
def Lease.seed (l : Lease) : Nat := l.hash.toNat % 2 ^ 32
/-- The lease-physical address of the level 0 table. -/
def Lease.root (l : Lease) : Nat := (l.pt.extractLsb' 12 40).toNat * 4096
/-- The carve-out limit in MiB. -/
def Lease.carveLimit (l : Lease) : Nat := (l.carveReg.extractLsb' 0 10).toNat

/-! ### Placement (R4, R390, R391) -/

/-- The F-die of a fabric position (R4). -/
def dieAt (x y : Nat) : Nat := x / 64 % 2 + 2 * (y / 32 % 2)

/-- The F-die of a cell of a rectangle. -/
def State.dieOf (s : State) (k : CellId) : Nat :=
  match s.rect? k.slot with
  | some r => dieAt (r.col0 + k.col) (r.row0 + k.row)
  | none => 0

/-- The helper H of R390. -/
def hashH (seed v : Nat) : Nat := (v ^^^ seed) * 0x9E3779B1 % 2 ^ 32 / 65536

/-- The die and slice of a lease-physical address (R390). -/
def Lease.homeOf (l : Lease) (a : Nat) : Nat × Nat :=
  let k := l.dies.length
  let ln := a / 128
  let q := ln / k
  let j := (ln % k + hashH l.seed q) % k
  let o := q % 16384
  (l.dies.getD j 0, (o ^^^ hashH l.seed (q / 16384)) % 64)

/-- The die and slice of an offset of a lease's carve-out (R391). -/
def Lease.carveHome (l : Lease) (off : Nat) : Nat × Nat :=
  let k := l.dies.length
  let c := off / 128
  (l.dies.getD (c % k) 0, c / k % 64)

/-- The home slice of a place, numbered die × 64 + slice; host memory and remote devices have none (R287). -/
def State.sliceOf (s : State) (l : Loc) : Option Nat :=
  match l with
  | .dev ls a => let p := (s.lease ls).homeOf a; some (p.1 * 64 + p.2)
  | .carve ls off => let p := (s.lease ls).carveHome off; some (p.1 * 64 + p.2)
  | .host _ | .remote _ _ _ => none

/-! ### Page tables (R380 to R382) -/

/-- How a walk ends. -/
inductive WalkEnd
  | found (leaf : Leaf) (bytes : Nat) (w : Bool)
  | absent (entry : Nat) (value : Nat) (bytes : Nat)
  | unmapped (malformed : Bool)
deriving DecidableEq, Repr

/-- The index of a virtual address at a level. -/
def walkIndex (level va : Nat) : Nat :=
  match level with
  | 0 => va / 2 ^ 48 % 512
  | 1 => va / 2 ^ 39 % 512
  | 2 => va / 2 ^ 30 % 512
  | 3 => va / 2 ^ 21 % 512
  | _ => va / 2 ^ 16 % 32

/-- The bytes of a page that a leaf of a level maps. -/
def leafBytes (level : Nat) : Nat :=
  match level with
  | 2 => 2 ^ 30
  | 3 => 2 ^ 21
  | _ => 2 ^ 16

/-- The fields of an entry that R381 requires zero are zero. -/
def entryZeros (e : BitVec 64) (level : Nat) : Bool :=
  let tgt := (e.extractLsb' 62 2).toNat
  let leaf := e.getLsbD 3
  e.extractLsb' 4 4 == 0 &&
    (if tgt = 0 && !leaf then e.extractLsb' 52 10 == 0 && (2 < level || e.extractLsb' 8 4 == 0)
     else if tgt = 2 then e.extractLsb' 8 2 == 0
     else e.extractLsb' 52 10 == 0 && e.extractLsb' 8 8 == 0)

/-- The target of a leaf. -/
def entryLeaf (e : BitVec 64) : Leaf :=
  match (e.extractLsb' 62 2).toNat with
  | 0 => .dev ((e.extractLsb' 16 36).toNat * 65536)
  | 1 => .host ((e.extractLsb' 16 36).toNat * 65536)
  | _ => .remote (e.extractLsb' 42 20).toNat (e.extractLsb' 34 8).toNat ((e.extractLsb' 10 24).toNat * 65536)

/-- The first address of a leaf's page. -/
def Leaf.addr : Leaf → Nat
  | .dev a => a
  | .host a => a
  | .remote _ _ a => a

/-- An entry is malformed (R382): its target code, a field that has to be zero, an L that its level forbids, a pointer that is
not a leaf with a target other than a table, a misaligned page, or a device page outside the lease's memory. -/
def malformedEntry (l : Lease) (e : BitVec 64) (level : Nat) : Bool :=
  let tgt := (e.extractLsb' 62 2).toNat
  let leaf := e.getLsbD 3
  tgt == 3 || !entryZeros e level || (leaf && decide (level < 2)) || (!leaf && (decide (4 ≤ level) || tgt != 0)) ||
    (leaf && (entryLeaf e).addr % leafBytes level != 0) ||
    (leaf && tgt == 0 && decide (l.bytes ≤ (entryLeaf e).addr))

/-- A walk from a table at a level, with `n` levels to go (R382). A table at or beyond the end of the frames reads as zeros, and so maps nothing:
DESIGN CHOICE (log entry 128). -/
def walkFrom (mem : Mem) (lease : Nat) (l : Lease) (va : Nat) : Nat → Nat → Nat → WalkEnd
  | 0, _, _ => .unmapped true
  | n + 1, level, table =>
    let at' := table + 8 * walkIndex level va
    let v := leNat (mem.readAt (fun i => Loc.key (.dev lease (at' + i))) 0 8)
    let e : BitVec 64 := BitVec.ofNat 64 v
    if !e.getLsbD 0 then .unmapped false
    else if malformedEntry l e level then .unmapped true
    else if !e.getLsbD 1 then .absent at' v (leafBytes level)
    else if e.getLsbD 3 then .found (entryLeaf e) (leafBytes level) (e.getLsbD 2)
    else walkFrom mem lease l va n (level + 1) ((e.extractLsb' 8 44).toNat * 256)

/-- The first address of the carve-out. -/
def carveBase : Nat := 0x01FF000000000000

/-- The walk of a virtual address of a lease (R380, R382); the carve-out has none, so level 0 entry 511 is never read. -/
def State.walkOf (s : State) (lease va : Nat) : WalkEnd :=
  if carveBase ≤ va then .unmapped false else walkFrom s.mem lease (s.lease lease) va 5 0 (s.lease lease).root

/-! ### Translation caches (R193, R383) -/

/-- The cached translation of an address. -/
def lookup (es : List TlbEntry) (lease va : Nat) : Option TlbEntry :=
  es.find? fun e => e.lease == lease && decide (e.va ≤ va) && decide (va < e.va + e.bytes)

/-- A cache with an entry added; a full one drops one of its own. -/
def fillCache (cap pick : Nat) (es : List TlbEntry) (e : TlbEntry) : List TlbEntry :=
  e :: (if es.length < cap then es else es.eraseIdx (pick % es.length))

/-- The place of an address under a translation. Host memory is one for all leases and both host ports: DESIGN CHOICE (log entry 122). -/
def TlbEntry.loc (e : TlbEntry) (va : Nat) : Loc :=
  let off := va - e.va
  match e.leaf with
  | .dev a => .dev e.lease (a + off)
  | .host a => .host (a + off)
  | .remote n r a => .remote n r (a + off)

/-- The entry that a found walk makes. -/
def tlbEntry (lease va : Nat) (leaf : Leaf) (bytes : Nat) (w : Bool) : TlbEntry := ⟨lease, va - va % bytes, bytes, leaf, w⟩

/-- The cached translation that a context uses: its own cache, then its die's shared TLB. -/
def State.cached (s : State) (c : CtxId) (x : Ctx) (va : Nat) : Option TlbEntry :=
  match lookup x.tcache x.lease va with
  | some e => some e
  | none => lookup ((Tab.get? s.homes.tlbs (s.dieOf c.cell)).getD []) x.lease va

/-! ### The translation of a task's access (R191, R193, R305, R391) -/

/-- A watch covers one of `n` bytes from an address, for a read or a write (R194). -/
def Watch.hits (k : Watch) (pad : Bool) (a n : Nat) (write : Bool) : Bool :=
  k.pad == pad && decide (k.first < a + n) && decide (a < k.first + k.bytes) && (if write then k.write else k.read)

/-- WATCH, where a debugger of the lease watches one of the bytes: the last check of an access (R194). -/
def State.watch (s : State) (lease : Nat) (pad : Bool) (a n : Nat) (write : Bool) : Issue Unit :=
  if (s.lease lease).watches.any fun k => k.hits pad a n write then .error (.trap (.watch write (BitVec.ofNat 64 a))) else pure ()

/-- The operations that the host memory system executes (R305). -/
def hostAmo (fn : AmoFn) : Bool :=
  match fn with
  | .add | .swap | .cas => true
  | .and | .or | .xor | .min | .max | .minz | .maxz | .fadd => false

/-- The place of one access, or why it has none: storage of the carve-out not yet available makes it wait (R260). -/
def State.translate (s : State) (c : CtxId) (x : Ctx) (va : Nat) (write : Bool) (fn : Option AmoFn) : Issue Loc :=
  let a : BitVec 64 := BitVec.ofNat 64 va
  if 2 ^ 57 ≤ va then .error (.trap (.access 0x00 a))
  else if carveBase ≤ va then
    if (s.lease x.lease).grant * 1048576 ≤ va - carveBase then .error (.trap (.access 0x08 a))
    else if (s.lease x.lease).granted * 1048576 ≤ va - carveBase then .error .block
    else .ok (.carve x.lease (va - carveBase))
  else
    match s.cached c x va with
    | some e =>
      if write && !e.w then .error (.trap (.access 0x05 a))
      else if (e.loc va).isHost && fn.any (fun f => !hostAmo f) then .error (.trap (.access 0x06 a))
      else .ok (e.loc va)
    | none =>
      match x.walk.failed.find? fun p => p.1 == va / 65536 with
      | some p => .error (.trap (.page (if write then 1 else 0) a p.2))
      | none => .error (.walk ⟨x.lease, va, write, some c, s.dieOf c.cell⟩)

/-- The translation of an engine's or the hub's access, which waits for its walk inside its own step. -/
inductive EngineLoc
  | found (l : Loc)
  | absent
  | refused (cause sub : Nat) (detail : Nat)
deriving DecidableEq, Repr

/-- The lease of a place covers the slice: the check of a slice's access table (R392). What the table of another device says is not
known (R374). -/
def State.covers (s : State) (lease : Nat) (l : Loc) : Bool :=
  match l with
  | .dev ls _ | .carve ls _ => ls == lease && (s.lease ls).state != .none
  | .host _ => true
  | .remote _ _ _ => Config.remoteAdmits s.clock.tick

/-- The lease owns the frame of a place: the check of a pseudo-channel controller's access table (R392). -/
def State.ownsFrame (s : State) (l : Loc) : Bool :=
  match l with
  | .dev ls a => decide (a < (s.lease ls).bytes)
  | .carve _ _ | .host _ | .remote _ _ _ => true

/-- A request of a lease passes the access tables of its target (R392). -/
def State.admits (s : State) (lease : Nat) (l : Loc) : Bool := s.covers lease l && s.ownsFrame l

/-- The kind of the table that refuses it, the SUB of the ACCESS cause (R392). -/
def State.refusal (s : State) (lease : Nat) (l : Loc) : Nat := if s.covers lease l then 0x40 else 0x41

/-- A place that an access tables check of its target may refuse, as an engine, the hub or the host meets it (R363, R392). -/
def State.checked (s : State) (lease : Nat) (l : Loc) : EngineLoc :=
  if s.admits lease l then .found l else .refused 0x05 (s.refusal lease l) (s.refusal lease l)

/-- The place of an access to a virtual address of a lease by an engine, through the shared TLB of its die, or by the hub or
the host, which walk each time (R383). -/
def State.engineLoc (s : State) (die : Option Nat) (lease va : Nat) (write : Bool) : EngineLoc :=
  if 2 ^ 57 ≤ va then .refused 0x05 0x00 0
  else if carveBase ≤ va then
    if (s.lease lease).grant * 1048576 ≤ va - carveBase then .refused 0x05 0x08 0
    else if (s.lease lease).granted * 1048576 ≤ va - carveBase then .absent
    else s.checked lease (.carve lease (va - carveBase))
  else
    match die.bind fun d => lookup ((Tab.get? s.homes.tlbs d).getD []) lease va with
    | some e => if write && !e.w then .refused 0x05 0x05 0 else s.checked lease (e.loc va)
    | none =>
      match s.walkOf lease va with
      | .found leaf bytes w =>
        if write && !w then .refused 0x05 0x05 0 else s.checked lease ((tlbEntry lease va leaf bytes w).loc va)
      | .absent _ _ _ => .absent
      | .unmapped m => .refused 0x04 (if write then 1 else 0) (if m then 2 else 1)

/-- A translation entered in the shared TLB of a die (R383). -/
def State.fillTlb (s : State) (die : Nat) (e : TlbEntry) : State :=
  let es := (Tab.get? s.homes.tlbs die).getD []
  { s with homes := { s.homes with
      tlbs := Tab.put s.homes.tlbs die (fillCache Config.sharedTlb (Config.dropEntry s.tick) es e) } }.bump

/-- The shared TLB after an engine's access: a walk that found the page fills it (R383). -/
def State.engineFill (s : State) (die lease va : Nat) : State :=
  if carveBase ≤ va ∨ (lookup ((Tab.get? s.homes.tlbs die).getD []) lease va).isSome then s
  else
    match s.walkOf lease va with
    | .found leaf bytes w => s.fillTlb die (tlbEntry lease va leaf bytes w)
    | .absent _ _ _ | .unmapped _ => s

end Sys2Proof.Machine
end

