-- ==== Sys2Proof/Machine/Memory.lean ====
section
/-! DEFINITION. The instructions that reach outside their context: loads, stores, presence-bit accesses, phase exchange,
atomics, deques, synchronisation and command issue, up to the request that leaves the cell (R191 to R221, R307, R353). -/

namespace Sys2Proof

/-! ### Places and requests -/

/-- Two places of global storage are in one space. -/
def Loc.sameSpace : Loc → Loc → Bool
  | .dev l _, .dev m _ => l == m
  | .carve l _, .carve m _ => l == m
  | .host _, .host _ => true
  | .remote n r _, .remote m q _ => n == m && r == q
  | _, _ => false

/-- The context that an answer goes to. -/
def ReplyTo.ctx? : ReplyTo → Option CtxId
  | .ctxReply c _ _ _ _ | .ctxAck c _ _ _ _ => some c
  | ReplyTo.none | .split _ | .node _ _ _ _ | .host _ _ => Option.none

/-- Where the answer of a request goes. -/
def Req.reply : Req → ReplyTo
  | .rw r => r.reply
  | .amo r => r.reply
  | .dq r => r.reply
  | .acquire r | .release r => r.reply
  | .waita r => r.reply
  | .pad r => r.reply
  | .pres r => r.reply
  | .node slot idx tag _ => ReplyTo.node slot idx tag Option.none
  | .chunk _ _ _ _ => ReplyTo.none

/-- The event of a request that reaches its target. -/
def Req.event : Req → Event
  | .rw r => .homeReadWrite r
  | .amo r => .homeAtomic r
  | .dq r => .homeDequeOp r
  | .acquire r => .homeAcquireRequest r
  | .release r => .homeRelease r
  | .waita r => .homeWaitaRequest r
  | .pad r => .scratchpadPortAccess r
  | .pres r => .presencePortRequest r
  | .node slot idx tag _ => .nodeReadResponse slot idx tag
  | .chunk p id k _ => .copyChunkLand p id k

/-- The request that an event carries, on its way to its target or waiting to be resent. -/
def Event.req? : Event → Option Req
  | .homeReadWrite r => some (.rw r)
  | .homeAtomic r => some (.amo r)
  | .homeDequeOp r => some (.dq r)
  | .homeAcquireRequest r => some (.acquire r)
  | .homeRelease r => some (.release r)
  | .homeWaitaRequest r | .waitaHostPoll r => some (.waita r)
  | .scratchpadPortAccess r => some (.pad r)
  | .presencePortRequest r => some (.pres r)
  | .retryResend r | .evictionResend r | .linkRetransmission r => some r
  | _ => none

/-- A scope at which a later read is served at the home (R296). -/
def Scope.wide : Scope → Bool
  | .cell | .crew => false
  | .rect | .dev | .sys => true

end Sys2Proof

namespace Sys2Proof.Machine


/-- Two byte ranges meet. -/
def meets (a n b m : Nat) : Bool := decide (a < b + m) && decide (b < a + n)

/-- Two places overlap. -/
def Place.meets : Place → Place → Bool
  | .mem a n, .mem b m => a.sameSpace b && Machine.meets a.addr n b.addr m
  | .pad c a n f, .pad d b m g => c == d && f == g && Machine.meets a n b m
  | _, _ => false

/-- The place that a request touches: a synchronisation request names no byte that another access of its context reads or
writes, and an engine keeps no order among its own requests (R228, R299). -/
def reqPlace : Req → Option Place
  | .rw r => some (.mem r.loc r.bytes)
  | .amo r => some (.mem r.loc 8)
  | .dq r => some (.mem r.loc 64)
  | .acquire _ | .release _ => none
  | .waita r => some (.mem r.loc (if r.w32 then 4 else 8))
  | .pad r => some (.pad r.cell r.off r.bytes r.back)
  | .pres r => some (.pad r.cell r.off 8 false)
  | .node _ _ _ _ | .chunk _ _ _ _ => none

/-- The slice of a place as an answer names it: one more than its number, 0 where there is none. -/
def State.sliceNo (s : State) (l : Loc) : Nat := (s.sliceOf l).elim 0 (· + 1)

/-! ### Addresses and checks (R191, R192, R194, R195) -/

/-- ALIGN, unless the address is a multiple of `n` (R192). -/
def checkAlign (a n : Nat) (addr : BitVec 64) : Issue Unit := if a % n = 0 then .ok () else .error (.trap (.align addr))

/-- The bytes of a scratchpad that p: and c: reach (R70). -/
def Cell.limit (k : Cell) : Nat := if k.xch then Config.halfBytes else Config.padBytes

/-- The offset of a p: access (R191). -/
def padOffset (k : Cell) (base : BitVec 64) (imm : BitVec 9) (size bytes : Nat) : Issue Nat := do
  let a := base + imm9 imm size
  checkAlign a.toNat size a
  if k.limit < a.toNat + bytes then .error (.trap (.access 0x03 a)) else pure a.toNat

/-- The base word of a remote access with the immediate added to its OFFSET (R73, R191). -/
def remoteWord (base : BitVec 64) (imm : BitVec 9) (size : Nat) : Nat × BitVec 64 :=
  let off := (base.extractLsb' 0 17).toNat + imm.toNat * size
  (off, BitVec.ofNat 64 (base.toNat / 2 ^ 17 * 2 ^ 17 + off))

/-- The target of a c: or x: access, `dx` columns and `dy` rows from the cell that the base word names (R74, R191, R204). -/
def State.remoteTarget (s : State) (c : CtxId) (base : BitVec 64) (imm : BitVec 9) (size bytes dx dy : Nat) (back : Bool) :
    Issue (CellId × Nat) := do
  let (off, word) := remoteWord base imm size
  checkAlign off size word
  let k : CellId := ⟨c.slot, (base.extractLsb' 56 7).toNat + dx, (base.extractLsb' 48 6).toNat + dy⟩
  match s.rect? c.slot, s.cell? k with
  | some r, some t =>
    if r.image.w ≤ k.col || r.image.h ≤ k.row then .error (.trap (.access 0x01 word))
    else if base.getLsbD 63 || base.extractLsb' 54 2 != 0 || base.extractLsb' 17 31 != 0 then
      .error (.trap (.access 0x02 word))
    else if 2 ^ 17 ≤ off then .error (.trap (.access 0x03 word))
    else if back && !t.xch then .error (.trap (.access 0x04 word))
    else if (if back then Config.halfBytes else t.limit) < off + bytes then .error (.trap (.access 0x03 word))
    else pure (k, off)
  | _, _ => .error (.trap (.access 0x01 word))

/-- The base word of a place in a scratchpad of the rectangle (R73). -/
def padWord (k : CellId) (off : Nat) : Nat := k.col * 2 ^ 56 + k.row * 2 ^ 48 + off

/-- WATCH for bytes of a scratchpad (R194). -/
def State.watchPad (s : State) (x : Ctx) (k : CellId) (off n : Nat) (write : Bool) : Issue Unit :=
  s.watch x.lease true (padWord k off) n write

/-- The target of a c: or x: access with every check of R194 made. -/
def State.padReach (s : State) (x : Ctx) (base : BitVec 64) (imm : BitVec 9) (n dx dy : Nat) (back write : Bool) :
    Issue (CellId × Nat) := do
  let (k, off) ← s.remoteTarget s.cur base imm n n dx dy back
  s.watchPad x k off n write
  pure (k, off)

/-- The place of a global access with every check of R194 made. -/
def State.reach (s : State) (x : Ctx) (va n : Nat) (write : Bool) (fn : Option AmoFn) : Issue Loc := do
  let l ← s.translate s.cur x va write fn
  s.watch x.lease false va n write
  pure l

/-- The virtual address of a global format-M access, aligned (R191, R192). -/
def globalVa (base : BitVec 64) (imm : BitVec 9) (size : Nat) : Issue Nat := do
  let va := base + imm9 imm size
  checkAlign va.toNat size va
  pure va.toNat

/-- The member cells of the crew of a context, the lead first (R37, R38). -/
def Ctx.members (x : Ctx) (c : CtxId) : List CellId :=
  let n := x.width / 8
  let cols := if n ≤ 1 then 1 else if n ≤ 4 then 2 else 4
  (List.range n).map fun m => ⟨c.slot, c.col + m % cols, c.row + m / cols⟩

/-- The pieces of `n` bytes from a virtual address, none of which leaves its 128-byte line: offset, address, bytes. -/
def linePieces : Nat → Nat → Nat → Nat → List (Nat × Nat × Nat)
  | 0, _, _, _ => []
  | fuel + 1, off, va, n =>
    if n = 0 then [] else
      let k := min n (128 - va % 128)
      (off, va, k) :: linePieces fuel (off + k) (va + k) (n - k)

/-- A list of checks made in order: the first that fails decides. -/
def forAll {α β : Type} (f : α → Issue β) : List α → Issue (List β)
  | [] => pure []
  | a :: as => do
    let b ← f a
    let bs ← forAll f as
    pure (b :: bs)

/-- The first piece of one access whose translation is not known yet: it is waited for before any PAGE is raised (R194). -/
def firstWait {α : Type} (f : α → Issue Loc) : List α → Issue Unit
  | [] => pure ()
  | a :: as =>
    match f a with
    | .error .block => .error .block
    | .error (.walk w) => .error (.walk w)
    | _ => firstWait f as

/-- The first ACCESS among the pieces of one access precedes every PAGE (R194). -/
def firstAccess {α : Type} (f : α → Issue Loc) : List α → Issue Unit
  | [] => pure ()
  | a :: as =>
    match f a with
    | .error (.trap t) => if t.cause = 0x05 then .error (.trap t) else firstAccess f as
    | _ => firstAccess f as

/-! ### Scratchpad words (R70 to R72, R200, R201) -/

/-- The byte of a cell's 128 KiB at an offset of the addressed part or of the back half (R70). -/
def Cell.phys (k : Cell) (off : Nat) (back : Bool) : Nat :=
  if k.xch && k.front != back then Config.halfBytes + off else off

/-- The port has taken no access in this cycle that comes after place `n` of the order of one cycle (R72). -/
def Cell.portFree (k : Cell) (now n : Nat) : Bool := k.port.1 != now || decide (k.port.2 ≤ n)

/-- The port after an access at place `n`. -/
def Cell.portTook (k : Cell) (now n : Nat) : Cell := { k with port := (now, n) }

/-- The place of an XBAR's swap in the port's order of one cycle: before any access (R205). -/
def swapOrder : Nat := 0

/-- The place of a local access in the port's order of one cycle (R72). -/
def localOrder : Nat := 1

/-- The place of a streamer's writes in the port's order of one cycle (R72). -/
def streamerOrder : Nat := 35

/-- The place of a context's access in the port's order of one cycle: local accesses, those over the crossbar of the 8 × 4 cluster by
source cell, those over the mesh (R72, R74). Of a crew's access to other cells every part has the lead's cell for its source, and no part
is local but one at that cell: DESIGN CHOICE (log entry 117). -/
def State.portOrder (s : State) (dst : ReplyTo) (k : CellId) : Nat :=
  match dst.ctx?, s.rect? k.slot with
  | some c, some r =>
    let (x, y, u, v) := (r.col0 + c.col, r.row0 + c.row, r.col0 + k.col, r.row0 + k.row)
    if c.cell = k then localOrder else if x / 8 = u / 8 ∧ y / 4 = v / 4 then 2 + (y % 4 * 8 + x % 8) else 34
  | _, _ => 34

/-- Bytes of a scratchpad. -/
def Cell.get (k : Cell) (off n : Nat) (back : Bool) : List Byte := k.pad.readAt (fun i => k.phys (off + i) back) 0 n

/-- A scratchpad word, by number, is full. -/
def Cell.isFull (k : Cell) (word : Nat) : Bool := !k.empties.contains word
/-- A scratchpad word marked full or empty. -/
def Cell.mark (k : Cell) (word : Nat) (full : Bool) : Cell :=
  if full then { k with empties := k.empties.filter (· != word) }
  else { k with empties := word :: k.empties.filter (· != word) }
/-- Words `w` to `w + n - 1` marked full. -/
def Cell.markAll (k : Cell) (w : Nat) : Nat → Cell
  | 0 => k
  | n + 1 => (k.markAll w n).mark (w + n) true

/-- Bytes written, and every word they touch set full (R71). -/
def Cell.put (k : Cell) (off : Nat) (bs : List Byte) (back : Bool) : Cell :=
  let a := k.phys off back
  { k with pad := k.pad.writeAt (fun i => a + i) 0 bs }.markAll (a / 8) ((a + bs.length - 1) / 8 - a / 8 + 1)

/-! ### Answers -/

/-- The answer of a request, in its packet's class (R354): to a context, a switch or a memory node a packet, to the host port the end of
its access. -/
def State.answer (s : State) (cls : Nat) (dst : ReplyTo) (v : Payload) : State :=
  match dst with
  | .none => s
  | .ctxReply _ _ _ _ _ | .node _ _ _ _ => s.post cls (.replyArrival dst v)
  | .ctxAck c h tag slice seq => s.post cls (.ackArrival c h tag slice seq)
  | .split entry => s.post cls (.combinedReplySplit entry v)
  | .host _ id =>
    let bs := match v with
      | .word w => leBytes 8 w.toNat
      | .nothing | .lanes _ => []
    { s with host := { s.host with answers := s.host.answers ++ [(id, bs)] } }

/-- Lanes of 4 bytes each from `lane` on, each with its side-band. -/
def lanesOfBytes (band : Nat → BitVec 8 × BitVec 16) : Nat → Nat → Nat → List Byte → List (Nat × Lane)
  | 0, _, _, _ => []
  | n + 1, lane, off, bs =>
    (lane, (⟨BitVec.ofNat 32 (leNat (bs.take 4)), (band off).1, (band off).2⟩ : Lane)) ::
      lanesOfBytes band n (lane + 1) (off + 4) (bs.drop 4)

/-- What a read of bytes answers: lanes for a vector request, a zero-extended word else (R196). -/
def readPayload (vec : Bool) (lane0 : Nat) (band : Nat → BitVec 8 × BitVec 16) (bs : List Byte) : Payload :=
  if vec then .lanes (lanesOfBytes band (bs.length / 4) lane0 0 bs) else .word (BitVec.ofNat 64 (leNat bs))

/-- No side-band. -/
def noBand (_ : Nat) : BitVec 8 × BitVec 16 := (0, 0)

/-- The value of a parked request's word and its effect on the word, where the word's state allows it (R200). -/
def Cell.presence (k : Cell) (r : PresReq) : Option (Cell × Payload) :=
  let word := k.phys r.off false / 8
  let v := BitVec.ofNat 64 (leNat (k.get r.off 8 false))
  match r.op with
  | .ldf => if k.isFull word then some (k.mark word false, .word v) else none
  | .ldp => if k.isFull word then some (k, .word v) else none
  | .ste d => if k.isFull word then none else some (k.put r.off (leBytes 8 d.toNat) false, .nothing)

/-- The parked request that a port takes next on a word: every LDP before the first LDF of a full word, the first STE of an
empty one (R201). -/
def Cell.nextParked (k : Cell) (word : Nat) : Option PresReq :=
  let here := k.parked.filter fun r => k.phys r.off false / 8 == word
  if k.isFull word then
    match here.find? fun r => r.op == .ldp with
    | some r => some r
    | none => here.find? fun r => r.op == .ldf
  else here.find? fun r => r.op != .ldp && r.op != .ldf

/-- The requests parked on a word taken after the word changed state (R201). -/
def State.wakeParked (s : State) (id : CellId) (word : Nat) : Nat → State
  | 0 => s
  | fuel + 1 =>
    match s.cell? id with
    | none => s
    | some k =>
      match k.nextParked word with
      | none => s
      | some r =>
        match k.presence r with
        | none => s
        | some (k2, v) =>
          ((s.setCell id { k2 with parked := k2.parked.erase r }).answer r.cls r.reply v).wakeParked id word fuel

/-- A scratchpad with bytes written at its port: every word touched is full, and what is parked on it is taken
(R71, R201). -/
def State.padPut (s : State) (id : CellId) (off : Nat) (bs : List Byte) (back : Bool) : State :=
  match s.cell? id with
  | none => s
  | some k =>
    let a := k.phys off back
    let words := (List.range ((a + bs.length - 1) / 8 - a / 8 + 1)).map (· + a / 8)
    words.foldl (fun t w => if k.isFull w then t else t.wakeParked id w (k.parked.length + 1)) (s.setCell id (k.put off bs back))

/-- Bytes of a scratchpad's addressed part. -/
def State.padGet (s : State) (id : CellId) (off n : Nat) : List Byte :=
  match s.cell? id with
  | none => []
  | some k => k.get off n false

/-! ### Limits and order (R86, R199, R207, R353) -/

/-- The distinct slices among those of several requests (R353). -/
def distinct (ks : List Nat) : List Nat := (ks.filter (· != 0)).eraseDups

/-- Permits that a cell holds towards a slice: 4 on its own die, 1 on another (R353). -/
def State.permitLimit (s : State) (k : CellId) (n : Nat) : Nat := if (n - 1) / 64 = s.dieOf k then 4 else 1

/-- The permits that requests to these slices need are free. -/
def State.permitsFree (s : State) (k : CellId) (slices : List Nat) : Bool :=
  match s.cell? k with
  | some c => (distinct slices).all fun n => decide ((c.permits.filter (· == n)).length < s.permitLimit k n)
  | none => true

/-- A context's older write that is not yet acknowledged overlaps one of the places (R199). -/
def Ctx.overlapsTag (x : Ctx) (ps : List Place) : Bool := x.tags.any fun t => t.places.any fun p => ps.any fun q => p.meets q

/-- A request of the context on its way touches one of the places. -/
def State.onItsWay (s : State) (c : CtxId) (ps : List Place) : Bool :=
  s.net.agenda.any fun f =>
    match f.ev.req? with
    | some r => r.reply.ctx? == some c && (reqPlace r).any fun p => ps.any fun q => p.meets q
    | none => false

/-- DQPOP and DQSTEAL. -/
def isTake : Instr → Bool
  | .dqpop _ | .dqsteal _ => true
  | _ => false

/-- An atomic or deque request that is answered (R207). -/
def isUpdate : Instr → Bool
  | .amo _ | .amoC _ | .dqpush _ | .dqpop _ | .dqsteal _ => true
  | _ => false

/-- An instruction that writes before its answer comes: an atomic, a deque operation, an STE (R199, R206). -/
def writesFirst : Instr → Bool
  | .ste _ => true
  | i => isUpdate i

/-- A read of another cell's scratchpad (R353). -/
def isRemoteRead : Instr → Bool
  | .ldB o | .ldH o | .ldW o | .ldD o | .ldv o => o.sp == .c || o.sp == .x
  | .ldf o | .ldp o => o.sp != .p
  | _ => false

/-- A read, returning atomic or acquire, for whose reply a FENCE.acq waits (R217). -/
def isRead : Instr → Bool
  | .ldB _ | .ldH _ | .ldW _ | .ldD _ | .ldv _ | .ldg _ | .ldf _ | .ldp _ | .amo _ | .amoC _ | .dqpop _ | .dqsteal _ | .acq _
  | .acqs _ => true
  | _ => false

/-- Unanswered atomic and deque requests of a context (R207). -/
def Ctx.atomics (x : Ctx) : Nat :=
  (x.pend.filter Pend.atomic).length + (x.tags.filter fun t => t.seq.isSome).length +
    ((x.rq ++ x.inject).filter fun e => e.inflight isUpdate).length
/-- Unanswered remote-cell reads of a context (R353). -/
def Ctx.remoteReads (x : Ctx) : Nat :=
  (x.pend.filter Pend.remote).length + ((x.rq ++ x.inject).filter fun e => e.inflight isRemoteRead).length

/-- A DQPOP or DQSTEAL of the context has not answered: it may be an acquire, which every younger read follows (R291, R292). -/
def Ctx.takeLeft (x : Ctx) : Bool := x.pend.any (fun p => isTake p.instr) || x.rq.any fun e => e.inflight isTake

/-- The identity of a context as a source (R207). -/
def Ctx.src (x : Ctx) (c : CtxId) : Src := .task x.lease x.handle x.node c.ctx

/-! ### Requests leave the cell -/

/-- One request of an instruction: its slice (0: none), the place it touches, and the request for a given answer. -/
structure Out where
  slice : Nat
  place : Place
  req : ReplyTo → Req

/-- The destination set empty at issue (R62, R63). -/
def Ctx.await (x : Ctx) (d : Dest) : Ctx :=
  match d with
  | .none => x
  | .sreg r => x.markS r false
  | .vreg r => x.markV r false

/-- The permits of an instruction's requests taken together (R353). -/
def State.takePermits (s : State) (k : CellId) (slices : List Nat) : State :=
  s.modCell k fun c => { c with permits := c.permits ++ distinct slices }

/-- What an unfinished instruction waits for. -/
structure Kind where
  hold : Bool
  atomic : Bool
  remote : Bool

/-- The requests of an unfinished instruction leave the cell, once there is room for them: its destination is empty, its entry
stands among the unfinished ones, and fetch goes on (R62, R63, R86, R199, R207, R291, R353). -/
def State.sendLong (s : State) (x : Ctx) (i : Instr) (d : Dest) (k : Kind) (outs : List Out) : Issue State :=
  let slices := outs.map Out.slice
  if Config.unfinished ≤ x.unfinished || x.takeLeft || x.overlapsTag (outs.map Out.place) ||
      (k.atomic && decide (Config.atomics ≤ x.atomics)) || (k.remote && decide (Config.remoteReads ≤ x.remoteReads)) ||
      !s.permitsFree s.cur.cell slices then .error .block
  else
    let id := s.clock.nextId
    let e := x.entryFor i (encodeWord i) x.at 1
    let p : Pend := ⟨id, i, x.at, d, e.va, e.vb, e.a, e.b, outs.length, 0, [], slices, k.hold, k.atomic, k.remote,
      if k.atomic then some x.seq else none⟩
    let y := { (x.await d).addPend p with seq := if k.atomic then x.seq + 1 else x.seq }
    let t := (s.fresh.setCtx s.cur (y.advance none)).takePermits s.cur.cell slices
    pure (t.postAll (s.ctxClass x) (outs.map fun o => (o.req (.ctxReply s.cur x.handle id o.slice p.seq)).event))

/-- The lowest write tag that a context does not hold (R307). -/
def lowestTag (ts : List WriteTag) : Nat := ((List.range 64).find? fun n => !ts.any fun t => t.tag == n).getD 64

/-- A posted write's requests leave the cell under one write tag, and the instruction completes (R196, R199, R307, R353). -/
def State.sendPosted (s : State) (x : Ctx) (uses : List SReg) (vuses : List VReg) (own stx : Bool) (seq : Option (BitVec 16))
    (outs : List Out) : Issue State :=
  let slices := outs.map Out.slice
  if Config.writeTags ≤ x.tags.length || (seq.isSome && decide (Config.atomics ≤ x.atomics)) ||
      !s.permitsFree s.cur.cell slices then .error .block
  else
    let tag := lowestTag x.tags
    let w : WriteTag := ⟨tag, outs.length, outs.map Out.place, outs.length, own, stx, slices, seq⟩
    let y := { (x.useAll uses).useVAll vuses with
      tags := if outs.isEmpty then x.tags else x.tags ++ [w], seq := if seq.isSome then x.seq + 1 else x.seq }
    let t := (s.retire y none).takePermits s.cur.cell slices
    pure (t.postAll (s.ctxClass x) (outs.map fun o => (o.req (.ctxAck s.cur x.handle tag o.slice seq)).event))

/-- A global load or store request of a context. -/
def State.rwOut (s : State) (x : Ctx) (l : Loc) (bytes : Nat) (write : Bool) (data : List Byte) (vec : Bool) (lane0 : Nat)
    (side : Bool) : Out :=
  { slice := s.sliceNo l, place := .mem l bytes,
    req := fun dst => .rw ⟨x.src s.cur, x.lease, l, bytes, write, data, vec, lane0, side, x.fenced, s.dieOf s.cur.cell, dst, s.ctxClass x⟩ }

/-- A scratchpad request of a context. -/
def State.padOut (s : State) (x : Ctx) (k : CellId) (off bytes : Nat) (write : Bool) (data : List Byte) (back vec : Bool) (lane0 : Nat) :
    Out :=
  { slice := 0, place := .pad k off bytes back,
    req := fun dst => .pad ⟨k, off, bytes, write, data, back, vec, lane0, dst, s.ctxClass x⟩ }

/-- The cell of the issuing context. -/
def State.ownCell (s : State) : Issue Cell :=
  match s.cell? s.cur.cell with
  | some k => pure k
  | none => .error .block

/-- A p: access is made at issue, so it waits for the context's own requests to those bytes (R199), and for an acquire that has not
answered (R291); one that would come after an access from outside waits for the next cycle (R72). -/
def State.padReady (s : State) (x : Ctx) (ps : List Place) : Issue Unit :=
  if (ps.any fun p => match p with
      | .pad k _ _ _ => (s.cell? k).any fun d => !d.portFree s.clock.cycles localOrder
      | .mem _ _ => false) || x.takeLeft || x.overlapsTag ps || s.onItsWay s.cur ps then .error .block else pure ()

/-! ### Loads and stores (R196) -/

/-- LD of `n` bytes (R196). -/
def load (i : Instr) (o : OpMem) (n : Nat) (s : State) : Host.Outcome State Fault Refusal :=
  issue i (.sreg o.d) s fun x => do
    let base ← x.readA o.ea o.base
    match o.sp with
    | .p =>
      let k ← s.ownCell
      let off ← padOffset k base o.imm n n
      s.watchPad x s.cur.cell off n false
      s.padReady x [.pad s.cur.cell off n false]
      pure (s.doneS x [o.base] o.d (BitVec.ofNat 64 (leNat (k.get off n false))))
    | .c | .x =>
      let (k, off) ← s.padReach x base o.imm n 0 0 false false
      s.sendLong x i (.sreg o.d) ⟨false, false, true⟩ [s.padOut x k off n false [] false false 0]
    | .g =>
      let va ← globalVa base o.imm n
      let l ← s.reach x va n false none
      s.sendLong x i (.sreg o.d) ⟨false, false, false⟩ [s.rwOut x l n false [] false 0 false]

/-- LD.b (R196). -/
def execLdB (o : OpMem) (s : State) : Host.Outcome State Fault Refusal := load (.ldB o) o 1 s
/-- LD.h (R196). -/
def execLdH (o : OpMem) (s : State) : Host.Outcome State Fault Refusal := load (.ldH o) o 2 s
/-- LD.w (R196). -/
def execLdW (o : OpMem) (s : State) : Host.Outcome State Fault Refusal := load (.ldW o) o 4 s
/-- LD.d (R196). -/
def execLdD (o : OpMem) (s : State) : Host.Outcome State Fault Refusal := load (.ldD o) o 8 s

/-- A cell lies in the crew of a context. -/
def Ctx.ownsCell (x : Ctx) (c : CtxId) (k : CellId) : Bool := (x.members c).contains k

/-- ST of `n` bytes (R196). -/
def store (i : Instr) (o : OpMem) (n : Nat) (s : State) : Host.Outcome State Fault Refusal :=
  issue i .none s fun x => do
    let base ← x.readA o.ea o.base
    let data ← x.readB o.ea o.d
    let bs := leBytes n data.toNat
    match o.sp with
    | .p =>
      let k ← s.ownCell
      let off ← padOffset k base o.imm n n
      s.watchPad x s.cur.cell off n true
      s.padReady x [.pad s.cur.cell off n false]
      pure ((s.padPut s.cur.cell off bs false).done0 x [o.base, o.d])
    | .c | .x =>
      let (k, off) ← s.padReach x base o.imm n 0 0 false true
      s.sendPosted x [o.base, o.d] [] (x.ownsCell s.cur k) false none [s.padOut x k off n true bs false false 0]
    | .g =>
      let va ← globalVa base o.imm n
      let l ← s.reach x va n true none
      s.sendPosted x [o.base, o.d] [] false false none [s.rwOut x l n true bs false 0 false]

/-- ST.b (R196). -/
def execStB (o : OpMem) (s : State) : Host.Outcome State Fault Refusal := store (.stB o) o 1 s
/-- ST.h (R196). -/
def execStH (o : OpMem) (s : State) : Host.Outcome State Fault Refusal := store (.stH o) o 2 s
/-- ST.w (R196). -/
def execStW (o : OpMem) (s : State) : Host.Outcome State Fault Refusal := store (.stW o) o 4 s
/-- ST.d (R196). -/
def execStD (o : OpMem) (s : State) : Host.Outcome State Fault Refusal := store (.stD o) o 8 s

/-! ### Vector loads and stores (R197, R198) -/

/-- The bytes of lanes: their data only (R197). -/
def laneBytes (ls : List Lane) : List Byte := ls.flatMap fun l => leBytes 4 l.data.toNat

/-- The pieces of a crew's vector access in global memory, translated (R193, R194, R197). -/
def State.vectorPieces (s : State) (x : Ctx) (va : Nat) (write : Bool) : Issue (List (Nat × Loc × Nat)) := do
  let ps := linePieces 8 0 va (x.width * 4)
  let tr := fun (p : Nat × Nat × Nat) => s.translate s.cur x (p.2.1 % 2 ^ 64) write none
  firstAccess tr ps
  firstWait tr ps
  let ls ← forAll (fun p => do
    let l ← tr p
    pure (p.1, l, p.2.2)) ps
  let _ ← forAll (fun p => s.watch x.lease false p.2.1 p.2.2 write) ps
  pure ls

/-- The target of each member in a crew's c: access (R191). -/
def State.memberTargets (s : State) (x : Ctx) (base : BitVec 64) (imm : BitVec 9) (write : Bool) :
    Issue (List (Nat × CellId × Nat)) := do
  let ts ← forAll (fun (m : Nat × CellId) => do
    let (k, off) ← s.remoteTarget s.cur base imm 32 32 (m.2.col - s.cur.col) (m.2.row - s.cur.row) false
    pure (m.1, k, off)) (List.zip (List.range (x.width / 8)) (x.members s.cur))
  let _ ← forAll (fun t => s.watchPad x t.2.1 t.2.2 32 write) ts
  pure ts

/-- The one offset of a crew's p: access, within the range of every member's scratchpad (R38, R70, R197). -/
def State.crewOffset (s : State) (x : Ctx) (base : BitVec 64) (imm : BitVec 9) (write : Bool) : Issue (Nat × List CellId) := do
  let offs ← forAll (fun id =>
    match s.cell? id with
    | some k => padOffset k base imm 32 32
    | none => .error .block) (x.members s.cur)
  let _ ← forAll (fun k => s.watchPad x k (offs.headD 0) 32 write) (x.members s.cur)
  pure (offs.headD 0, x.members s.cur)

/-- LDV (R197). -/
def execLdv (o : OpMem) (s : State) : Host.Outcome State Fault Refusal :=
  let d : VReg := o.d.setWidth 5
  issue (.ldv o) (.vreg d) s fun x => do
    let base ← x.readA o.ea o.base
    match o.sp with
    | .p =>
      let (off, ms) ← s.crewOffset x base o.imm false
      s.padReady x (ms.map fun k => .pad k off 32 false)
      let ls := ms.flatMap fun k => (lanesOfBytes noBand 8 0 0 (s.padGet k off 32)).map Prod.snd
      pure (s.retire ((x.useS o.base).resultV d ls) none)
    | .c | .x =>
      let ts ← s.memberTargets x base o.imm false
      s.sendLong x (.ldv o) (.vreg d) ⟨false, false, true⟩
        (ts.map fun t => s.padOut x t.2.1 t.2.2 32 false [] false true (8 * t.1))
    | .g =>
      let va ← globalVa base o.imm 32
      let ps ← s.vectorPieces x va false
      s.sendLong x (.ldv o) (.vreg d) ⟨false, false, false⟩
        (ps.map fun p => s.rwOut x p.2.1 p.2.2 false [] true (p.1 / 4) true)

/-- STV (R197). -/
def execStv (o : OpMem) (s : State) : Host.Outcome State Fault Refusal :=
  let d : VReg := o.d.setWidth 5
  issue (.stv o) .none s fun x => do
    let base ← x.readA o.ea o.base
    let ls ← x.readV .b o.ea d
    let bs := laneBytes ls
    match o.sp with
    | .p =>
      let (off, ms) ← s.crewOffset x base o.imm true
      s.padReady x (ms.map fun k => .pad k off 32 false)
      let t := (List.zip (List.range ms.length) ms).foldl
        (fun u m => u.padPut m.2 off ((bs.drop (32 * m.1)).take 32) false) s
      pure (t.retire ((x.useS o.base).useV d) none)
    | .c | .x =>
      let ts ← s.memberTargets x base o.imm true
      s.sendPosted x [o.base] [d] (ts.all fun t => x.ownsCell s.cur t.2.1) false none
        (ts.map fun t => s.padOut x t.2.1 t.2.2 32 true ((bs.drop (32 * t.1)).take 32) false true (8 * t.1))
    | .g =>
      let va ← globalVa base o.imm 32
      let ps ← s.vectorPieces x va true
      s.sendPosted x [o.base] [d] false false none
        (ps.map fun p => s.rwOut x p.2.1 p.2.2 true ((bs.drop p.1).take p.2.2) true (p.1 / 4) false)

/-- The index vector of LDG and STG, read under policy ea (R194, R195). -/
def Ctx.readIndex (x : Ctx) (pol : Bool) (r : VReg) : Issue (List Lane) :=
  if x.vFull r then .ok (x.v r)
  else .error (if pol then .trap (.emptyRead 0x03) else if x.inFlight (.vreg r) then .block else .trap (.emptyRead 0x13))

/-- The governed lanes of LDG and STG with their places, checked lane by lane (R194, R198). -/
def State.gatherPlaces (s : State) (x : Ctx) (o : OpGath) (base : BitVec 64) (idx : List Lane) (write : Bool) :
    Issue (List (Nat × Loc)) :=
  let lanes := (List.range x.width).filter fun l => (x.m o.m).getLsbD l
  forAll (fun l => do
    let va := base + ((idx.getD l (.plain 0)).data.setWidth 64) * (if o.x4 then 4 else 1)
    checkAlign va.toNat 4 va
    let p ← s.reach x va.toNat 4 write none
    pure (l, p)) lanes

/-- LDG (R198); with no governed lane it reads nothing and completes. -/
def execLdg (o : OpGath) (s : State) : Host.Outcome State Fault Refusal :=
  let d : VReg := o.d.setWidth 5
  issue (.ldg o) (.vreg d) s fun x => do
    let base ← x.readA o.ea o.base
    let idx ← x.readIndex o.ea o.idx
    let ps ← s.gatherPlaces x o base idx false
    if ps.isEmpty then pure (s.retire (((x.useS o.base).useV o.idx).markV d true) none)
    else
      s.sendLong x (.ldg o) (.vreg d) ⟨false, false, false⟩
        (ps.map fun p => s.rwOut x p.2 4 false [] true p.1 false)

/-- STG (R198): requests leave in lane order, so the higher lane's value stays. -/
def execStg (o : OpGath) (s : State) : Host.Outcome State Fault Refusal :=
  let d : VReg := o.d.setWidth 5
  issue (.stg o) .none s fun x => do
    let base ← x.readA o.ea o.base
    let ls ← x.readV .b o.ea d
    let idx ← x.readIndex o.ea o.idx
    let ps ← s.gatherPlaces x o base idx true
    s.sendPosted x [o.base] [d, o.idx] false false none
      (ps.map fun p => s.rwOut x p.2 4 true (leBytes 4 (ls.getD p.1 (.plain 0)).data.toNat) true p.1 false)

/-! ### Presence-bit access and phase exchange (R200, R204, R205) -/

/-- The target of a presence-bit access (R200): the lead's scratchpad in p: (R38). -/
def State.presTarget (s : State) (x : Ctx) (o : OpMem) (base : BitVec 64) (write : Bool) : Issue (CellId × Nat) := do
  if o.sp = .p then
    let k ← s.ownCell
    let off ← padOffset k base o.imm 8 8
    s.watchPad x s.cur.cell off 8 write
    pure (s.cur.cell, off)
  else s.padReach x base o.imm 8 0 0 false write

/-- A presence-bit request. -/
def State.presOut (s : State) (x : Ctx) (k : CellId) (off : Nat) (op : PresOp) : Out :=
  { slice := 0, place := .pad k off 8 false, req := fun dst => .pres ⟨k, off, op, dst, s.ctxClass x⟩ }

/-- LDF and LDP (R200): long-latency in both spaces. -/
def presLoad (i : Instr) (o : OpMem) (op : PresOp) (s : State) : Host.Outcome State Fault Refusal :=
  issue i (.sreg o.d) s fun x => do
    let base ← x.readA o.ea o.base
    let (k, off) ← s.presTarget x o base false
    s.sendLong x i (.sreg o.d) ⟨false, false, o.sp != .p⟩ [s.presOut x k off op]

/-- LDF (R200). -/
def execLdf (o : OpMem) (s : State) : Host.Outcome State Fault Refusal := presLoad (.ldf o) o .ldf s
/-- LDP (R200). -/
def execLdp (o : OpMem) (s : State) : Host.Outcome State Fault Refusal := presLoad (.ldp o) o .ldp s

/-- STE (R200): it holds the context until the port acknowledges. -/
def execSte (o : OpMem) (s : State) : Host.Outcome State Fault Refusal :=
  issue (.ste o) .none s fun x => do
    let base ← x.readA o.ea o.base
    let data ← x.readB o.ea o.d
    let (k, off) ← s.presTarget x o base true
    s.sendLong x (.ste o) .none ⟨true, false, false⟩ [s.presOut x k off (.ste data)]

/-- STX (R204): posted into the back half of the target. -/
def execStx (o : OpStx) (s : State) : Host.Outcome State Fault Refusal :=
  issue (.stx o) .none s fun x => do
    let base ← x.readA o.ea o.base
    let data ← x.readB o.ea o.d
    let (k, off) ← s.padReach x base o.imm 8 0 0 true true
    s.sendPosted x [o.base, o.d] [] (x.ownsCell s.cur k) true none
      [s.padOut x k off 8 true (leBytes 8 data.toNat) true false 0]

/-! ### Fences and barriers (R217, R219) -/

/-- A read or atomic of the context still waits for its reply (FENCE.acq of R217), those of the queue of a trap among them. -/
def Ctx.readsLeft (x : Ctx) : Bool := x.pend.any (fun p => !p.hold) || x.rq.any fun e => e.inflight isRead

/-- A returning atomic or deque request that has not answered, or an STE that the queue of a trap holds: it writes as well (R200, R206,
R217). -/
def Ctx.updatesLeft (x : Ctx) : Bool := x.pend.any Pend.atomic || x.rq.any fun e => e.inflight writesFirst

/-- A write of a tag is performed at a scope (R217). -/
def WriteTag.performed (w : WriteTag) (sc : Scope) : Bool :=
  match sc with
  | .cell | .crew => w.own && w.taken == 0
  | .rect | .dev | .sys => false

/-- Every older write of the context is performed at the scope (FENCE.rel of R217): a tag that is held is not acknowledged. -/
def Ctx.writesDone (x : Ctx) (sc : Scope) : Bool := !x.updatesLeft && x.tags.all fun w => w.performed sc

/-- Every older write of the context is acknowledged (REL of R216, DQPUSH of R211). -/
def Ctx.writesAcked (x : Ctx) : Bool := !x.updatesLeft && x.tags.isEmpty

/-- The condition of a fence (R217). -/
def Ctx.fenceMet (x : Ctx) (k : FenceKind) (sc : Scope) : Bool :=
  match k with
  | .acq => !x.readsLeft
  | .rel => x.writesDone sc
  | .full => !x.readsLeft && x.writesDone sc
  | .ack => x.tags.isEmpty

/-- The acquire side of a fence: die copies are dropped, and from rect scope on the context reads at the homes (R292,
R296). -/
def State.fenceAcquire (s : State) (x : Ctx) (k : FenceKind) (sc : Scope) : State × Ctx :=
  match k with
  | .acq | .full => (s.dropCopies x.lease (s.dieOf s.cur.cell) fun _ => true, { x with fenced := x.fenced || sc.wide })
  | .rel | .ack => (s, x)

/-- FENCE (R217). -/
def execFence (e : Bool) (k : FenceKind) (sc : Scope) (s : State) : Host.Outcome State Fault Refusal :=
  issue (.fence e k sc) .none s fun x =>
    if x.fenceMet k sc then
      let (t, y) := s.fenceAcquire x k sc
      pure (t.retire y none)
    else .error .block

/-- The cells of the rectangle in exchange mode, or of the crew (R205). -/
def State.exchanges (s : State) (c : CtxId) (x : Ctx) (rect : Bool) : List CellId :=
  s.cells.filterMap fun p => if p.1.slot = c.slot && p.2.xch && (rect || x.ownsCell c p.1) then some p.1 else none

/-- The scope of a barrier. -/
def barScope (rect : Bool) : Scope := if rect then .rect else .crew

/-- A participant leaves for its barrier after a FENCE.full at its scope and, for XBAR, the acknowledgement of every STX
(R205, R219). -/
def State.sendArrival (s : State) (x : Ctx) (i : Instr) (rect : Bool) (ev : Nat → Event) : Issue State :=
  if !x.fenceMet .full (barScope rect) || x.tags.any WriteTag.stx then .error .block
  else
    let (t, y) := s.fenceAcquire x .full (barScope rect)
    let id := t.clock.nextId
    let p : Pend := ⟨id, i, y.at, .none, false, false, 0, 0, 1, 0, [], [], true, false, false, none⟩
    if Config.unfinished ≤ y.unfinished then .error .block
    else pure ((t.fresh.setCtx s.cur ((y.addPend p).advance none)).post (s.ctxClass x) (ev id))

/-- XBAR (R205). -/
def execXbar (rect : Bool) (s : State) : Host.Outcome State Fault Refusal :=
  issue (.xbar rect) .none s fun x =>
    if (s.exchanges s.cur x rect).isEmpty then illegal5
    else s.sendArrival x (.xbar rect) rect fun id => .xbarArrival s.cur rect id

/-- BAR (R219). -/
def execBar (rect : Bool) (s : State) : Host.Outcome State Fault Refusal :=
  issue (.bar rect) .none s fun x => s.sendArrival x (.bar rect) rect fun id => .barArrival s.cur rect id

/-! ### Atomics (R206 to R208) -/

/-- The place of an R-format access of `n`-byte alignment (R191, R192). -/
def State.rPlace (s : State) (x : Ctx) (a : BitVec 64) (n : Nat) (write : Bool) (fn : Option AmoFn) : Issue Loc := do
  checkAlign a.toNat n a
  s.reach x a.toNat n write fn

/-- An atomic request: it may combine if its opcode says so, unless it is an FADD of a REPRO rectangle (R208). -/
def State.amoOut (s : State) (x : Ctx) (l : Loc) (fn : AmoFn) (b cmp : BitVec 64) (returning comb : Bool) : Out :=
  let tag := comb && !(fn == .fadd && x.repro)
  { slice := s.sliceNo l, place := .mem l 8,
    req := fun dst => .amo ⟨x.src s.cur, x.lease, x.seq, fn, l, b, cmp, returning, tag, false,
      if tag then some (Config.combiningQueue s.tick) else none, dst, s.ctxClass x⟩ }

/-- AMO and AMO.c (R206). -/
def atomic (i : Instr) (o : OpAmo) (comb : Bool) (s : State) : Host.Outcome State Fault Refusal :=
  issue i (.sreg o.d) s fun x => do
    let a ← x.readA o.ea o.a
    let b ← x.readB o.eb o.b
    let c ← (if o.fn = .cas then x.read .d false o.d else pure 0)
    let l ← s.rPlace x a 8 true (some o.fn)
    s.sendLong x i (.sreg o.d) ⟨false, true, false⟩ [s.amoOut x l o.fn b c true comb]

/-- AMO (R206). -/
def execAmo (o : OpAmo) (s : State) : Host.Outcome State Fault Refusal := atomic (.amo o) o false s
/-- AMO.c (R206, R208). -/
def execAmoC (o : OpAmo) (s : State) : Host.Outcome State Fault Refusal := atomic (.amoC o) o true s

/-- ST.op and ST.op.c (R206, R307). -/
def postedAtomic (i : Instr) (o : OpSt) (comb : Bool) (s : State) : Host.Outcome State Fault Refusal :=
  issue i .none s fun x => do
    let a ← x.readA o.ea o.a
    let b ← x.readB o.eb o.b
    let l ← s.rPlace x a 8 true (some o.fn)
    s.sendPosted x [o.a, o.b] [] false false (some x.seq) [s.amoOut x l o.fn b 0 false comb]

/-- ST.op (R206). -/
def execStOp (o : OpSt) (s : State) : Host.Outcome State Fault Refusal := postedAtomic (.stOp o) o false s
/-- ST.op.c (R206, R208). -/
def execStOpC (o : OpSt) (s : State) : Host.Outcome State Fault Refusal := postedAtomic (.stOpC o) o true s

/-! ### Deques (R210, R211) -/

/-- A deque request. -/
def State.dqOut (s : State) (x : Ctx) (l : Loc) (va : Nat) (op : DqOp) : Out :=
  { slice := s.sliceNo l, place := .mem l 64,
    req := fun dst => .dq ⟨x.src s.cur, x.lease, s.cur.slot, x.seq, op, l, va, false, false, dst, s.ctxClass x⟩ }

/-- DQPUSH (R211): it holds the context, and leaves after the context's older writes are acknowledged. -/
def execDqpush (o : OpPush) (s : State) : Host.Outcome State Fault Refusal :=
  issue (.dqpush o) .none s fun x => do
    let a ← x.readA o.ea o.a
    let b ← x.readB o.eb o.b
    if b = 0xFFFFFFFFFFFFFFFF#64 then illegal5
    else
      let l ← s.rPlace x a 64 true none
      if !x.writesAcked then .error .block
      else s.sendLong x (.dqpush o) .none ⟨true, true, false⟩ [s.dqOut x l a.toNat (.push b)]

/-- DQPOP and DQSTEAL (R211). -/
def dequeTake (i : Instr) (o : OpPop) (op : DqOp) (s : State) : Host.Outcome State Fault Refusal :=
  issue i (.sreg o.d) s fun x => do
    let a ← x.readA o.ea o.a
    let l ← s.rPlace x a 64 true none
    s.sendLong x i (.sreg o.d) ⟨false, true, false⟩ [s.dqOut x l a.toNat op]

/-- DQPOP (R211). -/
def execDqpop (o : OpPop) (s : State) : Host.Outcome State Fault Refusal := dequeTake (.dqpop o) o .pop s
/-- DQSTEAL (R211). -/
def execDqsteal (o : OpPop) (s : State) : Host.Outcome State Fault Refusal := dequeTake (.dqsteal o) o .steal s

/-! ### Synchronisation (R216, R218) -/

/-- The place of a sync object: on another device it is refused as ACCESS, before the watches are looked at (R194, R374). -/
def State.syncPlace (s : State) (x : Ctx) (a : BitVec 64) (write : Bool) : Issue Loc := do
  checkAlign a.toNat 64 a
  let l ← s.translate s.cur x a.toNat write none
  match l with
  | .remote _ _ _ => .error (.trap (.access 0x07 a))
  | .dev _ _ | .carve _ _ | .host _ =>
    s.watch x.lease false a.toNat 64 write
    pure l

/-- An ACQ or ACQS request, or a REL. -/
def State.syncReq (s : State) (x : Ctx) (l : Loc) (va : Nat) (shared : Bool) (dst : ReplyTo) : SyncReq :=
  ⟨x.src s.cur, s.cur, x.lease, l, va, shared, dst, s.ctxClass x⟩

/-- ACQ and ACQS (R216). -/
def acquire (i : Instr) (o : OpSync) (shared : Bool) (s : State) : Host.Outcome State Fault Refusal :=
  issue i .none s fun x => do
    let a ← x.readA o.ea o.a
    let l ← s.syncPlace x a false
    s.sendLong x i .none ⟨true, false, false⟩
      [{ slice := s.sliceNo l, place := .mem l 0, req := fun dst => .acquire (s.syncReq x l a.toNat shared dst) }]

/-- ACQ (R216). -/
def execAcq (o : OpSync) (s : State) : Host.Outcome State Fault Refusal := acquire (.acq o) o false s
/-- ACQS (R216). -/
def execAcqs (o : OpSync) (s : State) : Host.Outcome State Fault Refusal := acquire (.acqs o) o true s

/-- REL (R216): it leaves once every older write is acknowledged, and completes as it leaves. It takes a permit that the slice
gives back as it takes the request (R353). -/
def execRel (o : OpSync) (s : State) : Host.Outcome State Fault Refusal :=
  issue (.rel o) .none s fun x => do
    let a ← x.readA o.ea o.a
    let l ← s.syncPlace x a true
    if !x.writesAcked || !s.permitsFree s.cur.cell [s.sliceNo l] then .error .block
    else
      let t := (s.done0 x [o.a]).takePermits s.cur.cell [s.sliceNo l]
      pure (t.post (s.ctxClass x) (.homeRelease (s.syncReq x l a.toNat false (.ctxAck s.cur x.handle 64 (s.sliceNo l) none))))

/-- WAITA (R218). -/
def execWaita (o : OpWaita) (s : State) : Host.Outcome State Fault Refusal :=
  issue (.waita o) .none s fun x => do
    let a ← x.readA o.ea o.a
    let b ← x.readB o.eb o.b
    let l ← s.rPlace x a (if o.w32 then 4 else 8) false none
    s.sendLong x (.waita o) .none ⟨true, false, false⟩
      [{ slice := s.sliceNo l, place := .mem l (if o.w32 then 4 else 8),
         req := fun dst => .waita ⟨x.src s.cur, x.lease, l, o.w32, o.cond, b, dst, s.ctxClass x⟩ }]

/-! ### Stream commands (R114, R220, R222) -/

/-- The 128-bit table word at a byte offset of the code window; none past its end (R111, R114). -/
def Ctx.tableWord (x : Ctx) (off : Nat) : Option CWord :=
  if x.window.length * 4 < off + 16 then none
  else
    let w := fun k => x.window.getD (off / 4 + k) 0
    some (w 3 ++ w 2 ++ w 1 ++ w 0 : BitVec 128)

/-- The port of a command that holds a queue, if its class and index name one (R112). -/
def portOf (slot : Nat) (w : CWord) : Option Port :=
  let i := (w.extractLsb' 104 4).toNat
  match (w.extractLsb' 108 4).toNat with
  | 1 => some (.strm slot i)
  | 2 => some (.memn slot i)
  | 3 => some (.mrow slot i)
  | _ => none

/-- The row half bound to a matrix node of a slot, by index (R42, R112). -/
def State.boundRow (s : State) (slot idx : Nat) : Option (Nat × RowHalf) :=
  s.rows.find? fun p => p.2.bound == some (slot, idx)

/-- The command queue of a port. -/
def State.portQueue (s : State) (p : Port) : List Cmd :=
  match p with
  | .strm slot i => (s.strm? slot i).elim [] Streamer.queue
  | .memn slot i => (s.node? slot i).elim [] MemNode.queue
  | .mrow slot i => (s.boundRow slot i).elim [] fun r => r.2.queue

/-- TCLASS and TINDEX of a command word (R111). -/
def targetOf (w : CWord) : BitVec 8 := w.extractLsb' 104 8

/-- An event brings a command of a slot to the port that a word names. -/
def commandFor (slot : Nat) (w : CWord) : Event → Bool
  | .command src u => src.slot == slot && targetOf u == targetOf w
  | _ => false

/-- The commands that a port holds for a rectangle: those in its queue, on their way to it, or waiting at it for a page; a command
that names no port waits for none (R112, R222). -/
def State.portLoad (s : State) (slot : Nat) (w : CWord) : Nat :=
  if 5 ≤ (w.extractLsb' 108 4).toNat then 0
  else
    (portOf slot w).elim 0 (fun p => (s.portQueue p).length) + (s.net.agenda.filter fun f => commandFor slot w f.ev).length +
      ((s.leases.flatMap fun p => p.2.svcs.flatMap PageSvc.waiters).filter (commandFor slot w)).length

/-- The tile mask of a copy command of `bytes` bytes (R67). -/
def tileMask (bytes : Nat) : BitVec 64 := BitVec.ofNat 64 (2 ^ min 64 (max 1 ((bytes + 511) / 512)) - 1)

/-- The bytes that a copy command's word says it moves, for its tile mask (R67, R227); C.CONV's stand in its descriptor. -/
def commandBytes (w : CWord) : Option Nat :=
  let len := (w.extractLsb' 84 12).toNat + 1
  let wide := w.getLsbD 114
  match (w.extractLsb' 120 8).toNat with
  | 1 | 2 | 5 => some (len * 8)
  | 3 => some (len * (if wide then 8 else 4))
  | 4 => some (len * (if wide then 16 else 8))
  | _ => none

/-- SCMD and SCMDW (R114, R220): the word is patched and leaves for its port; SCMDW then waits for its token. -/
def scmdIssue (i : Instr) (o : OpCmd) (wait : Bool) (s : State) : Host.Outcome State Fault Refusal :=
  issue i (.sreg o.d) s fun x => do
    let a ← x.readA o.ea o.a
    let b ← x.readB o.eb o.b
    match x.tableWord ((x.cmdbase.toNat + o.n.toNat) * 16) with
    | none => .error (.trap (.illegal 0x04))
    | some e =>
      if e.extractLsb' 96 6 ≠ 0 then .error (.trap (.illegal 0x03))
      else if (!e.getLsbD 112 && o.a != 0#6) || (!e.getLsbD 113 && o.b != 0#6) then illegal5
      else
        let ab : BitVec 64 := if e.getLsbD 112 then a else e.extractLsb' 0 64
        let c : BitVec 32 := if e.getLsbD 113 then b.setWidth 32 else e.extractLsb' 64 32
        let w : CWord := (e.extractLsb' 102 26 ++ o.d ++ c ++ ab : BitVec 128)
        if Config.portQueue ≤ s.portLoad s.cur.slot w then .error .block
        else if wait && decide (Config.unfinished ≤ x.unfinished) then .error .block
        else
          let id := s.clock.nextId
          let p : Pend := ⟨id, i, x.at, .none, false, false, 0, 0, 1, 0, [], [], true, false, false, none⟩
          let y := x.useAll [o.a, o.b]
          let y1 := if o.d = zeroReg then y
            else { (y.putS o.d 0).markS o.d false with tokens := y.tokens ++ [o.d] }
          let t := if wait then s.fresh.setCtx s.cur ((y1.addPend p).advance none)
            else s.retire y1 none
          pure (t.post (s.ctxClass x) (.command s.cur w))

/-- SCMD (R114, R220). -/
def execScmd (o : OpCmd) (s : State) : Host.Outcome State Fault Refusal := scmdIssue (.scmd o) o false s
/-- SCMDW (R114, R220). -/
def execScmdw (o : OpCmd) (s : State) : Host.Outcome State Fault Refusal := scmdIssue (.scmdw o) o true s

end Sys2Proof.Machine
end

