-- ==== Sys2Proof/Machine/Storage.lean ====
section
/-! DEFINITION. Global storage at its homes: the shared cache's lines (R391), side-bands of FP4B lines (R268 to R272), die
copies (R290), reads and writes at a home, the requests that wait for a write (R218), and the update of an atomic (R206). -/

namespace Sys2Proof.Machine

/-! ### The shared cache (R391, R420) -/

/-- The owner of a place of device memory. -/
def locLease : Loc → Nat
  | .dev l _ | .carve l _ => l
  | .host _ | .remote _ _ _ => 0

/-- Lines of the shared cache that a lease's cached lines may occupy: its limit less its direct storage; the hub's own 32 MiB for
lease 0 (R391). -/
def State.lineShare (s : State) (lease : Nat) : Nat :=
  (if lease = 0 then 32 else (s.lease lease).carveLimit - (s.lease lease).granted) * 8192

/-- The slice of a line and its set there: 2 MiB in 16 ways of 128-byte lines make 1,024 sets (R1). -/
def State.setOf (s : State) (l : Loc) : Option Nat × Nat :=
  (s.sliceOf l, match l with
    | .dev lease a => Config.cacheSet lease false (a / 128) % 1024
    | .carve lease off => Config.cacheSet lease true (off / 128) % 1024
    | .host _ | .remote _ _ _ => 0)

/-- The lines of a lease's cached storage, the latest used first. -/
def State.linesOf (s : State) (lease : Nat) : List CacheLine := s.homes.lines.filter fun c => locLease c.loc == lease

/-- The ways of a set that direct storage takes (R260, R391). -/
def State.directWays (s : State) (k : Option Nat × Nat) : Nat :=
  (s.leases.map fun p => ((List.range (p.2.granted * 8192)).filter fun c => s.setOf (.carve p.1 (128 * c)) == k).length).foldl (· + ·) 0

/-- The die copies of a lease's lines (R290). -/
def State.copiesOf (s : State) (lease : Nat) : List DieCopy := s.homes.copies.filter fun d => locLease d.loc == lease

/-- The slice and the set that hold a line's copy on a die: those of its home, counted on that die: DESIGN CHOICE (log entry 130). -/
def State.copySet (s : State) (die : Nat) (l : Loc) : Option Nat × Nat := ((s.setOf l).1.map fun n => die * 64 + n % 64, (s.setOf l).2)

/-- The ways of a set in use: direct storage, lines and die copies (R1, R260, R290). -/
def State.waysUsed (s : State) (k : Option Nat × Nat) : Nat :=
  s.directWays k + (s.homes.lines.filter fun c => s.setOf c.loc == k).length +
    (s.homes.copies.filter fun d => s.copySet d.die d.loc == k).length

/-- All 16 ways of a set are in use (R1). -/
def State.setFull (s : State) (k : Option Nat × Nat) : Bool := decide (16 ≤ s.waysUsed k)

/-- The cached lines of a lease, die copies among them (R391). -/
def State.linesHeld (s : State) (lease : Nat) : Nat := (s.linesOf lease).length + (s.copiesOf lease).length

/-- The last line of a list that satisfies a condition. -/
def lastLine (p : CacheLine → Bool) (ls : List CacheLine) : Option CacheLine := (ls.filter p).getLast?

/-- Who causes an event of storage: a lease and the handle of the rectangle it acts for, 0 for none (R286, R420). -/
structure Agent where
  lease : Nat
  handle : Nat

/-- The hub firmware and host agents: their events count nowhere (R420). -/
def noAgent : Agent := ⟨0, 0⟩

/-- The room that a fill of a line finds: a free way within the lease's share; the way of a line of the lease's own, of the set where the
set is full, or of the slice where the share is, a die copy first, then the least recently used line; or none: no fill evicts another
lease's line (R391). -/
inductive FillRoom
  | free
  | drops (d : DieCopy)
  | evicts (c : CacheLine)
  | none
deriving DecidableEq, Repr

/-- A line of a lease's own that gives up its way: one whose slice and set satisfy a condition. -/
def State.ownRoom (s : State) (lease : Nat) (p : Option Nat × Nat → Bool) : FillRoom :=
  match ((s.copiesOf lease).filter fun d => p (s.copySet d.die d.loc)).getLast? with
  | some d => .drops d
  | none => (lastLine (fun c => p (s.setOf c.loc)) (s.linesOf lease)).elim FillRoom.none FillRoom.evicts

/-- Where a fill of a lease's line into a slice and set goes (R1, R391). -/
def State.fillRoom (s : State) (lease : Nat) (k : Option Nat × Nat) : FillRoom :=
  if s.setFull k then s.ownRoom lease fun j => j == k
  else if s.lineShare lease ≤ s.linesHeld lease then s.ownRoom lease fun j => j.1 == k.1
  else .free

/-- A line taken out of the shared cache; a dirty one is written back (R420). -/
def State.evict (s : State) (a : Agent) (c : CacheLine) : State :=
  let t := { s with homes := { s.homes with lines := s.homes.lines.erase c } }
  if c.dirty then (t.count a.lease 0x022 a.handle 1).count a.lease 0x028 a.handle 1 else t

/-- A die copy dropped (R290). -/
def State.dropCopy (s : State) (d : DieCopy) : State := { s with homes := { s.homes with copies := s.homes.copies.erase d } }

/-- The state with room made for a fill; none where no line of the lease's own gives up its way. -/
def State.makeRoom (s : State) (a : Agent) : FillRoom → Option State
  | .free => some s
  | .drops d => some (s.dropCopy d)
  | .evicts c => some (s.evict a c)
  | .none => none

/-- A request taken at the slice of its line: a hit, or a miss that fills the line and may evict another (R391, R420). Direct
storage is always present; host memory and other devices have no line here. -/
def State.touch (s : State) (a : Agent) (l : Loc) (write : Bool) : State :=
  match l with
  | .host _ | .remote _ _ _ => s
  | .carve _ _ => s.count a.lease 0x020 a.handle 1
  | .dev lease _ =>
    let line := l.align 128
    match s.homes.lines.find? fun c => c.loc == line with
    | some c =>
      { s with homes := { s.homes with lines := ⟨line, c.dirty || write⟩ :: s.homes.lines.erase c } }.count a.lease 0x020
        a.handle 1
    | none =>
      let keep := fun (t : State) => ({ t with homes := { t.homes with lines := ⟨line, write⟩ :: t.homes.lines } } : State)
      let t := (s.makeRoom a (s.fillRoom lease (s.setOf line))).elim s keep
      (t.count a.lease 0x021 a.handle 1).count a.lease 0x028 a.handle 1

/-! ### Side-bands of FP4B lines (R268 to R271) -/

/-- Fields of a format window (R269). -/
def Window.en (w : Window) : Bool := w.ctl.getLsbD 4
/-- FMT. -/
def Window.fmt (w : Window) : Nat := (w.ctl.extractLsb' 0 4).toNat
/-- MODE: matrix mode. -/
def Window.matrix (w : Window) : Bool := w.ctl.getLsbD 5
/-- ROWB, in 128-byte units. -/
def Window.rowb (w : Window) : Nat := (w.ctl.extractLsb' 12 12).toNat
/-- LEASE. -/
def Window.owner (w : Window) : Nat := (w.ctl.extractLsb' 32 8).toNat
/-- The first byte of the data range. -/
def Window.lo (w : Window) : Nat := (w.base.extractLsb' 16 36).toNat * 65536
/-- One past the last byte of the data range. -/
def Window.hi (w : Window) : Nat := (w.limit.extractLsb' 16 36).toNat * 65536
/-- The first byte of the scale region. -/
def Window.scales (w : Window) : Nat := (w.scale.extractLsb' 7 45).toNat * 128
/-- BANDB (R268). -/
def Window.bandBytes (w : Window) : Nat := if w.matrix then 64 * w.rowb * 128 else 256
/-- Blocks of the data range. -/
def Window.blocks (w : Window) : Nat := (w.hi - w.lo) / 4
/-- The address of block scale `i`. -/
def Window.blockAt (w : Window) (off : Nat) : Nat := w.scales + off / 4
/-- The address of the band scale of an offset (R268). -/
def Window.bandAt (w : Window) (off : Nat) : Nat :=
  w.scales + (w.blocks + 127) / 128 * 128 + 2 * (off / w.bandBytes)

/-- The enabled window of a lease that holds a lease-physical address (R269, R270). -/
def State.windowOf (s : State) (lease a : Nat) : Option Window :=
  ((s.lease lease).windows.map Prod.snd).find? fun w => w.en && w.owner == lease && decide (w.lo ≤ a) && decide (a < w.hi)

/-- The side-band of the 4-byte block at a place: its block scale and band scale inside an FP4B window, else zero (R197,
R271). -/
def State.bandOf (s : State) (l : Loc) : BitVec 8 × BitVec 16 :=
  match l with
  | .dev lease a =>
    match s.windowOf lease a with
    | some w =>
      if w.fmt = 15 then
        (BitVec.ofNat 8 (s.loadNat (.dev lease (w.blockAt (a - w.lo))) 1),
         BitVec.ofNat 16 (s.loadNat (.dev lease (w.bandAt (a - w.lo))) 2))
      else (0, 0)
    | none => (0, 0)
  | .carve _ _ | .host _ | .remote _ _ _ => (0, 0)

/-! ### Waiting for a write (R218) -/

/-- A WAITA condition on a word (R218). -/
def waitaHolds (r : WaitaReq) (x : Nat) : Bool :=
  let m := if r.w32 then 2 ^ 32 else 2 ^ 64
  let b := r.b.toNat % m
  let d := (x + m - b) % m
  match r.cond with
  | .eq => x == b
  | .ne => x != b
  | .sge => decide (d < m / 2)
  | .slt => decide (m / 2 ≤ d)

/-- The condition of a WAITA holds now. -/
def State.waitaMet (s : State) (r : WaitaReq) : Bool := waitaHolds r (s.loadNat r.loc (if r.w32 then 4 else 8))

/-- The die of the cell of the context that an answer goes to. -/
def State.dieOfReply (s : State) (dst : ReplyTo) : Option Nat := dst.ctx?.map fun c => s.dieOf c.cell

/-- A satisfied WAITA: an acquire at system scope, and its reply (R218, R292). -/
def State.waitaDone (s : State) (r : WaitaReq) : State :=
  let t := match s.dieOfReply r.reply with
    | some d => s.dropCopies r.lease d fun _ => true
    | none => s
  t.answer r.cls r.reply .nothing

/-- The waiting requests tested again after a write to `n` bytes: watches whose condition now holds are answered, and a
deque's waiting request is taken again (R211, R218). -/
def State.retest (s : State) (l : Loc) (n : Nat) : State :=
  let hit := fun (m : Loc) (k : Nat) => m.sameSpace l && meets m.addr k l.addr n
  s.homes.waiters.foldl (fun t w =>
    match w with
    | .watch r =>
      if hit r.loc 8 && t.waitaMet r then
        ({ t with homes := { t.homes with waiters := t.homes.waiters.erase w } }).waitaDone r
      else t
    | .deque r => if hit r.loc 64 then t.post r.cls (.homeDequeOp { r with parked := true }) else t
    | .sync _ => t) s

/-! ### Data with an uncorrectable error (R193, R209, R225, R423) -/

/-- The code that stands for an uncorrectable error in data read, where a refusal has its cause: no cause of R85 names one. -/
def dataError : Nat := 0x100

/-- A run of bytes holds data with an uncorrectable error, which a request that reads it meets at the home (R193, R423). -/
def State.damaged (s : State) (l : Loc) (n : Nat) : Bool := s.homes.bad.any fun b => b.sameSpace l && meets b.addr 128 l.addr n

/-- A refusal by a target's per-lease access table, or an error in the data read: it freezes the rectangle, and no token reports it
(R193, R225, R392). -/
def freezes (cause sub : Nat) : Bool := cause == dataError || (cause == 0x05 && decide (0x40 ≤ sub))

/-- The cause under which a refusal is recorded: that of a data error is open (R388). -/
def State.causeOf (s : State) (cause : Nat) : Nat := if cause = dataError then (Config.openWord s.tick).toNat % 256 else cause

/-- The free value of that cause spent. -/
def State.causeSpent (s : State) (cause : Nat) : State := if cause = dataError then s.bump else s

/-- The lines of some places hold good data from now on. -/
def State.mend (s : State) (p : Loc → Bool) : State :=
  { s with homes := { s.homes with bad := s.homes.bad.filter fun b => !p b } }

/-! ### Reads and writes at the home (R288 to R290, R309) -/

/-- A line's die copies on a die dropped: its agent writes the line (R290). -/
def State.dropLine (s : State) (die : Nat) (l : Loc) : State :=
  let line := l.align 128
  { s with homes := { s.homes with copies := s.homes.copies.filter fun k => !(k.die == die && k.loc == line) } }

/-- A write taken at its home: the bytes, the die copies of the writer's die, and what waits for the word (R218, R288 to
R290). A write by the hub or the host comes from no die. -/
def State.homeWrite (s : State) (die : Option Nat) (l : Loc) (bs : List Byte) : State :=
  let t := s.store l bs
  let u := match die with
    | some d => t.dropLine d l
    | none => t
  u.retest l bs.length

/-- Bytes of global storage taken at their homes line by line, as an engine reads them. -/
def State.engineRead (s : State) (a : Agent) (l : Loc) (n : Nat) : State × List Byte :=
  let t := (linePieces (n / 128 + 2) 0 l.addr n).foldl (fun u p => u.touch a (l.add p.1) false) s
  (t, s.load l n)

/-- Bytes of global storage written at their homes line by line, as an engine writes them. -/
def State.engineWrite (s : State) (a : Agent) (die : Nat) (l : Loc) (bs : List Byte) : State :=
  (linePieces (bs.length / 128 + 2) 0 l.addr bs.length).foldl
    (fun u p => (u.touch a (l.add p.1) true).homeWrite (some die) (l.add p.1) ((bs.drop p.1).take p.2.2)) s

/-! ### Updates (R106, R206) -/

/-- FADD of two F64 words: rounded to nearest even, a NaN canonical, no flag raised (R206). -/
def faddWord (w b : BitVec 64) : BitVec 64 :=
  BitVec.ofNat 64 (FF.round .f64 .rne 0 (numAdd .rne (FF.decode .f64 w.toNat) (FF.decode .f64 b.toNat)).1).1

/-- The new value of a word under an operation (R206). -/
def amoNew (fn : AmoFn) (w b c : BitVec 64) : BitVec 64 :=
  match fn with
  | .add => w + b
  | .and => w &&& b
  | .or => w ||| b
  | .xor => w ^^^ b
  | .min => if w.toInt ≤ b.toInt then w else b
  | .max => if b.toInt ≤ w.toInt then w else b
  | .minz => if w.toNat ≤ b.toNat then w else b
  | .maxz => if b.toNat ≤ w.toNat then w else b
  | .swap => b
  | .cas => if w = c then b else w
  | .fadd => faddWord w b

end Sys2Proof.Machine
end

