-- ==== Sys2Proof/Machine/Records.lean ====
section
/-! DEFINITION. Fault records: their posting into a lease's fault queue (R386 to R388), page service (R389), and the completion
of a translation walk (R382, R383). -/

namespace Sys2Proof

/-- An access of the hub firmware: it reads launch records and images, and writes what the mailbox asks for; its events count nowhere
(R286, R420). -/
def Event.ofHub : Event → Bool
  | .launchRecordRead _ _ _ | .attestReport _ | .keyCertificate _ | .cinderReading _ => true
  | .command _ w => w.extractLsb' 120 8 == 0x20
  | _ => false

end Sys2Proof

namespace Sys2Proof.Machine

/-! ### The Hearth's locks (R399) -/

/-- The lock of a register write that the hub takes up as an event: doorbells, FQ_RESUME, invalidations and the counter set of a lease,
LEASE_SCHED. -/
def regLock (space : RegSpace) (off : Nat) : Option Nat :=
  match space with
  | .vf l => if (0x1000 ≤ off ∧ off < 0x1020) ∨ off = 0x220 ∨ off = 0x230 ∨ (0x400 ≤ off ∧ off < 0x488) then some l else none
  | .pf => if 0x10040 ≤ off ∧ off % 64 = 0 then some 0 else none

/-- The ordering lock of an event of the Hearth (R399, R419). -/
def hearthLock (ev : Event) : Option Nat :=
  match ev with
  | .firmwareStage | .cinderReadingPf | .leaseSchedWrite _ _ => some 0
  | .writeRegionEntry l | .writeFormatWindow l | .resumeContext l | .attestReport l | .keyCertificate l | .cinderReading l
  | .leaseCreate l | .leaseDestroy l | .grantRow l | .revokeRow l | .preempt l | .restore l | .leaseFree l | .dump l
  | .launchRecordRead l _ _ | .lqTailDoorbell l _ _ | .fqResumeWrite l _ | .fqInvcntWrite l _ | .invalidationDone l
  | .cntWrite l _ _ | .cntselWrite l _ _ | .recordWrite l | .unknownRequest l | .unknownCommand l => some l
  | .configWritten slot | .reelWrite slot | .autoRestore slot | .moveStart slot _ _ => some (256 + slot % 768)
  | .registerWrite space off _ => regLock space off
  | _ => none

/-- An event of the Hearth whose unit may not be able to take it yet: it has left the queue and is offered again (R398). -/
def offeredAgain : Event → Bool
  | .launchRecordRead _ _ _ | .leaseDestroy _ | .restore _ | .revokeRow _ | .invalidationDone _ => true
  | _ => false

/-- An event of a lease's lock is queued: a record written now comes behind it (R399). -/
def State.lockBusy (s : State) (lease : Nat) : Bool :=
  s.net.agenda.any fun f => decide (f.due ≤ s.clock.cycles) && hearthLock f.ev == some lease && !offeredAgain f.ev

/-- Work of the Hearth queued behind what its lock has queued. -/
def State.queueJob (s : State) (ev : Event) : State :=
  { s with net := { s.net with agenda := s.net.agenda ++ [(⟨s.clock.cycles, 3, 0, s.clock.cycles, ev⟩ : Flight)] } }

/-! ### Records (R387, R388) -/

/-- CELL of a record: valid, COL, ROW and context (R387). -/
def cellField (c : Option CtxId) : Nat :=
  match c with
  | some k => 32768 + k.col % 128 * 256 + k.row % 64 * 4 + k.ctx % 4
  | none => 0

/-- The record of an event now; its sequence number is given as it is posted. -/
def State.record (s : State) (typ cause sub flags handle node : Nat) (who : Option CtxId) (addr d0 d1 d2 : Nat) : FaultRec :=
  ⟨0, typ, cause, sub, flags, handle, node, cellField who, addr, s.dtime, d0, d1, d2⟩

/-- The 64 bytes of a record (R387). -/
def FaultRec.bytes (r : FaultRec) : List Byte :=
  leBytes 4 r.seq ++ leBytes 1 r.typ ++ leBytes 1 r.cause ++ leBytes 1 r.sub ++ leBytes 1 r.flags ++ leBytes 4 r.handle ++
    leBytes 2 r.node ++ leBytes 2 r.cell ++ leBytes 8 r.addr ++ leBytes 8 r.dtime ++ leBytes 8 r.detail0 ++
    leBytes 8 r.detail1 ++ leBytes 8 r.detail2 ++ leBytes 8 0

/-- A lease's vector raised (R385, R420). -/
def Lease.raiseVector (l : Lease) (n : Nat) : Lease := { l with vectors := l.vectors.modify n (· + 1) }

/-- Records in the ring that software has not consumed. -/
def FaultQueue.used (q : FaultQueue) : Nat := (q.tail + 4294967296 - q.head) % 4294967296

/-- A record appended to those the hub holds; beyond 64 it is dropped and LOST counts it (R386). -/
def FaultQueue.hold (q : FaultQueue) (r : FaultRec) : FaultQueue :=
  if q.held.length < Config.heldRecords then
    { q with held := q.held ++ [{ r with seq := (q.tail + q.held.length) % 4294967296 }] }
  else { q with lost := min 65535 (q.lost + 1) }

/-- A page-service record that finds room among the held ones is posted (R386, R389). -/
def State.postService (s : State) (lease : Nat) (v : PageSvc) : State :=
  let l := s.lease lease
  let seq := (l.fq.tail + l.fq.held.length) % 4294967296
  let t := s.setLease lease
    { l with fq := l.fq.hold v.record, svcs := l.svcs.map fun w => if w.entry = v.entry then { w with seq := seq, posted := true } else w }
  if v.record.flags = 0 && v.waiters.head?.any (!·.ofHub) then t.count lease 0x038 v.record.handle 1 else t

/-- Page-service records that waited for room, posted in order while there is some (R386). -/
def State.postServices (s : State) (lease : Nat) : State :=
  ((s.lease lease).svcs.filter fun v => !v.posted).foldl (fun t v =>
    if (t.lease lease).fq.held.length < Config.heldRecords then t.postService lease v else t) s

/-- An access waits on an absent page: on the record that stands for the entry, or on a new one (R389). -/
def State.waitPage (s : State) (lease entry value : Nat) (r : FaultRec) (waiter : Option Event) : State :=
  let l := s.lease lease
  if l.svcs.any fun v => v.entry == entry then
    s.setLease lease { l with svcs := l.svcs.map fun v =>
      if v.entry = entry then { v with waiters := v.waiters ++ waiter.toList } else v }
  else
    (s.setLease lease { l with svcs := l.svcs ++
      [⟨0, entry, false, waiter.toList, { r with detail0 := entry, detail1 := value }⟩] }).postServices lease

/-- The PAGESVC record of a walk (R388): DETAIL2 says whether the access writes and whether the host makes it. -/
def State.pageRecord (s : State) (handle node : Nat) (who : Option CtxId) (va : Nat) (write host : Bool) : FaultRec :=
  s.record 0x02 0x04 (if write then 1 else 0) (if host then 2 else 0) handle node who va 0 0 ((if write then 1 else 0) + (if host then 2 else 0))

/-- One record written into its slot of the ring (R386): `none` where the queue's records stay held. -/
def State.writeRecord (s : State) (lease : Nat) (r : FaultRec) : State × Bool :=
  let l := s.lease lease
  let q := l.fq
  let va := q.base.toNat + q.tail % 2 ^ q.sizel * 64
  match s.engineLoc none lease va true with
  | .found loc =>
    let t := s.homeWrite none loc r.bytes
    let raise := q.used = 0
    (t.modLease lease fun k =>
      let k1 := { k with fq := { k.fq with tail := (k.fq.tail + 1) % 4294967296, held := k.fq.held.tail } }
      if raise then k1.raiseVector 0 else k1, true)
  | .absent =>
    match s.walkOf lease va with
    | .absent entry value _ => (s.waitPage lease entry value (s.pageRecord 0 0xFFFF none va true false) none, false)
    | .found _ _ _ | .unmapped _ => (s, false)
  | .refused _ _ _ =>
    (s.modLease lease fun k => { k with fq := { k.fq with en := false, wrerr := true } }.raiseVector 0, false)

/-- Held records written in order while the ring has room (R386). -/
def State.flushRecords (s : State) (lease : Nat) : Nat → State
  | 0 => s
  | n + 1 =>
    let q := (s.lease lease).fq
    match q.held with
    | [] => s
    | r :: _ =>
      if q.en && decide (q.used < 2 ^ q.sizel) then
        let (t, ok) := s.writeRecord lease r
        if ok then t.flushRecords lease n else t
      else s

/-- Held records written, then page-service records posted that waited for room, as long as there are such (R386). -/
def State.serveFrom (s : State) (lease : Nat) : Nat → State
  | 0 => s.flushRecords lease 128
  | n + 1 =>
    let t := s.flushRecords lease 128
    let u := t.postServices lease
    if (u.lease lease).fq.held.length = (t.lease lease).fq.held.length then u else u.serveFrom lease n

/-- What the hub does for a fault queue when it may write again (R386): the write is an event of the lease's lock, and waits for those
queued before it (R399). -/
def State.serveQueue (s : State) (lease : Nat) : State :=
  if s.lockBusy lease then s.queueJob (.recordWrite lease) else s.serveFrom lease ((s.lease lease).svcs.length + 1)

/-- A record write that has had to wait: the records held before those that wait behind a later event of the lock (R386, R399). -/
def State.recordTurn (s : State) (lease : Nat) : State :=
  match (s.net.agenda.filter fun f => f.ev == .recordWrite lease).length with
  | 0 => s.serveFrom lease ((s.lease lease).svcs.length + 1)
  | n + 1 => s.flushRecords lease ((s.lease lease).fq.held.length - (n + 1))

/-- A record posted to a lease (R386). A lease that does not exist gets none (R379). -/
def State.postRecord (s : State) (lease : Nat) (r : FaultRec) : State :=
  if (s.lease lease).state = .none then s
  else (s.modLease lease fun l => { l with fq := l.fq.hold r }).serveQueue lease

/-- An access of an agent waits on an absent page of its lease, and is repeated by `waiter` after service (R389). -/
def State.awaitPage (s : State) (lease va : Nat) (r : FaultRec) (waiter : Event) : State :=
  match s.walkOf lease va with
  | .absent entry value _ => (s.waitPage lease entry value r (some waiter)).serveQueue lease
  | .found _ _ _ | .unmapped _ => s.post 2 waiter

/-! ### What a capture holds (R132) -/

/-- The instruction at the program counter, and its word, where it decodes. -/
def Ctx.fetched (x : Ctx) : Option (Instr × IWord) :=
  match x.window[x.pc.toNat]? with
  | some w => (decode w).toOption.map fun i => (i, w)
  | none => none

/-- A capture: the context with the loop-back of its youngest entry applied, its queue, and where fetch goes on. -/
structure Capture where
  ctx : Ctx
  queue : List RqEntry
  resume : PC

/-- The presented instruction captured as WAITING; behind 16 unfinished ones it is not, and fetch reaches it again (R86). -/
def Ctx.captureWaiting (x : Ctx) (older : List RqEntry) : Capture :=
  match if older.length < Config.unfinished then x.fetched else none with
  | some (i, w) => let (y, pc) := x.passBy i x.pc; ⟨y, older ++ [{ x with injecting := none }.entryFor i w x.pc 0], pc⟩
  | none => ⟨x, older, x.pc⟩

/-- A capture at an instruction boundary (R90, R132): the unfinished instructions, then the instruction that waits at issue or
the entries still to be re-injected. An IDLE whose event has come is complete, and a cut ends the wait of one (R261); an RPLY that waits keeps its entry in the trap's
queue (R257). -/
def Ctx.captured (x : Ctx) (cut : Bool) : Capture :=
  let older := x.pend.map Pend.entry
  match x.inject with
  | e :: rest =>
    if x.injectBy = .rply then ⟨{ x with rq := e :: x.rq.tail }, older ++ rest, x.pc⟩ else ⟨x, older ++ x.inject, x.pc⟩
  | [] =>
    match x.hold with
    | .blocked _ => x.captureWaiting older
    | .woken => let (y, pc) := x.loopBack x.pc; ⟨y, older, pc⟩
    | .idle => if cut then let (y, pc) := x.loopBack x.pc; ⟨y, older, pc⟩ else x.captureWaiting older
    | .free | .yielded => ⟨x, older, x.pc⟩

/-! ### Faults of a rectangle's units (R193, R394) -/

/-- A context whose request a target has refused stops at once and is captured as at a trap (R394). -/
def State.captureFault (s : State) (c : CtxId) (t : Trap) : State :=
  match s.ctx? c with
  | some x =>
    if x.stopped || x.cut.isSome then s
    else
      let k := x.captured false
      s.setCtx c (k.ctx.takeTrap t k.queue k.resume true)
  | none => s

/-- A fault event of the unit that issued a request, if its rectangle still stands (R207, R394). -/
def State.refuseFor (s : State) (src : Src) (cause sub addr detail : Nat) : State :=
  match src with
  | .task _ handle node ctx =>
    match s.live? handle with
    | some slot =>
      let who := (s.ctxs.find? fun p => p.1.slot == slot && p.2.node == node && p.1.ctx == ctx).map Prod.fst
      let t := who.elim s fun c => s.captureFault c ⟨BitVec.ofNat 8 cause, BitVec.ofNat 8 sub, BitVec.ofNat 64 addr, detail⟩
      t.post 3 (.faultEvent slot ⟨cause, sub, BitVec.ofNat 64 addr, node, who, 0, 0, detail⟩)
    | none => s
  | .memNode handle node =>
    match s.live? handle with
    | some slot => s.post 3 (.faultEvent slot ⟨cause, sub, BitVec.ofNat 64 addr, node, none, 1, 0, detail⟩)
    | none => s
  | .switch _ | .hostPort _ => s

/-- A refusal of a request by its target, or an error in the data that it reads, whose cause is open, since R85 names none (R193, R392,
R423). -/
def State.refuse (s : State) (src : Src) (cause sub addr detail : Nat) : State :=
  (s.causeSpent cause).refuseFor src (s.causeOf cause) sub addr detail

/-! ### Walks (R382, R383) -/

/-- A walk of a task's access that found its page: the shared TLB of its die and the context's own cache take the entry. -/
def State.walkFound (s : State) (c : CtxId) (x : Ctx) (die : Nat) (e : TlbEntry) : State :=
  (s.fillTlb die e).setCtx c
    { x with walk := { x.walk with busy := none }, tcache := fillCache Config.contextCache (Config.dropEntry (s.tick + 1)) x.tcache e }

/-- PAGE_WALK_DONE (R382): a walk of a context that no longer waits for it ends without effect. -/
def execPageWalkDone (s : State) : Host.Outcome State Fault Refusal :=
  match s.net.hand with
  | some (.pageWalkDone w) =>
    match w.who with
    | none => .fault .notDue
    | some c =>
      match s.ctx? c with
      | none => .next s
      | some x =>
        if x.walk.busy ≠ some (w.va / 65536) then .next s
        else
          match s.walkOf w.lease w.va with
          | .found leaf bytes wr => .next (s.walkFound c x w.die (tlbEntry w.lease w.va leaf bytes wr))
          | .unmapped m =>
            .next (s.setCtx c { x with walk := { busy := none, failed := (w.va / 65536, m) :: x.walk.failed } })
          | .absent entry value _ =>
            .next ((s.waitPage w.lease entry value (s.pageRecord x.handle x.node (some c) w.va w.write false)
              (some (.pageWalkDone w))).serveQueue w.lease)
  | _ => .fault .notDue

end Sys2Proof.Machine
end

