-- ==== Sys2Proof/Machine/Homes.lean ====
section
/-! DEFINITION. What happens at the homes and on the way to them: requests taken by slices, Splice ports and scratchpad ports,
replies and acknowledgements, barriers, withdrawals, purges, combining and the network (R72, R88, R199 to R219, R288 to R310,
R353 to R356, R374). -/

namespace Sys2Proof

/-- The object of a synchronisation request. -/
def Req.object? : Req → Option Loc
  | .acquire r | .release r => some r.loc
  | .rw _ | .amo _ | .dq _ | .waita _ | .pad _ | .pres _ | .node _ _ _ _ | .chunk _ _ _ _ => none

end Sys2Proof

namespace Sys2Proof.Machine

/-! ### Replies and acknowledgements (R62, R88, R90, R199, R209, R353) -/

/-- A permit returned to a cell's pool (R353). -/
def State.releasePermit (s : State) (k : CellId) (slice : Nat) : State :=
  if slice = 0 then s else s.modCell k fun c => { c with permits := c.permits.erase slice }

/-- A permit of a rectangle's cell returned: the cells of a rectangle that has passed to EMPTY are gone, and with them their
permits. -/
def State.returnPermit (s : State) (c : CtxId) (handle slice : Nat) : State :=
  if s.handleOf c.slot = handle then s.releasePermit c.cell slice else s

/-- The slices that still owe an answer after one of slice `n` came, and whether it was that slice's last. -/
def returnSlice (ks : List Nat) (n : Nat) : List Nat × Bool :=
  let r := ks.erase n
  (r, n != 0 && ks.contains n && !r.contains n)

/-- Lanes put into a vector register's value: the others keep theirs (R198). -/
def setLanes (old : List Lane) : List (Nat × Lane) → List Lane
  | [] => old
  | (i, l) :: ls => setLanes (old.set i l) ls

/-- A long-latency result written, its register full (R62): nothing is pushed (R58). -/
def Ctx.deliver (x : Ctx) (d : Dest) (val : BitVec 64) (lanes : List (Nat × Lane)) : Ctx :=
  match d with
  | .none => x
  | .sreg r => (x.putS r val).markS r true
  | .vreg r => (x.putV r (setLanes (x.v r) lanes)).markV r true

/-- The registers that an unfinished instruction reads, consumed as it completes (R59). -/
def longUses : Instr → List SReg × List VReg
  | .ldB o | .ldH o | .ldW o | .ldD o | .ldf o | .ldp o | .ldv o => ([o.base], [])
  | .ste o => ([o.base, o.d], [])
  | .ldg o => ([o.base], [o.idx])
  | .amo o | .amoC o => (if o.fn = .cas then [o.a, o.b, o.d] else [o.a, o.b], [])
  | .dqpush o => ([o.a, o.b], [])
  | .dqpop o | .dqsteal o => ([o.a], [])
  | .acq o | .acqs o => ([o.a], [])
  | .waita o => ([o.a, o.b], [])
  | _ => ([], [])

/-- An instruction's sources consumed as it completes (R59). -/
def Ctx.consume (x : Ctx) (i : Instr) : Ctx := (x.useAll (longUses i).1).useVAll (longUses i).2

/-- The word of a payload. -/
def payWord : Payload → BitVec 64
  | .word w => w
  | .nothing | .lanes _ => 0
/-- The lanes of a payload. -/
def payLanes : Payload → List (Nat × Lane)
  | .lanes ls => ls
  | .nothing | .word _ => []

/-- The destination of a queue entry (R87). -/
def RqEntry.dst (e : RqEntry) : Dest :=
  if e.file = 0 then .sreg e.dest else if e.file = 1 then .vreg (e.dest.setWidth 5) else .none

/-- A part of a reply joined to an entry of a queue: the last one completes it, with its value for the register that waits
(`none` while parts are missing). -/
def RqEntry.take (e : RqEntry) (slice : Nat) (v : Payload) : RqEntry :=
  { e with left := e.left - 1, slices := (returnSlice e.slices slice).1, lanes := e.lanes ++ payLanes v, b := payWord v }

/-- The first entry with an identifier changed. -/
def modEntry (id : Nat) (f : RqEntry → RqEntry) (q : List RqEntry) : List RqEntry :=
  q.map fun e => if e.id = id && e.status == 1#4 then f e else e

/-- The INFLIGHT entry with an identifier whose reply carries a sequence number (R307). -/
def findEntry (id : Nat) (seq : Option (BitVec 16)) (q : List RqEntry) : Option RqEntry :=
  q.find? fun e => e.id == id && e.status == 1#4 && e.seq == seq

/-- A reply that reaches an entry of the trap's queue or of a queue being re-injected: the last part writes the destination at
once, and the entry is COMPLETE (R88). -/
def Ctx.replyQueued (x : Ctx) (e : RqEntry) (slice : Nat) (v : Payload) : Ctx :=
  let e1 := e.take slice v
  if e1.left = 0 then
    let y := match e.decoded with
      | some i => x.consume i
      | none => x
    y.deliver e.dst e1.b e1.lanes
  else x

/-- The entry after that reply. -/
def RqEntry.afterQueued (slice : Nat) (v : Payload) (e : RqEntry) : RqEntry :=
  let e1 := e.take slice v
  if e1.left = 0 then { e1 with status := 4 } else e1

/-- The entry of a cut's queue after a reply: CONSUMED with its value in B, or COMPLETE where it has no destination (R90); such an
entry completes there, and its sources are consumed then (R59, R88). -/
def RqEntry.afterCut (slice : Nat) (v : Payload) (e : RqEntry) : RqEntry :=
  let e1 := e.take slice v
  if e1.left = 0 then (if e.dst = .none then { e1 with status := 4 } else { e1 with status := 2, vb := true }) else e1

/-- An event ends the wait of an IDLE (R261). -/
def Ctx.wake (x : Ctx) : Ctx := if x.hold = .idle then { x with hold := .woken } else x

/-- An entry whose last answer has come completes, and is counted then (R420). -/
def State.countLast (s : State) (x : Ctx) (e : RqEntry) : State :=
  if e.left ≤ 1 then s.count x.lease 0x001 x.handle 1 else s

/-- A part of a reply joined to an unfinished instruction: the last one completes it (R62, R420). -/
def State.replyPend (s : State) (c : CtxId) (x : Ctx) (p : Pend) (slice : Nat) (v : Payload) : State :=
  let q := { p with left := p.left - 1, slices := (returnSlice p.slices slice).1, val := payWord v, lanes := p.lanes ++ payLanes v }
  if q.left = 0 then
    let y := { x with pend := x.pend.filter fun r => r.id != p.id }
    (s.setCtx c ((y.consume p.instr).deliver p.dest q.val q.lanes).wake).count x.lease 0x001 x.handle 1
  else s.setCtx c { x with pend := x.pend.map fun r => if r.id = p.id then q else r }

/-- A permit goes back if the answer was its slice's last. -/
def State.giveBack (s : State) (c : CtxId) (ks : List Nat) (slice : Nat) : State :=
  if (returnSlice ks slice).2 then s.releasePermit c.cell slice else s

/-- A reply reaches a context (R62, R88, R90, R209, R307): a stale one writes nothing, and its permit returns to the pool. -/
def State.takeReply (s : State) (c : CtxId) (handle id slice : Nat) (seq : Option (BitVec 16)) (v : Payload) : State :=
  match s.ctx? c with
  | none => s.returnPermit c handle slice
  | some x =>
    if x.handle ≠ handle then s.returnPermit c handle slice
    else
      match x.pend.find? fun p => p.id == id && p.seq == seq with
      | some p => (s.replyPend c x p slice v).giveBack c p.slices slice
      | none =>
        match findEntry id seq x.inject with
        | some e =>
          let y := { x.replyQueued e slice v with inject := modEntry id (RqEntry.afterQueued slice v) x.inject }
          ((s.setCtx c y.wake).giveBack c e.slices slice).countLast x e
        | none =>
          match findEntry id seq x.rq with
          | some e =>
            let y := { x.replyQueued e slice v with rq := modEntry id (RqEntry.afterQueued slice v) x.rq }
            ((s.setCtx c y.wake).giveBack c e.slices slice).countLast x e
          | none =>
            match x.cut with
            | some k =>
              match findEntry id seq k.queue with
              | some e =>
                let y := if e.dst = .none ∧ e.left ≤ 1 then e.decoded.elim x x.consume else x
                let t := (s.setCtx c { y with cut := some { k with queue := modEntry id (RqEntry.afterCut slice v) k.queue } }).giveBack
                  c e.slices slice
                if e.dst = .none then t.countLast x e else t
              | none => s
            | none => s

/-- The value of a memory-node tag comes in (R299, R307). -/
def State.nodeReply (s : State) (slot idx tag : Nat) (seq : Option (BitVec 16)) (v : Payload) : State :=
  match s.node? slot idx with
  | none => s
  | some n =>
    let ls := match v with
      | .word w => [Lane.plain (w.setWidth 32), Lane.plain (w.extractLsb' 32 32)] ++ List.replicate 6 (Lane.plain 0)
      | .nothing => []
      | .lanes ls => ls.map Prod.snd
    s.setNode slot idx { n with tags := n.tags.map fun t => if t.tag = tag ∧ t.seq = seq then { t with val := some ls } else t }

/-- REPLY_ARRIVAL (R62, R88, R209). -/
def execReplyArrival (s : State) : Host.Outcome State Fault Refusal :=
  match s.net.hand with
  | some (.replyArrival (.ctxReply c handle id slice seq) v) => .next (s.takeReply c handle id slice seq v)
  | some (.replyArrival (.node slot idx tag seq) v) => .next (s.nodeReply slot idx tag seq v)
  | _ => .fault .notDue

/-- An acknowledgement reaches a context: the last of a tag frees it (R199, R307, R308). -/
def State.takeAck (s : State) (c : CtxId) (handle tag slice : Nat) (seq : Option (BitVec 16)) : State :=
  match s.ctx? c with
  | none => s.returnPermit c handle slice
  | some x =>
    if x.handle ≠ handle then s.returnPermit c handle slice
    else
      match x.tags.find? fun t => t.tag == tag && t.seq == seq with
      | none => s.returnPermit c handle slice
      | some t =>
        let t1 := { t with left := t.left - 1, slices := (returnSlice t.slices slice).1 }
        let ts := if t1.left = 0 then x.tags.filter fun w => w.tag != tag
          else x.tags.map fun w => if w.tag = tag then t1 else w
        (s.setCtx c { x with tags := ts }).giveBack c t.slices slice

/-- ACK_ARRIVAL (R199, R307). -/
def execAckArrival (s : State) : Host.Outcome State Fault Refusal :=
  match s.net.hand with
  | some (.ackArrival c handle tag slice seq) => .next (s.takeAck c handle tag slice seq)
  | _ => .fault .notDue

/-- The permit of a request that parks at its slice goes back with the parking notice (R353). -/
def State.parkNotice (s : State) (dst : ReplyTo) : State :=
  match dst with
  | .ctxReply c handle id slice _ =>
    match s.ctx? c with
    | some x =>
      if x.handle ≠ handle then s.returnPermit c handle slice
      else
        let drop := fun ks => (returnSlice ks slice).1
        let pass := modEntry id fun e => { e with slices := drop e.slices }
        let held := (x.pend.any fun p => p.id == id && p.slices.contains slice) ||
          ((x.rq ++ x.inject ++ (x.cut.elim [] CutRecord.queue)).any fun e =>
            e.id == id && e.status == 1#4 && e.slices.contains slice)
        if held then
          (s.setCtx c { x with
            pend := x.pend.map fun p => if p.id = id then { p with slices := drop p.slices } else p,
            rq := pass x.rq, inject := pass x.inject,
            cut := x.cut.map fun k => { k with queue := pass k.queue } }).releasePermit c.cell slice
        else s
    | none => s.returnPermit c handle slice
  | .none | .ctxAck _ _ _ _ _ | .split _ | .node _ _ _ _ | .host _ _ => s

/-! ### Sources (R207) -/

/-- The handle of a source, 0 where it has none. -/
def srcHandle : Src → Nat
  | .task _ h _ _ | .memNode h _ => h
  | .switch _ | .hostPort _ => 0

/-- The agent for which a request is made, as events count it: a host agent's events count nowhere (R286, R420). -/
def agentOf (lease : Nat) (src : Src) : Agent :=
  match src with
  | .task _ _ _ _ | .memNode _ _ | .switch _ => ⟨lease, srcHandle src⟩
  | .hostPort _ => noAgent

/-- A request of a rectangle that has passed to EMPTY takes no effect (R207). -/
def State.sourceGone (s : State) (src : Src) : Bool :=
  match src with
  | .task _ h _ _ | .memNode h _ => (s.live? h).isNone
  | .switch _ | .hostPort _ => false

/-- The number of a home: one more than a slice's, 257 and 258 for the Splice ports, of which the lease's host port uses one (R361,
R364), 259 for the homes of other devices (R374). -/
def State.homeNo (s : State) (lease : Nat) (l : Loc) : Nat :=
  match l with
  | .host _ => 257 + (s.lease lease).splice
  | .dev _ _ | .carve _ _ => s.sliceNo l
  | .remote _ _ _ => 259

/-- The reply held for a sequence number of a source at a home (R207). -/
def State.heldReply (s : State) (home : Nat) (src : Src) (seq : BitVec 16) : Option Payload :=
  (s.homes.replies.find? fun r => r.home == home && r.src == src && r.seq == seq).map Reply.val

/-- A reply kept: the last 16 of each source at each home (R207). -/
def keepReply (rs : List Reply) (r : Reply) : List Reply :=
  let same := fun (q : Reply) => q.home == r.home && q.src == r.src
  r :: (rs.filter fun q => !same q) ++ (rs.filter same).take 15

/-- An operation's reply kept at its home and sent. -/
def State.replyKept (s : State) (home : Nat) (src : Src) (seq : BitVec 16) (cls : Nat) (dst : ReplyTo) (v : Payload) : State :=
  ({ s with homes := { s.homes with replies := keepReply s.homes.replies ⟨home, src, seq, v⟩ } }).answer cls dst v

/-! ### Loads and stores at their homes (R196 to R199, R290, R309, R392) -/


/-- The die copy that serves a read of a task on another die than the home's, unless the slices have just dropped it (R290,
R296). -/
def State.dieCopy (s : State) (r : RwReq) : Option DieCopy :=
  if r.atHome || !Config.dieCopy s.tick then none
  else s.homes.copies.find? fun k => k.die == r.die && k.loc == r.loc.align 128

/-- The bytes of a request within a line's copy. -/
def DieCopy.part (k : DieCopy) (r : RwReq) : List Byte := (k.bytes.drop (r.loc.addr % 128)).take r.bytes

/-- A die copy that a read at the home may leave on the reader's die, within the lease's share of the shared cache, or that the slices drop
(R290, R391). -/
def State.copyLeft (s : State) (r : RwReq) : State :=
  match r.loc with
  | .dev _ _ =>
    let line := r.loc.align 128
    let t := s.dropLine r.die r.loc
    if Config.dieCopy (s.tick + 1) && decide ((s.sliceOf r.loc).map (· / 64) ≠ some r.die) then
      match t.makeRoom (agentOf r.lease r.src) (t.fillRoom (locLease line) (t.copySet r.die line)) with
      | some u => { u with homes := { u.homes with copies := ⟨r.die, line, s.load line 128⟩ :: u.homes.copies } }.bump.bump
      | none => t.bump.bump
    else t.bump.bump
  | .carve _ _ | .host _ | .remote _ _ _ => s

/-- The side-bands that a read carries: those of an FP4B line for LDV, else none (R197, R271). -/
def State.bandsFor (s : State) (r : RwReq) (off : Nat) : BitVec 8 × BitVec 16 :=
  if r.side then s.bandOf (r.loc.add off) else (0, 0)

/-- A read served: by a die copy, or at the home. -/
def State.homeRead (s : State) (r : RwReq) : State :=
  match s.dieCopy r with
  | some k =>
    (s.count r.lease 0x020 (srcHandle r.src) 1).answer r.cls r.reply (readPayload r.vec r.lane0 (s.bandsFor r) (k.part r))
  | none =>
    ((s.touch (agentOf r.lease r.src) r.loc false).copyLeft r).answer r.cls r.reply
      (readPayload r.vec r.lane0 (s.bandsFor r) (s.load r.loc r.bytes))

/-- A port or home has taken one of a tag's writes (R217). -/
def State.writeTaken (s : State) (dst : ReplyTo) : State :=
  match dst with
  | .ctxAck c handle tag _ _ => s.modCtx c fun x =>
      if x.handle = handle then
        { x with tags := x.tags.map fun t => if t.tag = tag then { t with taken := t.taken - 1 } else t }
      else x
  | .none | .ctxReply _ _ _ _ _ | .split _ | .node _ _ _ _ | .host _ _ => s

/-- HOME_READ_WRITE (R288, R289, R309). -/
def execHomeReadWrite (s : State) : Host.Outcome State Fault Refusal :=
  match s.net.hand with
  | some (.homeReadWrite r) =>
    if s.sourceGone r.src then .next s
    else if !s.admits r.lease r.loc then .next (s.refuse r.src 0x05 (s.refusal r.lease r.loc) 0 (s.refusal r.lease r.loc))
    else if !r.write && (s.dieCopy r).isNone && s.damaged r.loc r.bytes then .next (s.refuse r.src dataError 0 0 0)
    else if r.write then
      .next ((((s.touch (agentOf r.lease r.src) r.loc true).homeWrite (some r.die) r.loc r.data).writeTaken r.reply).answer
        r.cls r.reply .nothing)
    else .next (s.homeRead r)
  | _ => .fault .notDue

/-! ### Atomics (R206 to R209, R304, R305) -/

/-- The die of a memory-node context (R331). -/
def MemNode.die (n : MemNode) : Nat := n.context / 64

/-- The dies of the contexts for which a request is made: those of a combined request's parts (R208). -/
def State.partDies (s : State) : Nat → ReplyTo → List Nat
  | 0, _ => []
  | n + 1, dst =>
    match dst with
    | .split e =>
      match Tab.get? s.net.waits e with
      | some w => s.partDies n w.first.reply ++ s.partDies n w.second.reply
      | none => []
    | .ctxReply c _ _ _ _ | .ctxAck c _ _ _ _ => [s.dieOf c.cell]
    | .node slot i _ _ => ((s.node? slot i).map MemNode.die).toList
    | .none | .host _ _ => []

/-- What a combined request still does (R208): the parts of rectangles that have passed to EMPTY take no effect (R207); `none` where no
part is left. -/
def State.liveOperand (s : State) : Nat → AmoReq → Option (BitVec 64)
  | 0, r => some r.b
  | n + 1, r =>
    match r.reply with
    | .split e =>
      match Tab.get? s.net.waits e with
      | some w =>
        match s.liveOperand n w.first, s.liveOperand n w.second with
        | some a, some b => some (amoNew w.fn a b 0)
        | some a, none => some a
        | none, b => b
      | none => some r.b
    | .none | .ctxReply _ _ _ _ _ | .ctxAck _ _ _ _ _ | .node _ _ _ _ | .host _ _ => if s.sourceGone r.src then none else some r.b

/-- The wait-buffer entries of a combined request know the operand that their first part still has, or that it has none. -/
def State.voidParts (s : State) : Nat → AmoReq → State
  | 0, _ => s
  | n + 1, r =>
    match r.reply with
    | .split e =>
      match Tab.get? s.net.waits e with
      | some w =>
        let a := s.liveOperand n w.first
        let t := { s with net := { s.net with waits := Tab.put s.net.waits e { w with void := a.isNone, a1 := a.getD w.a1 } } }
        (t.voidParts n w.first).voidParts n w.second
      | none => s
    | .none | .ctxReply _ _ _ _ _ | .ctxAck _ _ _ _ _ | .node _ _ _ _ | .host _ _ => s

/-- A refusal of a request at its home word, or an error in the word, is a fault of the rectangle of every part (R193, R209); the
wait-buffer entries are freed. -/
def State.refuseParts (s : State) : Nat → AmoReq → Nat → Nat → State
  | 0, _, _, _ => s
  | n + 1, r, cause, kind =>
    match r.reply with
    | .split e =>
      match Tab.get? s.net.waits e with
      | some w =>
        (({ s with net := { s.net with waits := Tab.drop s.net.waits e } } : State).refuseParts n w.first cause kind).refuseParts n w.second
          cause kind
      | none => s
    | .none | .ctxReply _ _ _ _ _ | .ctxAck _ _ _ _ _ | .node _ _ _ _ | .host _ _ => s.refuse r.src cause kind 0 kind

/-- The handle under which an operation of a request counts: a combined one counts for the rectangle of its parts, if they have one
rectangle (R208, R420). -/
def State.amoHandle (s : State) : Nat → AmoReq → Nat
  | 0, _ => 0
  | n + 1, r =>
    match r.reply with
    | .split e =>
      match Tab.get? s.net.waits e with
      | some w =>
        let h := s.amoHandle n w.first
        if h = s.amoHandle n w.second then h else 0
      | none => 0
    | .none | .ctxReply _ _ _ _ _ | .ctxAck _ _ _ _ _ | .node _ _ _ _ | .host _ _ => srcHandle r.src

/-- The agent of an atomic request, as its events count (R286, R420). -/
def State.amoAgent (s : State) (r : AmoReq) : Agent :=
  match r.src with
  | .switch _ => ⟨r.lease, s.amoHandle 16 r⟩
  | .task _ _ _ _ | .memNode _ _ | .hostPort _ => agentOf r.lease r.src

/-- An atomic performed at its home: a failing CAS writes nothing; the line leaves the die copies of the agents' dies (R206,
R288, R290). -/
def State.performAtomic (s : State) (r : AmoReq) : State :=
  let w := BitVec.ofNat 64 (s.loadNat r.loc 8)
  let a := s.amoAgent r
  let t := (s.partDies 16 r.reply).foldl (fun u d => u.dropLine d r.loc) ((s.touch a r.loc true).count a.lease 0x030 a.handle 1)
  let u := if r.fn = .cas && w != r.cmp then t else t.homeWrite none r.loc (leBytes 8 (amoNew r.fn w r.b r.cmp).toNat)
  (u.writeTaken r.reply).replyKept (s.homeNo r.lease r.loc) r.src r.seq r.cls r.reply (if r.returning then .word w else .nothing)

/-- HOME_ATOMIC (R206): a sequence number already held is answered from the held replies and not executed again (R207). -/
def execHomeAtomic (s : State) : Host.Outcome State Fault Refusal :=
  match s.net.hand with
  | some (.homeAtomic r) =>
    if s.sourceGone r.src then .next s
    else if !s.admits r.lease r.loc then .next (s.refuseParts 16 r 0x05 (s.refusal r.lease r.loc))
    else
      match s.heldReply (s.homeNo r.lease r.loc) r.src r.seq, s.liveOperand 16 r with
      | some v, _ => .next (s.answer r.cls r.reply v)
      | none, some b =>
        if s.damaged r.loc 8 then .next (s.refuseParts 16 r dataError 0)
        else .next ((s.voidParts 16 r).performAtomic { r with b := b })
      | none, none => .next (s.answer r.cls r.reply .nothing)
  | _ => .fault .notDue

/-! ### Deques (R210, R211, R303) -/

/-- A deque descriptor (R210). -/
structure Deque where
  base : Nat
  capl : Nat
  top : Nat
  bottom : Nat
  zero : Bool

/-- The descriptor at a place. -/
def State.deque (s : State) (l : Loc) : Deque :=
  ⟨s.loadNat l 8, s.loadNat (l.add 8) 1, s.loadNat (l.add 16) 8, s.loadNat (l.add 24) 8,
   s.loadNat (l.add 9) 7 == 0 && s.loadNat (l.add 32) 32 == 0⟩

/-- Items in a deque. -/
def Deque.count (d : Deque) : Nat := (d.bottom + 2 ^ 64 - d.top) % 2 ^ 64
/-- The capacity of a deque. -/
def Deque.cap (d : Deque) : Nat := 2 ^ d.capl
/-- A malformed descriptor (R210). -/
def Deque.malformed (d : Deque) : Bool :=
  d.base % 8 != 0 || d.capl == 0 || decide (24 < d.capl) || !d.zero || decide (d.cap < d.count)
/-- The address of item `i`. -/
def Deque.itemAt (d : Deque) (i : Nat) : Nat := (d.base + 8 * (i % d.cap)) % 2 ^ 64

/-- A deque request is a push. -/
def isPush (r : DqReq) : Bool :=
  match r.op with
  | .push _ => true
  | .pop | .steal => false

/-- The empty marker (R211). -/
def emptyMarker : BitVec 64 := 0xFFFFFFFFFFFFFFFF#64

/-- How a deque request fares at its home. -/
inductive DqTry
  | done (s : State)
  | full
  | waits (s : State)

/-- A request's answer, with the acquire of a returned item (R303) and its count (R420). -/
def State.dequeAnswer (s : State) (r : DqReq) (v : Payload) (item : Bool) : State :=
  let t := match if item then s.dieOfReply r.reply else none with
    | some d => s.dropCopies r.lease d fun _ => true
    | none => s
  (t.count r.lease 0x030 (srcHandle r.src) 1).replyKept (s.homeNo r.lease r.loc) r.src r.seq r.cls r.reply v

/-- A line's die copies dropped on the die of a slice that writes it (R290). -/
def State.dropAt (s : State) (slice : Option Nat) (l : Loc) : State :=
  match slice with
  | some n => s.dropLine (n / 64) l
  | none => s

/-- A deque operation at the descriptor's home, which reaches the items as an engine of the lease does (R210, R211). -/
def State.tryDeque (s : State) (r : DqReq) : DqTry :=
  let d := s.deque r.loc
  let a := agentOf r.lease r.src
  let t := s.touch a r.loc (isPush r || d.count != 0)
  if s.damaged r.loc 64 then .done (s.refuse r.src dataError 0 0 0)
  else if d.malformed then .done (s.refuse r.src 0x05 0x30 r.va 0)
  else if isPush r && d.count == d.cap then .full
  else if !isPush r && d.count == 0 then .done (t.dequeAnswer r (.word emptyMarker) false)
  else
    let (i, field, next) := match r.op with
      | .push _ => (d.bottom, 24, d.bottom + 1)
      | .pop => ((d.bottom + 2 ^ 64 - 1) % 2 ^ 64, 24, (d.bottom + 2 ^ 64 - 1) % 2 ^ 64)
      | .steal => (d.top, 16, d.top + 1)
    let va := d.itemAt i
    match s.engineLoc none r.lease va (isPush r) with
    | .refused cause sub detail => .done (s.refuse r.src cause sub va detail)
    | .absent =>
      .waits (s.awaitPage r.lease va (s.pageRecord (srcHandle r.src) 0xFFFF none va (isPush r) false)
        (.homeDequeOp { r with parked := true }))
    | .found l =>
      if !isPush r && s.damaged l 8 then .done (s.refuse r.src dataError 0 0 0) else
      let u := match r.op with
        | .push b => ((t.touch a l true).dropAt (s.sliceOf r.loc) l).homeWrite (s.dieOfReply r.reply) l (leBytes 8 b.toNat)
        | .pop | .steal => t.touch a l false
      let v : Payload := match r.op with
        | .push _ => .nothing
        | .pop | .steal => .word (BitVec.ofNat 64 (s.loadNat l 8))
      .done ((u.homeWrite (s.dieOfReply r.reply) (r.loc.add field) (leBytes 8 (next % 2 ^ 64))).dequeAnswer r v (!isPush r))

/-- A waiting request of a deque. -/
def Waiter.onDeque (l : Loc) : Waiter → Option DqReq
  | .deque r => if r.loc = l then some r else none
  | .sync _ | .watch _ => none

/-- The same request as one that waits already: a copy that a link sent again has its source and its sequence number (R207, R374). -/
def Waiter.same : Waiter → Waiter → Bool
  | .deque q, .deque r => q.src == r.src && q.seq == r.seq && q.loc == r.loc && q.reply == r.reply
  | .sync q, .sync r => q == r
  | .watch q, .watch r => q == r
  | _, _ => false

/-- A waiting request removed. -/
def State.unwait (s : State) (w : Waiter) : State :=
  { s with homes := { s.homes with waiters := s.homes.waiters.filter fun v => !v.same w } }
/-- A request that waits at its home from now on, unless it does already. -/
def State.await (s : State) (w : Waiter) : State :=
  if s.homes.waiters.any w.same then s else { s with homes := { s.homes with waiters := s.homes.waiters ++ [w] } }

/-- Waiting requests of a deque that now can go on, in arrival order: a push on a full deque waits, what waits behind it does
not (R210, R211); one of a rectangle that has passed to EMPTY goes without effect (R207). The pushes that stay are parked on a full
deque, and have their permits returned (R353). -/
def State.serveDeque (s : State) (l : Loc) : Nat → State
  | 0 => s
  | n + 1 =>
    let full := (s.deque l).count == (s.deque l).cap
    let rs := s.homes.waiters.filterMap (Waiter.onDeque l)
    match rs.find? fun r => !(isPush r && full) with
    | none => rs.foldl (fun t r => t.parkNotice r.reply) s
    | some r =>
      if s.sourceGone r.src then (s.unwait (.deque r)).serveDeque l n
      else
        match s.tryDeque r with
        | .done t => (t.unwait (.deque r)).serveDeque l n
        | .full => s
        | .waits t => t

/-- A request waits on the deque for a page, and others wait behind it (R210). -/
def State.dequeBusy (s : State) (r : DqReq) : Bool :=
  let full := (s.deque r.loc).count == (s.deque r.loc).cap
  match (s.homes.waiters.filterMap (Waiter.onDeque r.loc)).find? fun q => !(isPush q && full) with
  | some q => !(Waiter.deque q).same (.deque r)
  | none => false

/-- HOME_DEQUE_OP (R210, R211): a request that reaches its home or, with `parked`, one that waits there and is taken up again, unless
it has been withdrawn meanwhile (R203). -/
def execHomeDequeOp (s : State) : Host.Outcome State Fault Refusal :=
  match s.net.hand with
  | some (.homeDequeOp q) =>
    let r := { q with parked := false }
    if q.parked && !s.homes.waiters.contains (.deque r) then .next s
    else if s.sourceGone r.src then .next (s.unwait (.deque r))
    else if !s.admits r.lease r.loc then .next ((s.unwait (.deque r)).refuse r.src 0x05 (s.refusal r.lease r.loc) 0 (s.refusal r.lease r.loc))
    else
      match s.heldReply (s.homeNo r.lease r.loc) r.src r.seq with
      | some v => .next (if r.retrans then (s.unwait (.deque r)).answer r.cls r.reply v else s.unwait (.deque r))
      | none =>
        if s.dequeBusy r then .next (s.await (.deque r))
        else
          match s.tryDeque r with
          | .done t => .next ((t.unwait (.deque r)).serveDeque r.loc (s.homes.waiters.length + 1))
          | .full => .next ((s.parkNotice r.reply).await (.deque r))
          | .waits t => .next (t.await (.deque r))
  | _ => .fault .notDue

/-! ### Sync objects (R216, R297) -/

/-- Holds of an object. -/
def State.holdsOf (s : State) (l : Loc) : List SyncHold := s.homes.holds.filter fun h => h.loc == l
/-- The waiting requests of an object, in arrival order. -/
def State.queueOf (s : State) (l : Loc) : List SyncReq :=
  s.homes.waiters.filterMap fun w => match w with
    | .sync r => if r.loc = l then some r else none
    | .deque _ | .watch _ => none
/-- A request is compatible with the holds (R216). -/
def State.grantable (s : State) (r : SyncReq) : Bool :=
  if r.shared then (s.holdsOf r.loc).all SyncHold.shared else (s.holdsOf r.loc).isEmpty

/-- The objects that take an entry of a slice's sync table (R216). -/
def State.objectsAt (s : State) (home : Nat) : List Loc :=
  (((s.homes.holds.filter fun h => s.homeNo h.lease h.loc == home).map SyncHold.loc) ++ s.homes.waiters.filterMap fun w => match w with
    | .sync r => if s.homeNo r.lease r.loc = home then some r.loc else none
    | .deque _ | .watch _ => none).eraseDups
/-- The waiting-request entries in use at a slice (R216). -/
def State.syncWaitsAt (s : State) (home : Nat) : Nat :=
  (s.homes.waiters.filter fun w => match w with
    | .sync r => s.homeNo r.lease r.loc == home
    | .deque _ | .watch _ => false).length

/-- A line lies in a region bound to an object, whatever address names the object (R297). -/
def State.boundLine (s : State) (lease : Nat) (obj l : Loc) : Bool :=
  (s.lease lease).regions.any fun p =>
    let r := p.2
    r.valid && s.engineLoc none lease r.sync false == .found obj && ((List.range ((r.limit - r.base) / 128)).any fun i =>
      match s.engineLoc none lease (r.base + 128 * i) false with
      | .found m => m == l
      | .absent | .refused _ _ _ => false)

/-- A grant: the context holds the object, the die copies of the object's regions are dropped on its die, and the request is
answered (R216, R292, R297). -/
def State.grant (s : State) (r : SyncReq) : State :=
  let t := { s with homes := { s.homes with holds := s.homes.holds ++ [(⟨r.lease, r.loc, r.src, r.shared⟩ : SyncHold)] } }
  (t.dropCopies r.lease (s.dieOf r.who.cell) fun l => s.boundLine r.lease r.loc l).answer r.cls r.reply .nothing

/-- Waiting requests granted in arrival order, the shared ones at the head together (R216); none of a rectangle that has passed to EMPTY
(R207). -/
def State.serveSync (s : State) (l : Loc) : Nat → State
  | 0 => s
  | n + 1 =>
    match s.queueOf l with
    | [] => s
    | r :: _ =>
      if s.sourceGone r.src then (s.unwait (.sync r)).serveSync l n
      else if s.grantable r then ((s.unwait (.sync r)).grant r).serveSync l n else s

/-- HOME_ACQUIRE_REQUEST (R216). -/
def execHomeAcquireRequest (s : State) : Host.Outcome State Fault Refusal :=
  match s.net.hand with
  | some (.homeAcquireRequest r) =>
    let home := s.homeNo r.lease r.loc
    let known := (s.objectsAt home).contains r.loc
    let waits := !(s.queueOf r.loc).isEmpty || !s.grantable r
    if s.sourceGone r.src then .next s
    else if (!known && decide (Config.syncObjects ≤ (s.objectsAt home).length)) ||
        (waits && decide (Config.syncWaiters ≤ s.syncWaitsAt home)) then
      .next (s.postFirst 256 r.cls (.retryResend (.acquire r)))
    else if waits then .next ((s.parkNotice r.reply).await (.sync r))
    else .next (s.grant r)
  | _ => .fault .notDue

/-- HOME_RELEASE (R216): a release without a hold changes nothing and is counted. -/
def execHomeRelease (s : State) : Host.Outcome State Fault Refusal :=
  match s.net.hand with
  | some (.homeRelease r) =>
    let t := match r.reply with
      | .ctxAck c handle _ slice _ => s.returnPermit c handle slice
      | .none | .ctxReply _ _ _ _ _ | .split _ | .node _ _ _ _ | .host _ _ => s
    if s.sourceGone r.src then .next t
    else
      match s.homes.holds.find? fun h => h.loc == r.loc && h.src == r.src with
      | some h =>
        .next ({ t with homes := { t.homes with holds := t.homes.holds.erase h } }.serveSync r.loc
          (s.homes.waiters.length + 1))
      | none => .next (t.modLease r.lease fun l => { l with errStray := min 65535 (l.errStray + 1) })
  | _ => .fault .notDue

/-! ### WAITA (R218) -/

/-- Watches held at a slice. -/
def State.watchesAt (s : State) (home : Nat) : Nat :=
  (s.homes.waiters.filter fun w => match w with
    | .watch r => s.sliceNo r.loc == home
    | .sync _ | .deque _ => false).length

/-- HOME_WAITA_REQUEST (R218): a word in host memory is read again every 512 ns. -/
def execHomeWaitaRequest (s : State) : Host.Outcome State Fault Refusal :=
  match s.net.hand with
  | some (.homeWaitaRequest r) =>
    if s.sourceGone r.src then .next s
    else if !s.admits r.lease r.loc then .next (s.refuse r.src 0x05 (s.refusal r.lease r.loc) 0 (s.refusal r.lease r.loc))
    else if s.damaged r.loc (if r.w32 then 4 else 8) then .next (s.refuse r.src dataError 0 0 0)
    else if s.waitaMet r then .next (s.waitaDone r)
    else if r.loc.isHost then .next (s.postIn 2048 r.cls (.waitaHostPoll r))
    else if Config.watches ≤ s.watchesAt (s.sliceNo r.loc) then
      .next (s.postFirst 256 r.cls (.retryResend (.waita r)))
    else .next ((s.parkNotice r.reply).await (.watch r))
  | _ => .fault .notDue

/-- WAITA_HOST_POLL (R218). -/
def execWaitaHostPoll (s : State) : Host.Outcome State Fault Refusal :=
  match s.net.hand with
  | some (.waitaHostPoll r) =>
    if s.sourceGone r.src then .next s
    else if s.waitaMet r then .next (s.waitaDone r)
    else .next (s.postIn 2048 r.cls (.waitaHostPoll r))
  | _ => .fault .notDue

/-! ### Scratchpad ports (R72, R200, R201, R229) -/

/-- A scratchpad port took an access at a place of the order of one cycle (R72). -/
def State.portTook (s : State) (k : CellId) (n : Nat) : State := s.modCell k fun d => d.portTook s.clock.cycles n

/-- SCRATCHPAD_PORT_ACCESS (R72): a plain access; the cell serves it halted or not (R53). -/
def execScratchpadPortAccess (s : State) : Host.Outcome State Fault Refusal :=
  match s.net.hand with
  | some (.scratchpadPortAccess r) =>
    match s.cell? r.cell with
    | none => .next s
    | some k =>
      let t := s.portTook r.cell (s.portOrder r.reply r.cell)
      if r.write then .next (((t.padPut r.cell r.off r.data r.back).writeTaken r.reply).answer r.cls r.reply .nothing)
      else .next (t.answer r.cls r.reply (readPayload r.vec r.lane0 noBand (k.get r.off r.bytes r.back)))
  | _ => .fault .notDue

/-- PRESENCE_PORT_REQUEST (R200, R201): the test, the access and the update, or a place among the parked requests; a full
table answers RETRY, and the cell resends 64 cycles later. -/
def execPresencePortRequest (s : State) : Host.Outcome State Fault Refusal :=
  match s.net.hand with
  | some (.presencePortRequest r) =>
    match s.cell? r.cell with
    | none => .next s
    | some d =>
      let k := d.portTook s.clock.cycles (s.portOrder r.reply r.cell)
      match k.presence r with
      | some (k2, v) =>
        .next (((s.setCell r.cell k2).answer r.cls r.reply v).wakeParked r.cell (k.phys r.off false / 8) (k.parked.length + 1))
      | none =>
        if k.parked.length < Config.parked then .next (s.setCell r.cell { k with parked := k.parked ++ [r] })
        else .next (s.postFirst 64 r.cls (.retryResend (.pres r)))
  | _ => .fault .notDue

/-- RETRY_RESEND (R201, R216, R218): the request goes to its target again. -/
def execRetryResend (s : State) : Host.Outcome State Fault Refusal :=
  match s.net.hand with
  | some (.retryResend r) => .next (s.post r.cls r.event)
  | _ => .fault .notDue

/-! ### Barriers (R205, R219) -/

/-- The contexts of a slot with a property. -/
def State.ctxsOf (s : State) (slot : Nat) (p : Ctx → Bool) : List CtxId :=
  (s.ctxs.filter fun q => q.1.slot == slot && p q.2).map Prod.fst

/-- The participants of a barrier's scope: the tasks whose code holds the word (R205, R219). -/
def State.participants (s : State) (c : CtxId) (xbar rect : Bool) : List CtxId :=
  (s.ctxsOf c.slot fun x => match xbar, rect with
    | true, true => x.xbarRect
    | true, false => x.xbarCrew
    | false, true => x.barRect
    | false, false => x.barCrew).filter fun d => rect || d.cell == c.cell

/-- The arrivals of a barrier's scope. -/
def Rect.arrivals (r : Rect) (c : CtxId) (xbar rect : Bool) : List Arrival :=
  r.arrived.filter fun a => a.xbar == xbar && a.rect == rect && (rect || a.who.cell == c.cell)

/-- A cell's halves swap (R70, R205). -/
def Cell.swap (k : Cell) : Cell := { k with front := !k.front }

/-- The halves of the scope's exchange-mode cells swap, before any access of the cycle, and what is parked there meets the new front
(R72, R205). -/
def State.swapCells (s : State) (ids : List CellId) : State :=
  ids.foldl (fun t id =>
    let u := (t.modCell id Cell.swap).portTook id swapOrder
    match u.cell? id with
    | some k => k.parked.foldl (fun v r => v.wakeParked id (k.phys r.off false / 8) (k.parked.length + 1)) u
    | none => u) s

/-- A participant's barrier completes: an acquire (R292), then its reply. -/
def State.releaseArrival (s : State) (a : Arrival) : State :=
  match s.ctx? a.who with
  | some x =>
    (s.dropCopies x.lease (s.dieOf a.who.cell) fun _ => true).answer a.cls (.ctxReply a.who x.handle a.id 0 none) .nothing
  | none => s

/-- A participant arrives; the last one of the scope completes the episode (R205, R219). -/
def State.arrive (s : State) (c : CtxId) (rect : Bool) (id : Nat) (xbar : Bool) : State :=
  match s.rect? c.slot, s.ctx? c with
  | some r, some x =>
    let r1 := { r with arrived := r.arrived ++ [⟨c, id, xbar, rect, s.net.cls⟩] }
    let as := r1.arrivals c xbar rect
    if as.length < (s.participants c xbar rect).length then s.setRect c.slot r1
    else
      let t := s.setRect c.slot { r1 with arrived := r1.arrived.filter fun a => !as.contains a }
      let u := if xbar then t.swapCells (t.exchanges c x rect) else t
      as.foldl State.releaseArrival u
  | _, _ => s

/-- XBAR_ARRIVAL (R205). -/
def execXbarArrival (s : State) : Host.Outcome State Fault Refusal :=
  match s.net.hand with
  | some (.xbarArrival c rect id) => .next (s.arrive c rect id true)
  | _ => .fault .notDue

/-- BAR_ARRIVAL (R219). -/
def execBarArrival (s : State) : Host.Outcome State Fault Refusal :=
  match s.net.hand with
  | some (.barArrival c rect id) => .next (s.arrive c rect id false)
  | _ => .fault .notDue

/-! ### Withdrawals and purges (R203, R207) -/

/-- An answer goes to a context's unfinished instruction. -/
def namesReply (c : CtxId) (id : Nat) : ReplyTo → Bool
  | .ctxReply d _ n _ _ => d == c && n == id
  | .none | .ctxAck _ _ _ _ _ | .split _ | .node _ _ _ _ | .host _ _ => false

/-- The waiting request of a context's instruction. -/
def Waiter.reply : Waiter → ReplyTo
  | .sync r => r.reply
  | .deque r => r.reply
  | .watch r => r.reply

/-- The source of a waiting request. -/
def Waiter.src : Waiter → Src
  | .sync r => r.src
  | .deque r => r.src
  | .watch r => r.src
/-- The place at whose home a request waits. -/
def Waiter.loc : Waiter → Loc
  | .sync r => r.loc
  | .deque r => r.loc
  | .watch r => r.loc

/-- A flight that carries a request waiting to be resent or polled for a context's instruction. -/
def waitsToResend (c : CtxId) (id : Nat) (f : Flight) : Bool :=
  match f.ev with
  | .retryResend r => namesReply c id r.reply
  | .waitaHostPoll r => namesReply c id r.reply
  | _ => false

/-- The entry that a withdrawal returns to WAITING (R203). -/
def State.rewait (s : State) (c : CtxId) (id : Nat) : State :=
  let again := modEntry id fun e => { e with status := 0, id := 0, left := 0, slices := [], seq := none }
  s.modCtx c fun x => { x with rq := again x.rq, cut := x.cut.map fun k => { k with queue := again k.queue } }

/-- What waits is served once a waiting request is gone. -/
def State.serveAfter (s : State) (w : Waiter) : State :=
  match w with
  | .sync r => s.serveSync r.loc (s.homes.waiters.length + 1)
  | .deque r => s.serveDeque r.loc (s.homes.waiters.length + 1)
  | .watch _ => s

/-- A withdrawal taken at the target (R203): what waits there is removed with no effect; what is satisfied already stays so. -/
def State.withdraw (s : State) (c : CtxId) (id : Nat) : State :=
  match s.homes.waiters.find? fun w => namesReply c id w.reply with
  | some w => ((s.unwait w).rewait c id).serveAfter w
  | none =>
    match s.cells.find? fun p => p.2.parked.any fun r => namesReply c id r.reply with
    | some p =>
      (s.modCell p.1 fun k => { k with parked := k.parked.filter fun r => !namesReply c id r.reply }).rewait c id
    | none =>
      if s.net.agenda.any (waitsToResend c id) then
        ({ s with net := { s.net with agenda := s.net.agenda.filter fun f => !waitsToResend c id f } }).rewait c id
      else if (s.rect? c.slot).any fun r => r.arrived.any fun a => a.who == c && a.id == id then
        (s.modRect c.slot fun r => { r with arrived := r.arrived.filter fun a => !(a.who == c && a.id == id) }).rewait c id
      else s

/-- The cell at whose port a context's request is parked, and the place of its withdrawal in the port's order of one cycle: an access
from the same source (R72, R203). -/
def State.withdrawnAt (s : State) (c : CtxId) (id : Nat) : Option (CellId × Nat) :=
  (s.cells.find? fun p => p.2.parked.any fun r => namesReply c id r.reply).map fun p =>
    (p.1, s.portOrder (.ctxReply c 0 id 0 none) p.1)

/-- WITHDRAWAL_ARRIVAL (R72, R203). -/
def execWithdrawalArrival (s : State) : Host.Outcome State Fault Refusal :=
  match s.net.hand with
  | some (.withdrawalArrival c id) =>
    .next (((s.withdrawnAt c id).elim s fun p => s.portTook p.1 p.2).withdraw c id)
  | _ => .fault .notDue

/-- The lease of a waiting request. -/
def Waiter.lease : Waiter → Nat
  | .sync r => r.lease
  | .deque r => r.lease
  | .watch r => r.lease

/-- The home number that a purge's target answers for: the slices are targets 0 to 255, the Splice ports 256 and 257. -/
def purgeHome (target : Nat) : Nat := target + 1

/-- A purge removes a handle's waiting requests and held replies at a target, and releases its holds (R207, R216). -/
def State.purge (s : State) (handle target : Nat) : State :=
  let home := purgeHome target
  let gone := s.homes.waiters.filter fun w => srcHandle w.src == handle && s.homeNo w.lease w.loc == home
  let freed := s.homes.holds.filter fun h => srcHandle h.src == handle && s.homeNo h.lease h.loc == home
  let t := { s with homes := { s.homes with
    replies := s.homes.replies.filter fun r => !(srcHandle r.src == handle && r.home == home),
    waiters := s.homes.waiters.filter fun w => !gone.contains w,
    holds := s.homes.holds.filter fun h => !freed.contains h } }
  let u := freed.foldl (fun v h => v.serveSync h.loc (s.homes.waiters.length + 1)) (gone.foldl State.serveAfter t)
  let k := u.slot (hSlot handle)
  { u with rects := Tab.put u.rects (hSlot handle) { k with purges := k.purges.erase target } }

/-- PURGE_ARRIVAL (R207). -/
def execPurgeArrival (s : State) : Host.Outcome State Fault Refusal :=
  match s.net.hand with
  | some (.purgeArrival handle target) => .next (s.purge handle target)
  | _ => .fault .notDue

/-! ### Combining (R54, R208, R209, R310) -/

/-- Two requests come from one lease; on the way to another device, the target's lease tag, which their place holds, decides (R208,
R374). -/
def sameLease (a b : AmoReq) : Bool :=
  match a.loc with
  | .remote _ _ _ => true
  | .dev _ _ | .carve _ _ | .host _ => a.lease == b.lease

/-- Two requests may combine (R208). -/
def combinable (q : Nat) (a b : AmoReq) : Bool :=
  a.loc == b.loc && a.fn == b.fn && sameLease a b && a.comb && b.comb && !a.retrans && !b.retrans &&
    a.queue == some q && b.queue == some q && a != b

/-- The operand of the forwarded request (R208). -/
def combined (fn : AmoFn) (a b : BitVec 64) : BitVec 64 := amoNew fn a b 0

/-- What the second part receives (R208). -/
def secondValue (fn : AmoFn) (v a : BitVec 64) : BitVec 64 := amoNew fn v a 0

/-- Wait-buffer entries of a switch. -/
def State.waitsOf (s : State) (q : Nat) : Nat := (s.net.waits.filter fun p => p.2.switch == q).length

/-- A request on its way in a combining queue. -/
def carries (r : AmoReq) (f : Flight) : Bool := f.ev == .homeAtomic r

/-- Who waits for an answer: a context, a memory node or a host port; a combined request is made for all of its parts. -/
def State.askers (s : State) : Nat → ReplyTo → List ReplyTo
  | 0, _ => []
  | n + 1, dst =>
    match dst with
    | .split e =>
      match Tab.get? s.net.waits e with
      | some w => s.askers n w.first.reply ++ s.askers n w.second.reply
      | none => []
    | .ctxReply c _ _ _ _ | .ctxAck c _ _ _ _ => [.ctxReply c 0 0 0 none]
    | .node slot i _ _ => [.node slot i 0 none]
    | .host p _ => [.host p 0]
    | .none => []

/-- Two requests of one source touch the same bytes or the same object (R199, R216). -/
def State.sameBytes (s : State) (a b : Req) : Bool :=
  ((s.askers 16 a.reply).any fun p => (s.askers 16 b.reply).contains p) &&
    ((match reqPlace a, reqPlace b with
      | some p, some q => p.meets q
      | _, _ => false) ||
     (match a.object?, b.object? with
      | some p, some q => p == q
      | _, _ => false))

/-- The packets that come between the two parts of a pair. -/
def between (a b : AmoReq) (fs : List Flight) : List Flight :=
  ((fs.dropWhile fun f => !carries a f).drop 1).takeWhile fun f => !carries b f

/-- The second part of a pair may go on with the first: it passes no older request of its source over its word (R288, R291). -/
def State.mayJoin (s : State) (a b : AmoReq) : Bool :=
  !(between a b s.net.agenda).any fun f => (f.ev.req?).any fun r => s.sameBytes r (.amo b)

/-- The packets on their way with one in the place of the first part of a pair, and without the second (R288). -/
def joined (a b : AmoReq) (g : Flight) (fs : List Flight) : List Flight :=
  (fs.map fun f => if carries a f then g else f).filter fun f => !carries b f

/-- COMBINE_AT_SWITCH (R208): the two parts leave the queue and one request goes on in the place of the first, in the class of
its packet, where the classes of the two differ too: DESIGN CHOICE (log entry 125). The wait buffer holds 32 entries. -/
def execCombineAtSwitch (s : State) : Host.Outcome State Fault Refusal :=
  match s.net.hand with
  | some (.combineAtSwitch q a b) =>
    match s.net.agenda.find? (carries a) with
    | some f =>
      if combinable q a b && s.net.agenda.any (carries b) && s.mayJoin a b && decide (s.waitsOf q < Config.waitBuffer) then
        let e := s.clock.nextId
        let n := (Tab.get? s.net.forwarded q).getD 0 + 1
        let r : AmoReq := ⟨.switch q, a.lease, n, a.fn, a.loc, combined a.fn a.b b.b, 0, a.returning || b.returning,
          true, false, some (Config.combiningQueue s.tick), .split e, f.cls⟩
        let g : Flight := ⟨s.clock.cycles, f.cls, Config.buffer s.tick, s.clock.cycles, .homeAtomic r⟩
        let t := { s.fresh with net := { s.net with
          agenda := joined a b g s.net.agenda,
          waits := Tab.put s.net.waits e ⟨q, a.fn, a.b, false, a, b⟩, forwarded := Tab.put s.net.forwarded q n } }
        let h := s.amoHandle 16 a
        .next (t.bump.count a.lease 0x031 (if h = s.amoHandle 16 b then h else 0) 1)
      else .fault .notDue
    | none => .fault .notDue
  | _ => .fault .notDue

/-- COMBINE_WAIT_EXPIRY (R54): a request that found no partner leaves the queue. -/
def execCombineWaitExpiry (s : State) : Host.Outcome State Fault Refusal :=
  match s.net.hand with
  | some (.combineWaitExpiry r) =>
    if s.net.agenda.any (carries r) && r.queue.isSome then
      let leave := fun (f : Flight) => if carries r f then { f with ev := .homeAtomic { r with queue := none } } else f
      .next { s with net := { s.net with agenda := s.net.agenda.map leave } }
    else .fault .notDue
  | _ => .fault .notDue

/-- A part's share of a combined reply; a posted part gets an acknowledgement (R208). -/
def State.answerPart (s : State) (r : AmoReq) (v : BitVec 64) : State :=
  (s.writeTaken r.reply).answer r.cls r.reply (if r.returning then .word v else .nothing)

/-- COMBINED_REPLY_SPLIT (R208, R209): the entry is freed as its reply passes; the answer of a copy that a link sent again finds none. -/
def execCombinedReplySplit (s : State) : Host.Outcome State Fault Refusal :=
  match s.net.hand with
  | some (.combinedReplySplit e v) =>
    match Tab.get? s.net.waits e with
    | some w =>
      let t := { s with net := { s.net with waits := Tab.drop s.net.waits e } }
      .next ((t.answerPart w.first (payWord v)).answerPart w.second
        (if w.void then payWord v else secondValue w.fn (payWord v) w.a1))
    | none => .next s
  | _ => .fault .notDue

/-! ### The network (R355, R356, R374) -/

/-- The request that a packet on its way carries, an engine's too. -/
def Flight.request? (f : Flight) : Option Req :=
  match f.ev with
  | .nodeReadResponse slot idx tag => some (.node slot idx tag f.cls)
  | .copyChunkLand p id k => some (.chunk p id k f.cls)
  | e => e.req?

/-- A packet that a class 3 packet may evict: a request bound for a slice, a scratchpad port or the Splice port (R356). -/
def isRequest (f : Flight) : Bool :=
  match f.ev with
  | .homeReadWrite _ | .homeAtomic _ | .homeDequeOp _ | .homeAcquireRequest _ | .homeRelease _ | .homeWaitaRequest _
  | .scratchpadPortAccess _ | .presencePortRequest _ | .nodeReadResponse _ _ _ | .copyChunkLand _ _ _ => true
  | _ => false

/-- The flight that was sent last. -/
def youngest : List Flight → Option Flight
  | [] => none
  | f :: fs =>
    match youngest fs with
    | none => some f
    | some g => if g.since < f.since then some f else some g

/-- The victim in a buffer: the youngest class 0 request, or else the youngest class 1 request (R356). -/
def victimIn (buf : Nat) (fs : List Flight) : Option Flight :=
  let of := fun k => youngest (fs.filter fun f => f.buf == buf && f.cls == k && isRequest f)
  match of 0 with
  | some f => some f
  | none => of 1

/-- URGENT_PACKET_EVICT (R356): the victim, a class 0 or 1 request on its way, leaves its buffer; a class 3 notice goes to its source, which
resends it 64 cycles later; what the source sent later over the same bytes stays behind it (R288). -/
def execUrgentPacketEvict (s : State) : Host.Outcome State Fault Refusal :=
  match s.net.hand with
  | some (.urgentPacketEvict n) =>
    match s.net.agenda[n]? with
    | some f =>
      match f.request? with
      | some r =>
        if isRequest f && decide (f.cls < 2) then
          let g : Flight := { f with due := s.clock.cycles + 64, cls := 3, since := s.clock.cycles, ev := .evictionResend r }
          .next { s with net := { s.net with agenda := s.net.agenda.set n g } }
        else .fault .notDue
      | none => .fault .notDue
    | none => .fault .noUnit
  | _ => .fault .notDue

/-- EVICTION_RESEND (R356): the same request with the same tag or sequence number; it may combine again. -/
def execEvictionResend (s : State) : Host.Outcome State Fault Refusal :=
  match s.net.hand with
  | some (.evictionResend r) =>
    let r1 : Req := match r with
      | .amo a => .amo { a with queue := if a.comb then some (Config.combiningQueue s.tick) else none }
      | .rw _ | .dq _ | .acquire _ | .release _ | .waita _ | .pad _ | .pres _ | .node _ _ _ _ | .chunk _ _ _ _ => r
    .next (s.postFirst 0 r.cls r1.event)
  | _ => .fault .notDue

/-- PACKET_PROMOTION (R355): a class 0 or 1 packet that has waited 2,048 cycles in one buffer is served as class 2, and is of class 2 for R356
too: DESIGN CHOICE (log entry 124). -/
def execPacketPromotion (s : State) : Host.Outcome State Fault Refusal :=
  match s.net.hand with
  | some (.packetPromotion n) =>
    match s.net.agenda[n]? with
    | some f =>
      if f.cls < 2 && decide (f.since + 2048 ≤ s.clock.cycles) then
        .next { s with net := { s.net with agenda := s.net.agenda.modify n fun g => { g with cls := 2 } } }
      else .fault .notDue
    | none => .fault .noUnit
  | _ => .fault .notDue

/-- LINK_RETRANSMISSION (R374): a scale-up link sends a request again. An atomic or deque request is answered from its home's
held replies and takes effect once (R207); a link sends no other request twice to its target. -/
def execLinkRetransmission (s : State) : Host.Outcome State Fault Refusal :=
  match s.net.hand with
  | some (.linkRetransmission (.amo r)) =>
    .next (s.post r.cls (.homeAtomic { r with retrans := true, queue := none }))
  | some (.linkRetransmission (.dq r)) => .next (s.post r.cls (.homeDequeOp { r with retrans := true }))
  | some (.linkRetransmission _) => .next s
  | _ => .fault .notDue

end Sys2Proof.Machine
end

