-- ==== Sys2Proof/Machine/System.lean ====
section
/-! DEFINITION. The system instructions: TRAP, SYSC and BKPT, HALT, the return from a trap and the replay of its queue, the
counters, CARVE and IDLE (R253 to R261, R419 to R421). -/

namespace Sys2Proof.Machine

/-! ### TRAP, SYSC, BKPT, HALT (R254, R255) -/

/-- The context halts once its older instructions have completed (R255). -/
def State.haltAt (s : State) (x : Ctx) : State := s.retire { x with halted := true } none

/-- TRAP, SYSC and BKPT raise their trap after their older instructions have completed, and are captured COMPLETE (R254). -/
def State.trapWith (s : State) (x : Ctx) (i : Instr) (cause code : BitVec 8) : State :=
  s.raiseWith x i (encodeWord i) ⟨cause, code, 0, 0⟩ 4 true

/-- The instruction's older instructions have completed. -/
def Ctx.olderDone (x : Ctx) : Bool := x.pend.isEmpty

/-- TRAP (R254). -/
def execTrap (code : BitVec 8) (s : State) : Host.Outcome State Fault Refusal :=
  issue (.trap code) .none s fun x =>
    if !x.olderDone then .error .block else pure (s.trapWith x (.trap code) 0x10 code)

/-- A SERVICE or BREAK record with its code and the instruction's address (R254, R388). -/
def State.codeRecord (s : State) (x : Ctx) (typ cause : Nat) (code : BitVec 8) : FaultRec :=
  s.record typ cause 0 0 x.handle x.node (some s.cur) 0 code.toNat x.at.toNat 0

/-- SYSC (R254): a trap to the handler, or a service record and a halt. -/
def execSysc (code : BitVec 8) (s : State) : Host.Outcome State Fault Refusal :=
  issue (.sysc code) .none s fun x =>
    if !x.olderDone then .error .block
    else if x.trapEn then pure (s.trapWith x (.sysc code) 0x12 code)
    else pure ((s.haltAt x).postRecord x.lease (s.codeRecord x 0x05 0x12 code))

/-- The debug-attach flag of a lease (R254, R366). -/
def Lease.debug (l : Lease) : Bool := l.vfCtl.getLsbD 1

/-- BKPT (R254): under debug attach a break record and a halt, else a trap. -/
def execBkpt (code : BitVec 8) (s : State) : Host.Outcome State Fault Refusal :=
  issue (.bkpt code) .none s fun x =>
    if !x.olderDone then .error .block
    else if (s.lease x.lease).debug then pure ((s.haltAt x).postRecord x.lease (s.codeRecord x 0x06 0x11 code))
    else pure (s.trapWith x (.bkpt code) 0x11 code)

/-- HALT (R255). -/
def execHalt (s : State) : Host.Outcome State Fault Refusal :=
  issue .halt .none s fun x => if !x.olderDone then .error .block else pure (s.haltAt x)

/-! ### Leaving a handler (R256 to R258) -/

/-- The last-result registers restored from the trap's snapshot (R84, R256). -/
def Ctx.restoreLast (x : Ctx) : Ctx :=
  { x with
    sreg := (((x.sreg.set 60 (x.snapL.getD 0 0)).set 61 (x.snapL.getD 1 0)).set 62 (x.snapL.getD 2 0)).set 63 (x.snapL.getD 3 0),
    vreg := (x.vreg.set 30 (x.snapV.getD 0 [])).set 31 (x.snapV.getD 1 []) }

/-- ERET (R256): the trap's queue is re-injected, oldest first, before fetch goes on at TRAPPC. It waits while that queue and the
handler's own unfinished instructions are more than 16 together (R86). -/
def execEret (s : State) : Host.Outcome State Fault Refusal :=
  issue .eret .none s fun x =>
    if !x.act then illegal5
    else if Config.unfinished < x.pend.length + x.rq.length then .error .block
    else
      let y := { x.restoreLast with
        act := false, inject := x.rq, rq := [], injectBy := .eret, injecting := none, pc := x.trapPc, hold := .free,
        walk := .none }
      pure ((s.setCtx s.cur y).count x.lease 0x001 x.handle 1)

/-- An instruction that RPLY refuses to re-inject (R257). -/
def noReplay : Instr → Bool
  | .bccEq _ | .bccNe _ | .bccLt _ | .bccGe _ | .bccLtz _ | .bccGez _ | .j _ | .jal _ | .jalr _ | .loop _ | .loopx _ | .done
  | .yield => true
  | _ => false

/-- A long-latency producer (R63), as CONSUMED entries are written. -/
def longLatency : Instr → Bool
  | .ldB o | .ldH o | .ldW o | .ldD o | .ldv o => o.sp != .p
  | .ldg _ | .ldf _ | .ldp _ | .chget _ | .chpeek _ | .amo _ | .amoC _ | .dqpop _ | .dqsteal _ | .scmd _ | .scmdw _ => true
  | _ => false

/-- MARKE and MARKF name a register and write no result, so they push nothing (R127). -/
def isMark : Instr → Bool
  | .marke _ | .markf _ => true
  | _ => false

/-- A CONSUMED entry re-injected: its value goes to its destination, which is set full; a fixed-latency one also pushes its
result and consumes its sources (R88, R132). -/
def Ctx.writeConsumed (x : Ctx) (e : RqEntry) : Ctx :=
  let put := fun (y : Ctx) => if e.file = 2 then y.putM (e.dest.setWidth 3) (e.b.setWidth 128) else y.deliver e.dst e.b e.lanes
  match e.decoded with
  | none => put x
  | some i =>
    if longLatency i then put (x.consume i)
    else
      let y := put (x.useAll ((operandA i).toList ++ (operandB i).toList))
      if e.file = 0 && !isMark i then y.pushL e.b else y

/-- RPLY (R257): the oldest entry is re-injected from inside the handler; the RPLY completes when the entry has. A COMPLETE
entry needs no action, one that is INFLIGHT is waited for, and one still to be executed is executed first. -/
def execRply (s : State) : Host.Outcome State Fault Refusal :=
  issue .rply .none s fun x =>
    match x.rq with
    | [] => illegal5
    | e :: rest =>
      if !x.act then illegal5
      else if e.decoded.any noReplay then illegal5
      else if e.status = 4 then pure (s.retire { x with rq := rest } none)
      else if e.status = 1 then .error .block
      else if e.status = 2 then
        let y := { x with injecting := some e, injectBy := .rply }.writeConsumed e
        pure ((s.count x.lease 0x001 x.handle 1).retire { y with injecting := x.injecting, injectBy := x.injectBy, rq := rest } none)
      else
        pure (s.setCtx s.cur
          { x with inject := e :: x.inject, injectBy := .rply, injecting := none, rq := { e with status := 4 } :: rest, hold := .free })

/-- RPLYS (R258): the oldest entry is skipped, its destination set full. -/
def execRplys (s : State) : Host.Outcome State Fault Refusal :=
  issue .rplys .none s fun x =>
    match x.rq with
    | [] => illegal5
    | e :: rest =>
      if !x.act then illegal5
      else if e.status = 1 then .error .block
      else
        let y := match e.dst with
          | .none => x
          | .sreg r => x.markS r true
          | .vreg r => x.markV r true
        pure (s.retire { y with rq := rest } none)

/-! ### Counters (R259, R419 to R421) -/

/-- CNTRD (R259). -/
def execCntrd (d : SReg) (n : BitVec 3) (s : State) : Host.Outcome State Fault Refusal :=
  issue (.cntrd d n) (.sreg d) s fun x =>
    pure (s.doneS x [] d ((s.lease x.lease).counters[n.toNat].value.setWidth 64))

/-- The event codes of R420. -/
def eventCodes : List Nat :=
  [0x000, 0x001, 0x002, 0x003, 0x010, 0x011, 0x018, 0x019, 0x020, 0x021, 0x022, 0x028, 0x030, 0x031, 0x038, 0x039]

/-- A counter configuration that CNTCFG and CNTSEL refuse: a reserved field, or an unknown event (R259, R419). -/
def badCounterConfig (w : BitVec 64) : Bool :=
  w.extractLsb' 24 40 != 0 || w.extractLsb' 16 5 != 0 || w.extractLsb' 12 3 != 0 ||
    !eventCodes.contains (w.extractLsb' 0 12).toNat

/-- A counter after a configuration write: CLR sets it to zero; CLR itself is not kept (R259). -/
def Counter.configure (k : Counter) (w : BitVec 64) (rect : Option Nat) : Counter :=
  { value := if w.getLsbD 23 then 0 else k.value, cfg := w &&& 0xFFFFFFFFFF7FFFFF#64, rect := rect }

/-- Every older instruction of a context has completed, its replies and acknowledgements have come (R421). -/
def Ctx.settled (x : Ctx) : Bool := x.pend.isEmpty && x.tags.isEmpty && !(x.rq.any fun e => e.status == 1#4)

/-- CNTCFG (R259): it applies to events of instructions younger than itself and to none of an older one, so it waits until those have all
occurred (R421). -/
def execCntcfg (a : SReg) (ea : Bool) (n : BitVec 3) (s : State) : Host.Outcome State Fault Refusal :=
  issue (.cntcfg a ea n) .none s fun x => do
    let w ← x.readA ea a
    if badCounterConfig w then illegal5
    else if !x.settled then .error .block
    else
      let rect := if w.getLsbD 15 then some x.handle else none
      pure ((s.done0 x [a]).modLease x.lease fun l =>
        { l with counters := l.counters.set n.toNat (l.counters[n.toNat].configure w rect) })

/-! ### CARVE and IDLE (R260, R261) -/

/-- CARVE (R260): the grant; the repartition follows. -/
def execCarve (o : OpR2) (s : State) : Host.Outcome State Fault Refusal :=
  issue (.carve o) (.sreg o.d) s fun x => do
    let a ← x.readA o.ea o.a
    if a.extractLsb' 32 32 ≠ 0 then illegal5
    else
      let g := min a.toNat (s.lease x.lease).carveLimit
      pure (((s.doneS x [o.a] o.d (BitVec.ofNat 64 g)).modLease x.lease fun l =>
        { l with grant := g, granted := min l.granted g }).post 2 (.carveRepartition x.lease))

/-- Memory with the entries of some keys dropped: those bytes read zero. -/
def Mem.clear (m : Mem) (p : Nat → Bool) : Mem := m.filter fun q => !p q.1

/-- A key is that of a byte of a lease's carve-out from an offset on. -/
def carveKeyFrom (lease lo k : Nat) : Bool := k % 4 == 1 && k / 4 % 256 == lease % 256 && decide (lo ≤ k / 1024)

/-- A set holds more lines than its ways, direct storage among them (R1, R260). -/
def State.setOver (s : State) (k : Option Nat × Nat) : Bool := decide (16 < s.waysUsed k)

/-- Die copies, then least recently used lines of a lease taken out until they fit its share and the ways that its direct storage leaves
(R260, R391). -/
def State.shrinkLines (s : State) (lease : Nat) : Nat → State
  | 0 => s
  | n + 1 =>
    match s.makeRoom ⟨lease, 0⟩ (s.ownRoom lease fun k => decide (s.lineShare lease < s.linesHeld lease) || s.setOver k) with
    | some t => t.shrinkLines lease n
    | none => s

/-- CARVE_REPARTITION (R260): displaced lines are written back, storage removed is discarded, storage added reads zero. -/
def execCarveRepartition (s : State) : Host.Outcome State Fault Refusal :=
  match s.net.hand with
  | some (.carveRepartition lease) =>
    let t := { s with mem := s.mem.clear (carveKeyFrom lease ((s.lease lease).granted * 1048576)) }
    let u := t.modLease lease fun l => { l with granted := l.grant }
    .next (u.shrinkLines lease (s.linesHeld lease + 1))
  | _ => .fault .notDue

/-- IDLE (R261): it waits for an event that comes after it has issued. -/
def execIdle (s : State) : Host.Outcome State Fault Refusal :=
  issue .idle .none s fun x =>
    if x.hold = .woken then pure (s.retire x none)
    else pure (s.setCtx s.cur { x with injecting := none, hold := .idle })

end Sys2Proof.Machine
end

