-- ==== Sys2Proof/Machine/Tokens.lean ====
section
/-! DEFINITION. What the engine ports have in common: token registers and error words (R67, R68, R224, R225), the checks of a
port (R115), command queues (R222), an engine's accesses (R223, R382, R389), and the order at shared engines (R348). -/

namespace Sys2Proof.Machine

/-! ### Token registers (R67 to R69, R224) -/

/-- An error word (R68). -/
def errorWord (port admission : Nat) : BitVec 64 := BitVec.ofNat 64 (2 ^ 63 + port % 256 * 256 + admission % 256)

/-- An unfinished SCMDW whose token is a register (R220). -/
def waitsForToken (reg : SReg) (p : Pend) : Bool :=
  match p.instr with
  | .scmdw o => o.d == reg
  | _ => false

/-- A token register after its command ended: written and set full, its SCMDW completes (R67, R68, R220). -/
def Ctx.takeToken (x : Ctx) (reg : SReg) (v : BitVec 64) : Ctx :=
  { (x.putS reg v).markS reg true with
    tokens := x.tokens.filter fun t => t != reg,
    pend := x.pend.filter fun p => !waitsForToken reg p }

/-- A command's token becomes full, which is an acquire for its context (R224); a command without a token, or of a context
that is gone, reports nothing (R114, R18). -/
def State.fillToken (s : State) (src : CtxId) (handle : Nat) (reg : SReg) (v : BitVec 64) : State :=
  match s.ctx? src with
  | none => s
  | some x =>
    if x.handle ≠ handle ∨ reg = zeroReg then s
    else
      ((s.setCtx src (x.takeToken reg v).wake).dropCopies x.lease (s.dieOf src.cell) fun _ => true).count x.lease 0x001 x.handle
        (x.pend.filter (waitsForToken reg)).length

/-- A chunk's bit set in a token that is not full yet (R67). -/
def State.tokenBit (s : State) (src : CtxId) (handle : Nat) (reg : SReg) (k : Nat) : State :=
  s.modCtx src fun x =>
    if x.handle ≠ handle ∨ reg = zeroReg then x else (x.putS reg (x.s reg ||| 1#64 <<< k)).wake

/-- A command's token filled. -/
def State.fillFor (s : State) (c : Cmd) (v : BitVec 64) : State := s.fillToken c.src c.handle (cmdToken c.word) v

/-! ### Ports (R112, R115, R222) -/

/-- An index names an engine of a class bound to the rectangle (R112, R115). -/
def State.bound (s : State) (slot cls idx : Nat) : Bool :=
  match cls with
  | 0 | 4 => idx == 0
  | 1 => (s.strm? slot idx).isSome
  | 2 => (s.node? slot idx).isSome
  | 3 => (s.boundRow slot idx).isSome
  | _ => false

/-- A refused command: its token takes the error word (R68, R115). -/
def State.refuseCmd (s : State) (src : CtxId) (x : Ctx) (w : CWord) (port admission : Nat) : State :=
  s.fillToken src x.handle (cmdToken w) (errorWord port admission)

/-- BADCMD (R115). -/
def State.badCmd (s : State) (src : CtxId) (x : Ctx) (w : CWord) : State := s.refuseCmd src x w 0x07 0

/-- A command at its port: checks 2 to 4 of R115, then what `body` does. A command whose rectangle is gone has no effect
(R18). -/
def atPort (src : CtxId) (w : CWord) (cls : Nat) (flags : BitVec 6) (s : State) (body : Ctx → State) :
    Host.Outcome State Fault Refusal :=
  match s.ctx? src with
  | none => .next s
  | some x =>
    if cmdClass w ≠ cls ∨ s.bound src.slot cls (cmdIndex w) = false ∨ cmdRsv w = true ∨ cmdFlags w &&& ~~~flags ≠ 0#6 then
      .next (s.badCmd src x w)
    else .next (body x)

/-- The entry of a command in its queue. -/
def State.cmdEntry (s : State) (src : CtxId) (x : Ctx) (w : CWord) (list : List Nat) : Cmd :=
  ⟨s.clock.nextId, src, x.handle, x.lease, w, false, [], list⟩

/-- The slot of a port. -/
def portSlot : Port → Nat
  | .strm n _ | .memn n _ | .mrow n _ => n

/-- The state with a port's queue replaced. -/
def State.setQueue (s : State) (p : Port) (q : List Cmd) : State :=
  match p with
  | .strm n i =>
    match s.strm? n i with
    | some k => s.setStrm n i { k with queue := q }
    | none => s
  | .memn n i =>
    match s.node? n i with
    | some k => s.setNode n i { k with queue := q }
    | none => s
  | .mrow n i =>
    match s.boundRow n i with
    | some r => s.setRow r.1 { r.2 with queue := q }
    | none => s

/-- A command accepted into its port's queue. -/
def State.enqueue (s : State) (p : Port) (c : Cmd) : State := s.fresh.setQueue p (s.portQueue p ++ [c])

/-- A command of a port's queue. -/
def State.cmd? (s : State) (p : Port) (id : Nat) : Option Cmd := (s.portQueue p).find? fun c => c.id == id

/-- A command of a port's queue changed. -/
def State.modCmd (s : State) (p : Port) (id : Nat) (f : Cmd → Cmd) : State :=
  s.setQueue p ((s.portQueue p).map fun c => if c.id = id then f c else c)

/-- A command leaves its queue with its token filled. -/
def State.endCmd (s : State) (p : Port) (c : Cmd) (v : BitVec 64) : State :=
  (s.setQueue p ((s.portQueue p).filter fun k => k.id != c.id)).fillFor c v

/-! ### Nodes of a rectangle (R26, R327, R394) -/

/-- The image's node of an engine class and index (R316). -/
def Image.engineNode (im : Image) (k : NodeKind) (i : Nat) : Nat :=
  ((List.zip (List.range im.nodes.length) im.nodes).find? fun p => p.2.kind == k && p.2.index == i).elim 0xFFFF Prod.fst

/-- The node number of a port's engine. -/
def State.portNode (s : State) (p : Port) : Nat :=
  match s.rect? (portSlot p) with
  | none => 0xFFFF
  | some r =>
    match p with
    | .strm _ i => r.image.engineNode .strm i
    | .memn _ i => r.image.engineNode .mem i
    | .mrow _ i => r.image.engineNode .mat i

/-- A node of a rectangle works: no cut and no freeze has stopped it (R327, R394). -/
def State.works (s : State) (slot node : Nat) : Bool :=
  match s.rect? slot with
  | none => false
  | some r =>
    match r.collector with
    | some k => !k.cutSent.contains node
    | none => r.state == .armed || r.state == .running

/-- The fault register of a port's engine holds a fault (R394). -/
def State.portFaulted (s : State) (p : Port) : Bool :=
  match p with
  | .strm n i => (s.strm? n i).any Streamer.faulted
  | .memn n i => (s.node? n i).any MemNode.faulted
  | .mrow n i => (s.boundRow n i).any fun r => r.2.faulted

/-- A port's engine works for the rectangle: it has latched no fault (R394). -/
def State.portWorks (s : State) (p : Port) : Bool := s.works (portSlot p) (s.portNode p) && !s.portFaulted p

/-- The fault register of a port's engine latched. -/
def State.latchFault (s : State) (p : Port) : State :=
  match p with
  | .strm n i =>
    match s.strm? n i with
    | some k => s.setStrm n i { k with faulted := true }
    | none => s
  | .memn n i =>
    match s.node? n i with
    | some k => s.setNode n i { k with faulted := true }
    | none => s
  | .mrow n i =>
    match s.boundRow n i with
    | some r => s.setRow r.1 { r.2 with faulted := true }
    | none => s

/-- The unit class and index of a port's engine, as a fault names them (R388). -/
def portUnit : Port → Nat × Nat
  | .memn _ i => (1, i)
  | .strm _ i => (2, i)
  | .mrow _ i => (3, i)

/-- A fault of a port's engine (R225, R394): it latches the fault and stops, its queue and its accumulators as they are. -/
def State.engineFault (s : State) (p : Port) (cause sub va detail : Nat) : State :=
  let u := portUnit p
  ((s.causeSpent cause).latchFault p).post 3
    (.faultEvent (portSlot p) ⟨s.causeOf cause, sub, BitVec.ofNat 64 va, s.portNode p, none, u.1, u.2, detail⟩)

/-- A command whose access is refused: an error word in its token, or, by an access table or for an error in the data, a fault that
freezes the rectangle (R193, R225, R392). -/
def State.endRefused (s : State) (p : Port) (c : Cmd) (cause sub va detail : Nat) : State :=
  if freezes cause sub then s.engineFault p cause sub va detail else s.endCmd p c (errorWord cause 0)

/-- The same for a command that its port has not accepted, as it reads its record: the unit that asked for it faults. -/
def State.refusedRead (s : State) (src : CtxId) (x : Ctx) (w : CWord) (cause sub detail : Nat) : State :=
  if freezes cause sub then s.refuse (x.src src) cause sub 0 detail else s.refuseCmd src x w cause 0

/-- The packet class of a rectangle's engines: 2, or 0 where the item is demoted (R354). -/
def State.slotClass (s : State) (slot : Nat) : Nat := (s.rect? slot).elim 2 fun r => if r.item.demoted then 0 else 2

/-! ### Accesses of engines (R223, R225, R382, R389) -/

/-- What the pieces of an access are, or what stops it: an absent page at an address, or a refusal (R225). -/
inductive Access
  | ok (ps : List (Nat × Loc × Nat))
  | absent (va : Nat)
  | refused (cause sub detail va : Nat)
deriving DecidableEq, Repr

/-- The translation of the pieces of an engine's access: offset, address and bytes of each; an engine that reads data with an
uncorrectable error is stopped by it (R225). -/
def State.access (s : State) (die : Option Nat) (lease : Nat) (write : Bool) : List (Nat × Nat × Nat) → Access
  | [] => .ok []
  | (off, va, k) :: ps =>
    match s.engineLoc die lease va write with
    | .absent => .absent va
    | .refused cause sub detail => .refused cause sub detail va
    | .found l =>
      if die.isSome && !write && s.damaged l k then .refused dataError 0 0 va else
      match s.access die lease write ps with
      | .ok ls => .ok ((off, l, k) :: ls)
      | .absent a => .absent a
      | .refused cause sub detail a => .refused cause sub detail a

/-- The translation of `n` bytes from a virtual address. -/
def State.span (s : State) (die : Option Nat) (lease va n : Nat) (write : Bool) : Access :=
  s.access die lease write (linePieces (n / 128 + 2) 0 va n)

/-- The shared TLB after the walks of an access (R383). -/
def State.fillAll (s : State) (die lease : Nat) (vas : List Nat) : State := vas.foldl (fun t va => t.engineFill die lease va) s

/-- Pieces read at their homes. -/
def State.pull (s : State) (a : Agent) (ps : List (Nat × Loc × Nat)) : State × List Byte :=
  ps.foldl (fun (t : State × List Byte) p =>
    let (u, bs) := t.1.engineRead a p.2.1 p.2.2
    (u, t.2 ++ bs)) (s, [])

/-- Pieces written at their homes. -/
def State.push (s : State) (a : Agent) (die : Nat) (ps : List (Nat × Loc × Nat)) (bs : List Byte) : State :=
  ps.foldl (fun t p => t.engineWrite a die p.2.1 ((bs.drop p.1).take p.2.2)) s

/-- The agent for which a command's engine acts (R286). -/
def Cmd.agent (c : Cmd) : Agent := ⟨c.lease, c.handle⟩

/-! ### Order at shared engines (R348) -/

/-- Keys compared field by field: the first is before the second. -/
def keyBefore : List Nat → List Nat → Bool
  | a :: as, b :: bs => if a = b then keyBefore as bs else decide (a < b)
  | [], _ :: _ => true
  | _, [] => false

/-- The share σ of a lease in a class: 0 cell, 1 row, 2 strm (R338, R371). -/
def Lease.share (l : Lease) (k : Nat) : Nat := (l.sched.extractLsb' (16 * k) 11).toNat

/-- A lease has charged more streamer cycles in the current window of 16,384 cycles than its share (R338, R348). -/
def Lease.overShare (l : Lease) : Bool := decide (l.share 2 * 64 * 16384 < l.charge.getD 2 0 * 1024)

/-- The key of a rectangle's work at an engine (R348): `shared` says that the share of the window counts. The order at the admission unit
is that of one lease: items of two leases admitted at one DTIME are told apart by the lease identifier. -/
def State.slotKey (s : State) (slot : Nat) (shared : Bool) : List Nat :=
  match s.rect? slot with
  | none => []
  | some r =>
    [if r.item.demoted then 1 else 0, if shared && (s.lease r.lease).overShare then 1 else 0, r.item.deadline, r.item.admittedAt,
     r.lease, r.item.admitted, slot]

/-- What is done with a command in hand while its engine works for it: an event of a stopped engine is not due, and one of a
command that has ended has no effect. -/
def withCmd (s : State) (p : Port) (id : Nat) (f : Cmd → State) : Host.Outcome State Fault Refusal :=
  if s.portWorks p then
    match s.cmd? p id with
    | some c => .next (f c)
    | none => .next s
  else .fault .notDue

/-- ENGINE_COMMAND_ERROR (R225). -/
def execEngineCommandError (s : State) : Host.Outcome State Fault Refusal :=
  match s.net.hand with
  | some (.engineCommandError p id cause) => withCmd s p id fun c => s.endCmd p c (errorWord cause 0)
  | _ => .fault .notDue

end Sys2Proof.Machine
end

