-- ==== Sys2Proof/Machine/Admission.lean ====
section
/-! DEFINITION. Shares, items and the admission test (R338 to R344): every quotient is exact. -/

namespace Sys2Proof.Machine

/-! ### Exact quotients -/

/-- A quotient of naturals with a positive divisor. -/
structure Quot' where
  num : Nat
  den : Nat

/-- The sum of two quotients. -/
def Quot'.add (a b : Quot') : Quot' := ⟨a.num * b.den + b.num * a.den, a.den * b.den⟩
/-- a ≤ b. -/
def Quot'.le (a b : Quot') : Bool := decide (a.num * b.den ≤ b.num * a.den)

/-! ### Shares (R338, R339) -/

/-- The engine classes of R338. -/
inductive EClass
  | cell | row | strm
deriving DecidableEq, Repr

/-- The capacity of a class (R338). -/
def EClass.capacity : EClass → Nat
  | .cell => 8192
  | .row => 256
  | .strm => 64
/-- The number of a class's share in LEASE_SCHED. -/
def EClass.field : EClass → Nat
  | .cell => 0
  | .row => 1
  | .strm => 2

/-- The row halves that a lease holds (R339). -/
def State.rowsHeld (s : State) (lease : Nat) : Nat := (s.rows.filter fun p => p.2.lease == lease).length

/-- The share that admission uses (R339). -/
def State.shareOf (s : State) (lease : Nat) (k : EClass) : Quot' :=
  let q : Quot' := ⟨(s.lease lease).share k.field, 1024⟩
  if k = .row then (let h : Quot' := ⟨s.rowsHeld lease, 256⟩; if q.le h then q else h) else q

/-! ### Items (R341, R342) -/

/-- An item's remaining demand in each class and its period in cycles. -/
structure Demand where
  cell : Nat
  row : Nat
  strm : Nat
  period : Nat

/-- The demand in a class. -/
def Demand.of (d : Demand) : EClass → Nat
  | .cell => d.cell
  | .row => d.row
  | .strm => d.strm

/-- The period of a tile task or a one-shot rectangle at a DTIME (R341). -/
def oneShotPeriod (deadline t : Nat) : Nat := 4 * max (deadline - t) 1024

/-- The demand of an item on a number of cells: full for a retained rectangle, less what is charged for a one-shot one (R342). -/
def Item.demand (i : Item) (cells : Nat) (retain : Bool) (t : Nat) : Demand :=
  let cell := i.budget * cells
  let row := i.budget * i.rows
  let strm := i.budget * i.strms
  if retain then ⟨cell, row, strm, i.period⟩
  else ⟨cell - i.chargedCell, row - i.chargedRow, strm - i.chargedStrm, oneShotPeriod i.deadline t⟩

/-- The demand of a rectangle's item (R342). -/
def Rect.demand (r : Rect) (t : Nat) : Demand := r.item.demand (r.image.w * r.image.h) r.retain t

/-- The demand of a tile task (R341, R342). -/
def TileTask.demand (k : TileTask) (t : Nat) : Demand := ⟨0, k.tile.budget - k.charged, 0, oneShotPeriod k.tile.deadline t⟩

/-- A rectangle's item counts: admitted, not demoted and not ended (R342). -/
def Rect.counts (r : Rect) : Bool := r.item.counted && !r.item.demoted && r.outcome.isNone

/-- The rectangles of a lease with their slots. -/
def State.rectsOf (s : State) (lease : Nat) : List (Nat × Rect) :=
  s.rects.filterMap fun p => match p.2.rect with
    | some r => if r.lease = lease then some (p.1, r) else none
    | none => none

/-- The demands of a lease's admitted items, one whose placement waits for area among them (R343). -/
def State.demands (s : State) (lease : Nat) : List Demand :=
  (((s.rectsOf lease).map Prod.snd).filter Rect.counts).map (fun r => r.demand s.dtime) ++
    (((s.lease lease).tasks.filter fun k => !k.demoted).map fun k => k.demand s.dtime) ++
    (s.lease lease).loads.filterMap fun k => k.item.map fun i => i.demand k.cells k.retain s.dtime

/-- What one item adds to the utilisation of a class. -/
def Demand.density (d : Demand) (k : EClass) : Quot' := ⟨d.of k, k.capacity * max d.period 1⟩

/-- The utilisation of a class (R342). -/
def State.utilisation (s : State) (lease : Nat) (k : EClass) : Quot' :=
  (s.demands lease).foldl (fun u d => u.add (d.density k)) ⟨0, 1⟩

/-! ### The test (R342, R344) -/

/-- The three classes. -/
def allClasses : List EClass := [.cell, .row, .strm]

/-- The test of R342 passes. -/
def State.passes (s : State) (lease : Nat) (d : Demand) : Bool :=
  allClasses.all fun k => ((s.utilisation lease k).add (d.density k)).le (s.shareOf lease k)

/-- Steps 5 and 6 of R344: the code of the first that refuses, 0 where both pass. -/
def State.shareTest (s : State) (lease : Nat) (d : Demand) : Nat :=
  if allClasses.any fun k => !(d.density k).le (s.shareOf lease k) then 0x03
  else if !s.passes lease d then 0x01
  else 0

/-- A lease is suspended: by the hypervisor (R371), or because it is ending (R379). -/
def Lease.suspended (l : Lease) : Bool := l.sched.getLsbD 63 || l.state != .live

/-- The number that the next admitted item takes in the order of the admission unit (R343, R348): requests are named in
order, so a fresh name serves. -/
def State.admitNo (s : State) : Nat := s.clock.nextId

end Sys2Proof.Machine
end

