-- ==== Sys2Proof/Machine/Channels.lean ====
section
/-! DEFINITION. Channels: their status words (R77, R78), claims, the commit of a firing (R31, R145), end-of-stream tokens
(R215), and the channel instructions (R212 to R214). -/

namespace Sys2Proof.Machine

/-! ### Channels of a context (R29, R76) -/

/-- The edges of a slot with their numbers. -/
def State.edgesOf (s : State) (slot : Nat) : List (Nat × Edge) :=
  s.edges.filterMap fun p => if p.1.1 = slot then some (p.1.2, p.2) else none

/-- The input edges of a node, with their numbers. -/
def State.ins (s : State) (slot node : Nat) : List (Nat × Edge) := (s.edgesOf slot).filter fun p => p.2.dst == node
/-- The output edges of a node, with their numbers. -/
def State.outs (s : State) (slot node : Nat) : List (Nat × Edge) := (s.edgesOf slot).filter fun p => p.2.src == node
/-- Input channel `j` of a node. -/
def State.inChan (s : State) (slot node j : Nat) : Option (Nat × Edge) :=
  (s.ins slot node).find? fun p => p.2.dstPort == j
/-- Output channel `j` of a node. -/
def State.outChan (s : State) (slot node j : Nat) : Option (Nat × Edge) :=
  (s.outs slot node).find? fun p => p.2.srcPort == j

/-- Whether a token of a buffer is a committed data token. -/
def BufTok.ready (t : BufTok) : Bool :=
  t.committed && (match t.tok with
    | .data _ => true
    | .eos => false)
/-- Whether a token of a buffer is a committed end-of-stream token. -/
def BufTok.isEos (t : BufTok) : Bool :=
  t.committed && (match t.tok with
    | .data _ => false
    | .eos => true)

/-- Input COUNT: committed tokens not claimed, ahead of the oldest unclaimed end-of-stream token (R77). -/
def Edge.count (e : Edge) : Nat := ((e.buf.drop e.cclaim).takeWhile BufTok.ready).length
/-- The oldest unclaimed token is an end-of-stream token (R78). -/
def Edge.eosNext (e : Edge) : Bool := ((e.buf.drop e.cclaim).head?).any BufTok.isEos

/-- The status word of an edge seen from one end (R78). -/
def Edge.status (e : Edge) (out : Bool) (index : Nat) : BitVec 64 :=
  let kind : Nat := if e.vec then 2 else 1
  let count := if out then e.free else e.count
  let claim := if out then e.pclaim else e.cclaim
  let used := if out then e.pused else e.cused
  let eos := if out then e.eosOut else e.eosNext
  BitVec.ofNat 64 (kind * 2 ^ 62 + e.cap % 2 ^ 14 * 2 ^ 48 + count % 2 ^ 14 * 2 ^ 34 + claim % 2 ^ 13 * 2 ^ 21 +
    used % 2 ^ 13 * 2 ^ 8 + (if out then 2 ^ 4 else 0) + (if eos then 2 ^ 3 else 0) + index % 8)

/-- The status word of a channel: an unbound one reads KIND 0b00 and every other field zero but its direction and number. -/
def State.chanStatus (s : State) (slot node : Nat) (out : Bool) (j : Nat) : BitVec 64 :=
  match if out then s.outChan slot node j else s.inChan slot node j with
  | some (_, e) => e.status out j
  | none => BitVec.ofNat 64 ((if out then 2 ^ 4 else 0) + j % 8)

/-! ### Firings and channels (R30, R31, R77, R145) -/

/-- The token and space counters allow a firing (R30). -/
def State.ratesMet (s : State) (slot node : Nat) : Bool :=
  ((s.ins slot node).all fun p => decide (p.2.crate ≤ p.2.count)) &&
    ((s.outs slot node).all fun p => decide (p.2.prate ≤ p.2.free))

/-- The claims of a firing that starts (R31). -/
def State.claim (s : State) (slot node : Nat) : State :=
  let s1 := (s.ins slot node).foldl (fun t p => t.setEdge slot p.1 { p.2 with cclaim := p.2.crate, cused := 0 }) s
  (s1.outs slot node).foldl (fun t p =>
    t.setEdge slot p.1 { p.2 with free := p.2.free - p.2.prate, pclaim := p.2.prate, pused := 0 }) s1

/-- The class of the credit for the tokens at the head of a buffer: that of the oldest (R354). -/
def creditClass (ts : List BufTok) : Nat := (ts.head?).elim 2 BufTok.cls

/-- The producer's half of a commit on one edge: one commit mark for the tokens written (R77). -/
def State.commitOut (s : State) (slot cls n : Nat) (e : Edge) : State :=
  let s1 := s.setEdge slot n { e with pclaim := 0, pused := 0 }
  if e.pused = 0 then s1 else s1.post cls (.commitMarkArrival slot n e.pused)

/-- The consumer's half of a commit on one edge: claimed tokens are consumed and their slots returned (R31, R77). -/
def State.commitIn (s : State) (slot n : Nat) (e : Edge) : State :=
  let s1 := s.setEdge slot n { e with buf := e.buf.drop e.cclaim, cclaim := 0, cused := 0 }
  if e.cclaim = 0 then s1 else s1.post (creditClass e.buf) (.creditArrival slot n e.cclaim)

/-- The commit of a firing on every channel of a node (R31). -/
def State.commitChannels (s : State) (slot node cls : Nat) : State :=
  let s1 := (s.outs slot node).foldl (fun t p => t.commitOut slot cls p.1 p.2) s
  (s1.ins slot node).foldl (fun t p => t.commitIn slot p.1 p.2) s1

/-- End-of-stream tokens that a context owes, sent on each channel that has a free slot (R215). -/
def State.payEos (s : State) (c : CtxId) : State :=
  match s.ctx? c with
  | none => s
  | some x =>
    let cls := s.ctxClass x
    let s1 := x.eosOwed.foldl (fun t n =>
      match t.edge? c.slot n with
      | some e =>
        if 0 < e.free then
          (t.setEdge c.slot n { e with free := e.free - 1, eosOut := true }).post cls (.channelTokenArrival c.slot n .eos)
        else t
      | none => t) s
    s1.modCtx c fun y => { y with eosOwed := x.eosOwed.filter fun n => (s.edge? c.slot n).any fun e => e.free == 0 }

/-- The outputs of a context are owed an end-of-stream token each, and the task is not runnable again until its leaf or its
rectangle is next started (R215). -/
def State.endStream (s : State) (c : CtxId) (node : Nat) : State :=
  (s.modCtx c fun x => { x with ended := true, eosOwed := (s.outs c.slot node).map Prod.fst }).payEos c

/-! ### CHGET, CHPEEK, CHPUT, CHSTAT (R212 to R214) -/

/-- Tokens that one instruction moves: one for a scalar form, one for each member of the crew for a vector form (R212). -/
def Ctx.tokens' (x : Ctx) (vec : Bool) : Nat := if vec then x.width / 8 else 1

/-- The lanes of a token; an end-of-stream token is never claimed and has none. -/
def Tok.lanes : Tok → List Lane
  | .data ls => ls
  | .eos => []

/-- The lanes of `n` claimed tokens from number `k` on. -/
def Edge.tokensAt (e : Edge) (k n : Nat) : List Lane := ((e.buf.drop k).take n).flatMap fun t => Tok.lanes t.tok

/-- The value that a scalar token gives a register: its 32 bits; the spec gives the upper half of the register no value, so
that half is a free value. -/
def scalarToken (tick : Nat) (ls : List Lane) : BitVec 64 :=
  ((Config.openWord tick).extractLsb' 32 32 ++ (ls.headD (.plain 0)).data : BitVec 64)

/-- What a channel read writes: its destination is full, and nothing is pushed (R58, R212). -/
def Ctx.fromChannel (x : Ctx) (vec : Bool) (d : SReg) (tick : Nat) (ls : List Lane) : Ctx :=
  if vec then (x.putV (d.setWidth 5) ls).markV (d.setWidth 5) true
  else (x.putS d (scalarToken tick ls)).markS d true

/-- The destination of a channel read. -/
def chanDest (vec : Bool) (d : SReg) : Dest := if vec then .vreg (d.setWidth 5) else .sreg d

/-- A task reads elements of an edge whose producer is a memory node: the acquire of R292 for the words they carry, which drops the die
copies of the lease on the consumer's die (R299). -/
def State.acquireElements (s : State) (x : Ctx) (e : Edge) : State :=
  if s.nodes.any fun p => p.1.1 == s.cur.slot && p.2.node == e.src then
    s.dropCopies x.lease (s.dieOf s.cur.cell) fun _ => true
  else s

/-- CHGET (R212). -/
def execChget (o : OpGet) (s : State) : Host.Outcome State Fault Refusal :=
  issue (.chget o) (chanDest o.v o.d) s fun x =>
    match s.inChan s.cur.slot x.node o.ch.toNat with
    | none => illegal5
    | some (n, e) =>
      let k := x.tokens' o.v
      if e.vec ≠ o.v then illegal5
      else if e.cclaim < e.cused + k then illegal5
      else
        let y := x.fromChannel o.v o.d s.tick (e.tokensAt e.cused k)
        pure (((s.acquireElements x e).setEdge s.cur.slot n { e with cused := e.cused + k }).bump.retire y none)

/-- CHPEEK (R212). -/
def execChpeek (o : OpPeek) (s : State) : Host.Outcome State Fault Refusal :=
  issue (.chpeek o) (chanDest o.v o.d) s fun x => do
    let a ← x.readA o.ea o.a
    match s.inChan s.cur.slot x.node o.ch.toNat with
    | none => illegal5
    | some (_, e) =>
      let k := x.tokens' o.v
      if e.vec ≠ o.v then illegal5
      else if e.cclaim < a.toNat + k then illegal5
      else pure ((s.acquireElements x e).bump.retire ((x.useS o.a).fromChannel o.v o.d s.tick (e.tokensAt a.toNat k)) none)

/-- The tokens of a vector register: eight lanes for each member (R213). -/
def splitTokens : Nat → List Lane → List (List Lane)
  | 0, _ => []
  | n + 1, ls => ls.take 8 :: splitTokens n (ls.drop 8)

/-- Tokens sent on an edge, in order (R77, R213). -/
def State.sendTokens (s : State) (slot n cls : Nat) (ts : List (List Lane)) : State :=
  ts.foldl (fun t ls => t.post cls (.channelTokenArrival slot n (.data ls))) s

/-- CHPUT (R213). -/
def execChput (o : OpPut) (s : State) : Host.Outcome State Fault Refusal :=
  issue (.chput o) .none s fun x => do
    let ts ← (if o.v then do
        let v ← x.readV .a o.ea (o.a.setWidth 5)
        pure (splitTokens (x.width / 8) v)
      else do
        let a ← x.readA o.ea o.a
        pure [[Lane.plain (a.setWidth 32)]])
    match s.outChan s.cur.slot x.node o.ch.toNat with
    | none => illegal5
    | some (n, e) =>
      let k := x.tokens' o.v
      if e.vec ≠ o.v then illegal5
      else if e.pclaim < e.pused + k then illegal5
      else
        let y := if o.v then x.useV (o.a.setWidth 5) else x.useS o.a
        pure (((s.setEdge s.cur.slot n { e with pused := e.pused + k }).sendTokens s.cur.slot n (s.ctxClass x) ts).retire y none)

/-- CHSTAT (R214). -/
def execChstat (o : OpStat) (s : State) : Host.Outcome State Fault Refusal :=
  issue (.chstat o) (.sreg o.d) s fun x =>
    pure (s.doneS x [] o.d (s.chanStatus s.cur.slot x.node o.out o.ch.toNat))

end Sys2Proof.Machine
end

