-- ==== Sys2Proof/Machine/Scalar.lean ====
section
/-! DEFINITION. Scalar integer and address instructions (R134 to R140). -/

namespace Sys2Proof.Machine

/-! ### Bit operations (R134, R136) -/

/-- A shift amount: b[5:0]. -/
def shiftAmount (b : BitVec 64) : Nat := b.toNat % 64
/-- Number of leading zero bits; 64 for zero. -/
def leadingZeros (a : BitVec 64) : Nat := 64 - bitLen a.toNat
/-- Number of trailing zero bits among the low `n`, counted from bit 64 − `n` up. -/
def trailingZerosFrom (a : BitVec 64) : Nat → Nat
  | 0 => 0
  | n + 1 => if a.getLsbD (63 - n) then 0 else 1 + trailingZerosFrom a n
/-- Number of one bits among the low `n`. -/
def onesBelow (a : Nat) : Nat → Nat
  | 0 => 0
  | n + 1 => (if a.testBit n then 1 else 0) + onesBelow a n
/-- The low `n` bits in reverse order. -/
def reverseBits (a : Nat) : Nat → Nat
  | 0 => 0
  | n + 1 => (if a.testBit 0 then 2 ^ n else 0) + reverseBits (a / 2) n
/-- The low `n` bytes in reverse order. -/
def reverseBytes (a : Nat) : Nat → Nat
  | 0 => 0
  | n + 1 => a % 256 * 256 ^ n + reverseBytes (a / 256) n
/-- A truth value as 1 or 0. -/
def boolWord (b : Bool) : BitVec 64 := if b then 1 else 0

/-- A condition of CMP and BCC on two words (R137). -/
def Cond.holds : Cond → BitVec 64 → BitVec 64 → Bool
  | .eq, a, b => a == b
  | .ne, a, b => a != b
  | .lt, a, b => decide (a.toInt < b.toInt)
  | .ge, a, b => decide (b.toInt ≤ a.toInt)
  | .ltz, a, b => decide (a.toNat < b.toNat)
  | .gez, a, b => decide (b.toNat ≤ a.toNat)

/-- EXT: `w` bits of a from `p` up, zero-extended (R136). -/
def extract (a : BitVec 64) (p w : Nat) : BitVec 64 := BitVec.ofNat 64 (a.toNat / 2 ^ p % 2 ^ w)
/-- INS: bits `p` to `p + w - 1` of d replaced by the low bits of a (R136). -/
def insert (d a : BitVec 64) (p w : Nat) : BitVec 64 :=
  let mask := BitVec.ofNat 64 ((2 ^ w - 1) * 2 ^ p)
  (d &&& ~~~mask) ||| (BitVec.ofNat 64 (a.toNat * 2 ^ p) &&& mask)
/-- AGEN2's element offset: j * stride + i of the packed triple (R138). -/
def agenIndex (b : BitVec 64) : BitVec 64 :=
  BitVec.ofNat 64 ((b.extractLsb' 44 20).toNat * (b.extractLsb' 24 20).toNat + (b.extractLsb' 0 24).toNat)

/-! ### Operand forms -/

/-- A register form: both sources read, a result computed or a trap raised (R130). -/
def scalar3 (i : Instr) (o : OpR3) (s : State) (f : Ctx → BitVec 64 → BitVec 64 → Issue (BitVec 64)) :
    Host.Outcome State Fault Refusal :=
  issue i (.sreg o.d) s fun x => do
    let a ← x.readA o.ea o.a
    let b ← x.readB o.eb o.b
    let w ← f x a b
    pure (s.doneS x [o.a, o.b] o.d w)

/-- A register form that cannot trap after its reads. -/
def int3 (i : Instr) (o : OpR3) (s : State) (f : BitVec 64 → BitVec 64 → BitVec 64) : Host.Outcome State Fault Refusal :=
  scalar3 i o s fun _ a b => pure (f a b)

/-- A register form that divides: DIVZERO where b is 0 (R135). -/
def div3 (i : Instr) (o : OpR3) (s : State) (f : BitVec 64 → BitVec 64 → BitVec 64) : Host.Outcome State Fault Refusal :=
  scalar3 i o s fun _ a b => if b = 0 then .error (.trap .divZero) else pure (f a b)

/-- A unary form. -/
def int2 (i : Instr) (o : OpR2) (s : State) (f : BitVec 64 → BitVec 64) : Host.Outcome State Fault Refusal :=
  issue i (.sreg o.d) s fun x => do
    let a ← x.readA o.ea o.a
    pure (s.doneS x [o.a] o.d (f a))

/-- An immediate form (R139). -/
def intI (i : Instr) (d a : SReg) (ea : Bool) (s : State) (f : BitVec 64 → BitVec 64) : Host.Outcome State Fault Refusal :=
  issue i (.sreg d) s fun x => do
    let v ← x.readA ea a
    pure (s.doneS x [a] d (f v))

/-- The sum of an arithmetic result clamped to the signed 64-bit range (R135, R276). -/
def satWord (i : Int) : BitVec 64 := BitVec.ofInt 64 (satInt (-9223372036854775808) 9223372036854775807 i)

/-! ### Opcode 0x01 (R134) -/

/-- ADD (R134). -/
def execAdd (o : OpR3) (s : State) : Host.Outcome State Fault Refusal := int3 (.add o) o s fun a b => a + b
/-- SUB (R134). -/
def execSub (o : OpR3) (s : State) : Host.Outcome State Fault Refusal := int3 (.sub o) o s fun a b => a - b
/-- AND (R134). -/
def execAnd (o : OpR3) (s : State) : Host.Outcome State Fault Refusal := int3 (.and o) o s fun a b => a &&& b
/-- OR (R134). -/
def execOr (o : OpR3) (s : State) : Host.Outcome State Fault Refusal := int3 (.or o) o s fun a b => a ||| b
/-- XOR (R134). -/
def execXor (o : OpR3) (s : State) : Host.Outcome State Fault Refusal := int3 (.xor o) o s fun a b => a ^^^ b
/-- ANDN (R134). -/
def execAndn (o : OpR3) (s : State) : Host.Outcome State Fault Refusal := int3 (.andn o) o s fun a b => a &&& ~~~b
/-- SHL (R134). -/
def execShl (o : OpR3) (s : State) : Host.Outcome State Fault Refusal := int3 (.shl o) o s fun a b => a <<< shiftAmount b
/-- SHR (R134). -/
def execShr (o : OpR3) (s : State) : Host.Outcome State Fault Refusal := int3 (.shr o) o s fun a b => a >>> shiftAmount b
/-- SHA (R134). -/
def execSha (o : OpR3) (s : State) : Host.Outcome State Fault Refusal := int3 (.sha o) o s fun a b => a.sshiftRight (shiftAmount b)
/-- ROT (R134): rotate right. -/
def execRot (o : OpR3) (s : State) : Host.Outcome State Fault Refusal := int3 (.rot o) o s fun a b => a.rotateRight (shiftAmount b)
/-- MIN (R134), signed. -/
def execMin (o : OpR3) (s : State) : Host.Outcome State Fault Refusal := int3 (.min o) o s fun a b => if b.toInt < a.toInt then b else a
/-- MAX (R134), signed. -/
def execMax (o : OpR3) (s : State) : Host.Outcome State Fault Refusal := int3 (.max o) o s fun a b => if a.toInt < b.toInt then b else a
/-- MINZ (R134), unsigned. -/
def execMinz (o : OpR3) (s : State) : Host.Outcome State Fault Refusal := int3 (.minz o) o s fun a b => if b.toNat < a.toNat then b else a
/-- MAXZ (R134), unsigned. -/
def execMaxz (o : OpR3) (s : State) : Host.Outcome State Fault Refusal := int3 (.maxz o) o s fun a b => if a.toNat < b.toNat then b else a
/-- SEL (R134): reads l0. -/
def execSel (o : OpR3) (s : State) : Host.Outcome State Fault Refusal :=
  scalar3 (.sel o) o s fun x a b => pure (if x.s lastReg ≠ 0 then a else b)

/-! ### Opcode 0x02 (R135) -/

/-- MUL (R135). -/
def execMul (o : OpR3) (s : State) : Host.Outcome State Fault Refusal := int3 (.mul o) o s fun a b => a * b
/-- MULH (R135): high half of the signed product. -/
def execMulh (o : OpR3) (s : State) : Host.Outcome State Fault Refusal := int3 (.mulh o) o s fun a b => BitVec.ofInt 64 (a.toInt * b.toInt / 18446744073709551616)
/-- MULHZ (R135): high half of the unsigned product. -/
def execMulhz (o : OpR3) (s : State) : Host.Outcome State Fault Refusal := int3 (.mulhz o) o s fun a b => BitVec.ofNat 64 (a.toNat * b.toNat / 18446744073709551616)
/-- DIV (R135): toward zero; −2^63 / −1 wraps. -/
def execDiv (o : OpR3) (s : State) : Host.Outcome State Fault Refusal := div3 (.div o) o s fun a b => BitVec.ofInt 64 (a.toInt.tdiv b.toInt)
/-- DIVZ (R135). -/
def execDivz (o : OpR3) (s : State) : Host.Outcome State Fault Refusal := div3 (.divz o) o s fun a b => BitVec.ofNat 64 (a.toNat / b.toNat)
/-- REM (R135): sign of the dividend. -/
def execRem (o : OpR3) (s : State) : Host.Outcome State Fault Refusal := div3 (.rem o) o s fun a b => BitVec.ofInt 64 (a.toInt.tmod b.toInt)
/-- REMZ (R135). -/
def execRemz (o : OpR3) (s : State) : Host.Outcome State Fault Refusal := div3 (.remz o) o s fun a b => BitVec.ofNat 64 (a.toNat % b.toNat)
/-- MADS (R135): exact sum, one saturation; d is read under policy 0 (R126). -/
def execMads (o : OpR3) (s : State) : Host.Outcome State Fault Refusal :=
  scalar3 (.mads o) o s fun x a b => do
    let d ← x.read .d false o.d
    pure (satWord (d.toInt + a.toInt * b.toInt))

/-! ### Opcode 0x03 (R136) -/

/-- CLZ (R136). -/
def execClz (o : OpR2) (s : State) : Host.Outcome State Fault Refusal := int2 (.clz o) o s fun a => BitVec.ofNat 64 (leadingZeros a)
/-- CTZ (R136). -/
def execCtz (o : OpR2) (s : State) : Host.Outcome State Fault Refusal := int2 (.ctz o) o s fun a => BitVec.ofNat 64 (trailingZerosFrom a 64)
/-- POP (R136). -/
def execPop (o : OpR2) (s : State) : Host.Outcome State Fault Refusal := int2 (.pop o) o s fun a => BitVec.ofNat 64 (onesBelow a.toNat 64)
/-- BREV (R136). -/
def execBrev (o : OpR2) (s : State) : Host.Outcome State Fault Refusal := int2 (.brev o) o s fun a => BitVec.ofNat 64 (reverseBits a.toNat 64)
/-- BSWAP (R136). -/
def execBswap (o : OpR2) (s : State) : Host.Outcome State Fault Refusal := int2 (.bswap o) o s fun a => BitVec.ofNat 64 (reverseBytes a.toNat 8)
/-- EXT with position and width in b (R136). -/
def execExt (o : OpR3) (s : State) : Host.Outcome State Fault Refusal :=
  scalar3 (.ext o) o s fun _ a b =>
    let p := (b.extractLsb' 0 6).toNat
    let w := (b.extractLsb' 8 6).toNat + 1
    if 64 < p + w then .error (.trap (.illegal 0x05)) else pure (extract a p w)
/-- INS with position and width in b; d is read under policy 0 (R126, R130, R136). -/
def execIns (o : OpR3) (s : State) : Host.Outcome State Fault Refusal :=
  scalar3 (.ins o) o s fun x a b => do
    let d ← x.read .d false o.d
    let p := (b.extractLsb' 0 6).toNat
    let w := (b.extractLsb' 8 6).toNat + 1
    if 64 < p + w then .error (.trap (.illegal 0x05)) else pure (insert d a p w)

/-! ### CMP (R137) -/

/-- CMP.EQ (R137). -/
def execCmpEq (o : OpR3) (s : State) : Host.Outcome State Fault Refusal :=
  int3 (.cmpEq o) o s fun a b => boolWord (Cond.holds .eq a b)
/-- CMP.NE (R137). -/
def execCmpNe (o : OpR3) (s : State) : Host.Outcome State Fault Refusal :=
  int3 (.cmpNe o) o s fun a b => boolWord (Cond.holds .ne a b)
/-- CMP.LT (R137). -/
def execCmpLt (o : OpR3) (s : State) : Host.Outcome State Fault Refusal :=
  int3 (.cmpLt o) o s fun a b => boolWord (Cond.holds .lt a b)
/-- CMP.GE (R137). -/
def execCmpGe (o : OpR3) (s : State) : Host.Outcome State Fault Refusal :=
  int3 (.cmpGe o) o s fun a b => boolWord (Cond.holds .ge a b)
/-- CMP.LTZ (R137). -/
def execCmpLtz (o : OpR3) (s : State) : Host.Outcome State Fault Refusal :=
  int3 (.cmpLtz o) o s fun a b => boolWord (Cond.holds .ltz a b)
/-- CMP.GEZ (R137). -/
def execCmpGez (o : OpR3) (s : State) : Host.Outcome State Fault Refusal :=
  int3 (.cmpGez o) o s fun a b => boolWord (Cond.holds .gez a b)

/-! ### Opcode 0x05 (R138) -/

/-- LEA (R138). -/
def execLea (o : OpR3) (k : BitVec 2) (s : State) : Host.Outcome State Fault Refusal :=
  int3 (.lea o k) o s fun a b => a + b <<< k.toNat
/-- AGEN2 (R138). -/
def execAgen2 (o : OpR3) (k : BitVec 2) (s : State) : Host.Outcome State Fault Refusal :=
  int3 (.agen2 o k) o s fun a b => a + agenIndex b <<< k.toNat
/-- BOUND (R138): ACCESS, SUB 0x20, where a is not below b. -/
def execBound (o : OpR3) (s : State) : Host.Outcome State Fault Refusal :=
  scalar3 (.bound o) o s fun _ a b => if a.toNat < b.toNat then pure a else .error (.trap (.access 0x20 a))

/-! ### Immediate forms (R97, R139) -/

/-- ADD with a signed immediate. -/
def execAddImm (o : OpI) (s : State) : Host.Outcome State Fault Refusal :=
  intI (.addImm o) o.d o.a o.ea s fun a => a + sext11 o.imm
/-- AND with a zero-extended immediate. -/
def execAndImm (o : OpI) (s : State) : Host.Outcome State Fault Refusal :=
  intI (.andImm o) o.d o.a o.ea s fun a => a &&& zext11 o.imm
/-- OR with a zero-extended immediate. -/
def execOrImm (o : OpI) (s : State) : Host.Outcome State Fault Refusal :=
  intI (.orImm o) o.d o.a o.ea s fun a => a ||| zext11 o.imm
/-- XOR with a zero-extended immediate. -/
def execXorImm (o : OpI) (s : State) : Host.Outcome State Fault Refusal :=
  intI (.xorImm o) o.d o.a o.ea s fun a => a ^^^ zext11 o.imm
/-- SHL by an immediate amount. -/
def execShlImm (o : OpSh) (s : State) : Host.Outcome State Fault Refusal :=
  intI (.shlImm o) o.d o.a o.ea s fun a => a <<< o.n.toNat
/-- SHR by an immediate amount. -/
def execShrImm (o : OpSh) (s : State) : Host.Outcome State Fault Refusal :=
  intI (.shrImm o) o.d o.a o.ea s fun a => a >>> o.n.toNat
/-- SHA by an immediate amount. -/
def execShaImm (o : OpSh) (s : State) : Host.Outcome State Fault Refusal :=
  intI (.shaImm o) o.d o.a o.ea s fun a => a.sshiftRight o.n.toNat
/-- ROT by an immediate amount. -/
def execRotImm (o : OpSh) (s : State) : Host.Outcome State Fault Refusal :=
  intI (.rotImm o) o.d o.a o.ea s fun a => a.rotateRight o.n.toNat
/-- MUL with a signed immediate. -/
def execMulImm (o : OpI) (s : State) : Host.Outcome State Fault Refusal :=
  intI (.mulImm o) o.d o.a o.ea s fun a => a * sext11 o.imm
/-- MIN with a signed immediate. -/
def execMinImm (o : OpI) (s : State) : Host.Outcome State Fault Refusal :=
  intI (.minImm o) o.d o.a o.ea s fun a => if (sext11 o.imm).toInt < a.toInt then sext11 o.imm else a
/-- MAX with a signed immediate. -/
def execMaxImm (o : OpI) (s : State) : Host.Outcome State Fault Refusal :=
  intI (.maxImm o) o.d o.a o.ea s fun a => if a.toInt < (sext11 o.imm).toInt then sext11 o.imm else a
/-- CMP.EQ with a sign-extended immediate. -/
def execCmpEqImm (o : OpI) (s : State) : Host.Outcome State Fault Refusal :=
  intI (.cmpEqImm o) o.d o.a o.ea s fun a => boolWord (Cond.holds .eq a (sext11 o.imm))
/-- CMP.NE with a sign-extended immediate. -/
def execCmpNeImm (o : OpI) (s : State) : Host.Outcome State Fault Refusal :=
  intI (.cmpNeImm o) o.d o.a o.ea s fun a => boolWord (Cond.holds .ne a (sext11 o.imm))
/-- CMP.LT with a sign-extended immediate. -/
def execCmpLtImm (o : OpI) (s : State) : Host.Outcome State Fault Refusal :=
  intI (.cmpLtImm o) o.d o.a o.ea s fun a => boolWord (Cond.holds .lt a (sext11 o.imm))
/-- CMP.GE with a sign-extended immediate. -/
def execCmpGeImm (o : OpI) (s : State) : Host.Outcome State Fault Refusal :=
  intI (.cmpGeImm o) o.d o.a o.ea s fun a => boolWord (Cond.holds .ge a (sext11 o.imm))
/-- CMP.LTZ with a sign-extended immediate. -/
def execCmpLtzImm (o : OpI) (s : State) : Host.Outcome State Fault Refusal :=
  intI (.cmpLtzImm o) o.d o.a o.ea s fun a => boolWord (Cond.holds .ltz a (sext11 o.imm))
/-- CMP.GEZ with a sign-extended immediate. -/
def execCmpGezImm (o : OpI) (s : State) : Host.Outcome State Fault Refusal :=
  intI (.cmpGezImm o) o.d o.a o.ea s fun a => boolWord (Cond.holds .gez a (sext11 o.imm))
/-- EXT with immediate position and width. -/
def execExtImm (o : OpBf) (s : State) : Host.Outcome State Fault Refusal :=
  intI (.extImm o) o.d o.a o.ea s fun a => extract a o.p.toNat (o.w.toNat + 1)
/-- INS with immediate position and width; d is read under policy 0. -/
def execInsImm (o : OpBf) (s : State) : Host.Outcome State Fault Refusal :=
  issue (.insImm o) (.sreg o.d) s fun x => do
    let a ← x.readA o.ea o.a
    let d ← x.read .d false o.d
    pure (s.doneS x [o.a] o.d (insert d a o.p.toNat (o.w.toNat + 1)))
/-- LUI (R140): imm18 times 2^14, sign-extended from bit 31. -/
def execLui (d : SReg) (imm : BitVec 18) (s : State) : Host.Outcome State Fault Refusal :=
  issue (.lui d imm) (.sreg d) s fun x => pure (s.doneS x [] d ((imm ++ 0#14 : BitVec 32).signExtend 64))

end Sys2Proof.Machine
end

