-- ==== Sys2Proof/Machine/Control.lean ====
section
/-! DEFINITION. Control flow, hardware loops, DONE and YIELD, the register hierarchy and the special registers
(R141 to R153). -/

namespace Sys2Proof.Machine

/-! ### Branches and jumps (R141, R142) -/

/-- BCC: both sources under policy 0 (R64, R141). -/
def branch (i : Instr) (o : OpB) (c : Cond) (s : State) : Host.Outcome State Fault Refusal :=
  issue i .none s fun x => do
    let a ← x.readA false o.a
    let b ← x.readB false o.b
    pure (s.retire (x.useAll [o.a, o.b]) (if Cond.holds c a b then some (x.at + o.off) else none))

/-- BCC.EQ (R141). -/
def execBccEq (o : OpB) (s : State) : Host.Outcome State Fault Refusal := branch (.bccEq o) o .eq s
/-- BCC.NE (R141). -/
def execBccNe (o : OpB) (s : State) : Host.Outcome State Fault Refusal := branch (.bccNe o) o .ne s
/-- BCC.LT (R141). -/
def execBccLt (o : OpB) (s : State) : Host.Outcome State Fault Refusal := branch (.bccLt o) o .lt s
/-- BCC.GE (R141). -/
def execBccGe (o : OpB) (s : State) : Host.Outcome State Fault Refusal := branch (.bccGe o) o .ge s
/-- BCC.LTZ (R141). -/
def execBccLtz (o : OpB) (s : State) : Host.Outcome State Fault Refusal := branch (.bccLtz o) o .ltz s
/-- BCC.GEZ (R141). -/
def execBccGez (o : OpB) (s : State) : Host.Outcome State Fault Refusal := branch (.bccGez o) o .gez s

/-- J (R142); off24 counts modulo 4,096, so its low 12 bits decide. -/
def execJ (off : BitVec 12) (s : State) : Host.Outcome State Fault Refusal :=
  issue (.j off) .none s fun x => pure (s.retire x (some (x.at + off)))

/-- JAL (R142): the link goes to s47 and into l0. At word 4,095 the link is 0: DESIGN CHOICE (log entry 118). -/
def execJal (off : BitVec 12) (s : State) : Host.Outcome State Fault Refusal :=
  issue (.jal off) (.sreg linkReg) s fun x =>
    pure (s.retire (x.result linkReg ((x.at + 1#12).setWidth 64)) (some (x.at + off)))

/-- JALR (R142): a is read before d is written. -/
def execJalr (o : OpI) (s : State) : Host.Outcome State Fault Refusal :=
  issue (.jalr o) (.sreg o.d) s fun x => do
    let a ← x.readA o.ea o.a
    pure (s.retire ((x.useS o.a).result o.d ((x.at + 1#12).setWidth 64)) (some ((a + sext11 o.imm).setWidth 12)))

/-! ### Hardware loops (R143, R144) -/

/-- A loop counter that is not zero. -/
def LoopReg.active (l : LoopReg) : Bool := l.count != 0

/-- The body of LOOP1 lies outside that of an active LOOP0 (R144). -/
def escapes (inner outer : LoopReg) : Bool :=
  decide (inner.first.toNat < outer.first.toNat) || decide (outer.last.toNat < inner.last.toNat)

/-- The nesting check of LOOP and LOOPX (R144). -/
def Ctx.loopRefused (x : Ctx) (outer : Bool) (l : LoopReg) : Bool :=
  (x.loop1.active && x.loop1.last == x.at) || (x.loop0.active && x.loop0.last == x.at) || x.loop1.active ||
    (if outer then x.loop0.active else x.loop0.active && escapes l x.loop0)

/-- LOOP and LOOPX (R143). START and END count modulo 4,096: DESIGN CHOICE (log entry 119). -/
def openLoop (i : Instr) (o : OpLoop) (outer : Bool) (s : State) : Host.Outcome State Fault Refusal :=
  issue i .none s fun x => do
    let n ← x.readA o.ea o.a
    let l : LoopReg := ⟨n.setWidth 32, x.at + o.imm.setWidth 12, x.at + 1#12⟩
    if 4294967295 < n.toNat then illegal5
    else if x.loopRefused outer l then illegal5
    else
      let y := x.useS o.a
      if n = 0 then pure (s.retire y (some (x.at + o.imm.setWidth 12 + 1#12)))
      else pure (s.retire (if outer then { y with loop0 := l } else { y with loop1 := l }) (some (x.at + 1#12)))

/-- LOOP opens the inner loop (R143). -/
def execLoop (o : OpLoop) (s : State) : Host.Outcome State Fault Refusal := openLoop (.loop o) o false s
/-- LOOPX opens the outer loop (R143). -/
def execLoopx (o : OpLoop) (s : State) : Host.Outcome State Fault Refusal := openLoop (.loopx o) o true s

/-! ### DONE and YIELD (R145, R146) -/

/-- The context after a firing's end: its loops inactive, its next firing at ENTRY (R145). -/
def Ctx.endFiring (x : Ctx) : Ctx :=
  { x with loop0 := { x.loop0 with count := 0 }, loop1 := { x.loop1 with count := 0 }, firing := false, pc := x.entry,
           inject := [], injecting := none, hold := .free, sourceDue := false, demoted := false }

/-- The commit of a firing and its end; a source task then ends its streams (R31, R145, R215). -/
def State.commitFiring (s : State) (c : CtxId) (x : Ctx) : State :=
  let s1 := (s.commitChannels c.slot x.node (s.ctxClass x)).setCtx c x.endFiring
  let s2 := (s1.count x.lease 0x001 x.handle 1).count x.lease 0x002 x.handle 1
  let s3 := s2.modCell c.cell fun k => { k with holder := none }
  if (s.ins c.slot x.node).isEmpty then s3.endStream c x.node else s3

/-- DONE (R145). -/
def execDone (s : State) : Host.Outcome State Fault Refusal :=
  issue .done .none s fun x =>
    if x.act then illegal5
    else if !x.pend.isEmpty then .error .block
    else if (s.outs s.cur.slot x.node).any fun p => decide (p.2.pused < p.2.prate) then illegal5
    else pure (s.commitFiring s.cur x)

/-- YIELD (R146). -/
def execYield (s : State) : Host.Outcome State Fault Refusal :=
  issue .yield .none s fun x =>
    pure (((s.retire x none).modCtx s.cur fun y => { y with hold := .yielded }).modCell s.cur.cell
      fun k => { k with holder := none })

/-! ### Register hierarchy (R147 to R151) -/

/-- MOVQ (R147). -/
def execMovq (o : OpR2e) (s : State) : Host.Outcome State Fault Refusal :=
  issue (.movq o) (.sreg o.d) s fun x => do
    let a ← x.readA o.ea o.a
    pure (s.doneS x [o.a] o.d a)

/-- The register that MARKE, MARKF and WAITF name. -/
def markDest (vec : Bool) (r : SReg) : Dest := if vec then .vreg (r.setWidth 5) else .sreg r

/-- MARKE and MARKF (R148): they wait for the interlocks on the register. -/
def mark (i : Instr) (o : OpMark) (full : Bool) (s : State) : Host.Outcome State Fault Refusal :=
  issue i (markDest o.vec o.r) s fun x =>
    pure (s.retire (if o.vec then x.markV (o.r.setWidth 5) full else x.markS o.r full) none)

/-- MARKE (R148). -/
def execMarke (o : OpMark) (s : State) : Host.Outcome State Fault Refusal := mark (.marke o) o false s
/-- MARKF (R148). -/
def execMarkf (o : OpMark) (s : State) : Host.Outcome State Fault Refusal := mark (.markf o) o true s

/-- The full/empty bit of a specifier of either file. -/
def Ctx.fullBit (x : Ctx) (vec : Bool) (r : SReg) : Bool := if vec then x.vFull (r.setWidth 5) else x.sFull r

/-- TESTF (R149). -/
def execTestf (o : OpTestf) (s : State) : Host.Outcome State Fault Refusal :=
  issue (.testf o) (.sreg o.d) s fun x => pure (s.doneS x [] o.d (boolWord (x.fullBit o.vec o.a)))

/-- WAITF (R150). -/
def execWaitf (o : OpWaitf) (s : State) : Host.Outcome State Fault Refusal :=
  issue (.waitf o) .none s fun x =>
    if x.fullBit o.vec o.a then pure (s.done0 x [])
    else .error (x.emptyRead .a o.ea (markDest o.vec o.a))

/-- A register that holds an error word: bit 63 set and bits [62:16] clear (R68). -/
def isErrorWord (w : BitVec 64) : Bool := w.extractLsb' 16 48 == 0x800000000000#48

/-- The acquire of what a context has observed in a token register (R224, R292). -/
def State.observeToken (s : State) (x : Ctx) : State := s.dropCopies x.lease (s.dieOf s.cur.cell) fun _ => true

/-- The word that WAITM tests, and whether its register is full: the captured one of a re-injected entry that holds it (R87, R151). -/
def Ctx.maskWord (x : Ctx) (r : SReg) : BitVec 64 × Bool :=
  match x.injecting with
  | some e => if e.va then (e.a, true) else (x.s r, x.sFull r)
  | none => (x.s r, x.sFull r)

/-- WAITM (R151): reads a whether it is full or empty. -/
def execWaitm (o : OpWaitm) (s : State) : Host.Outcome State Fault Refusal :=
  issue (.waitm o) .none s fun x => do
    let m ← x.readB o.eb o.b
    let (a, full) := x.maskWord o.a
    if full && isErrorWord a then .error (.trap (.emptyRead 0x21))
    else if a &&& m = m then pure ((s.observeToken x).done0 x [o.b])
    else if o.t then .error (.trap (.emptyRead 0x22))
    else if full || !x.tokens.contains o.a then .error (.trap (.emptyRead 0x20))
    else .error .block

/-! ### Special registers (R79 to R83, R152, R153) -/

/-- CTXID (R81); CLASS is the class that the context runs in (R346, R347). -/
def ctxIdWord (c : CtxId) (x : Ctx) (cls : Nat) : BitVec 64 :=
  BitVec.ofNat 64 (c.col % 128 * 2 ^ 57 + c.row % 64 * 2 ^ 51 + (x.width / 8).log2 % 8 * 2 ^ 48 + c.ctx % 4 * 2 ^ 46 +
    cls * 2 ^ 44 + x.handle % 2 ^ 32)

/-- LOOP0 and LOOP1 (R83). -/
def LoopReg.word (l : LoopReg) : BitVec 64 := (l.count ++ 0#8 ++ l.last ++ l.first : BitVec 64)

/-- The control word of a replay-queue entry (R87). -/
def RqEntry.word (e : RqEntry) : BitVec 64 :=
  (e.pc ++ e.file ++ e.dest ++ e.status ++ bitOf e.va ++ bitOf e.vb ++ 0#6 ++ e.instr : BitVec 64)

/-- The entry with its control word replaced (R87). -/
def RqEntry.withWord (e : RqEntry) (w : BitVec 64) : RqEntry :=
  { e with pc := w.extractLsb' 52 12, file := w.extractLsb' 50 2, dest := w.extractLsb' 44 6, status := w.extractLsb' 40 4,
           va := w.getLsbD 39, vb := w.getLsbD 38, instr := w.extractLsb' 0 32 }

/-- A status that a handler may write (R88). -/
def okStatus (w : BitVec 4) : Bool := w == 0 || w == 2 || w == 3 || w == 4

/-- The bits of `n` registers, bit i for register i. -/
def bitMap (n : Nat) (f : Nat → Bool) : Nat := (List.range n).foldl (fun acc i => if f i then acc + 2 ^ i else acc) 0

/-- The entry that RQSEL selects (R80). -/
def Ctx.selected (x : Ctx) : Option RqEntry := x.rq[x.rqsel.toNat]?

/-- The value of a special register (R80); none where the read is ILLEGAL with SUB 0x05. -/
def State.special (s : State) (c : CtxId) (x : Ctx) (n : Nat) : Option (BitVec 64) :=
  match n with
  | 0x000 => some (ctxIdWord c x (s.classOf x))
  | 0x001 => some (BitVec.ofNat 64 s.dtime)
  | 0x002 => some (BitVec.ofNat 64 x.fireCnt)
  | 0x003 => some (BitVec.ofNat 64 x.budget)
  | 0x008 => some (x.fstat.setWidth 64)
  | 0x009 => some (x.srseed.setWidth 64)
  | 0x00A => some (boolWord x.repro)
  | 0x010 => some ((x.cmdbase ++ 0#2 : BitVec 13).setWidth 64)
  | 0x011 => some x.loop0.word
  | 0x012 => some x.loop1.word
  | 0x018 => some ((bitOf x.trapEn ++ x.trapBase : BitVec 13).setWidth 64)
  | 0x019 => some ((bitOf x.act ++ x.sub ++ x.cause : BitVec 17).setWidth 64)
  | 0x01A => some (x.trapPc.setWidth 64)
  | 0x01B => some x.trapAddr
  | 0x01C => some (BitVec.ofNat 64 x.rq.length)
  | 0x01D => some (x.rqsel.setWidth 64)
  | 0x01E => x.selected.map RqEntry.word
  | 0x01F => x.selected.map RqEntry.a
  | 0x020 => x.selected.map RqEntry.b
  | 0x028 => some (BitVec.ofNat 64 (bitMap 64 fun i => x.sFull (BitVec.ofNat 6 i)))
  | 0x029 => some (BitVec.ofNat 64 (bitMap 32 fun i => x.vFull (BitVec.ofNat 5 i)))
  | 0x030 => some ((s.cell? c.cell).elim 0 fun k => (bitOf k.front ++ bitOf k.xch : BitVec 2).setWidth 64)
  | n => some (if n < 0x48 then s.chanStatus c.slot x.node false (n - 0x40) else s.chanStatus c.slot x.node true (n - 0x48))

/-- MFS (R152). -/
def execMfs (d : SReg) (e : Bool) (n : BitVec 11) (s : State) : Host.Outcome State Fault Refusal :=
  issue (.mfs d e n) (.sreg d) s fun x =>
    match s.special s.cur x n.toNat with
    | some w => pure (s.doneS x [] d w)
    | none => illegal5

/-- A loop word written by MTS breaks R83 or R144. -/
def Ctx.loopWriteRefused (x : Ctx) (outer : Bool) (l : LoopReg) : Bool :=
  decide (l.last.toNat < l.first.toNat) || (l.active && (if outer then x.loop1.active && escapes x.loop1 l
    else x.loop0.active && escapes l x.loop0))

/-- A loop word's fields (R83). -/
def LoopReg.ofWord (w : BitVec 64) : LoopReg := ⟨w.extractLsb' 32 32, w.extractLsb' 12 12, w.extractLsb' 0 12⟩

/-- The replay queue with the selected entry changed. -/
def Ctx.modSelected (x : Ctx) (f : RqEntry → RqEntry) : Ctx := { x with rq := x.rq.modify x.rqsel.toNat f }

/-- The context after a write of a special register; none where it is ILLEGAL with SUB 0x05 (R153). -/
def Ctx.setSpecial (x : Ctx) (n : Nat) (w : BitVec 64) : Option Ctx :=
  match n with
  | 0x008 =>
    if 5 ≤ (w.extractLsb' 0 3).toNat then none
    else some { x with fstat := (x.fstat.extractLsb' 3 5 &&& ~~~(w.extractLsb' 3 5)) ++ w.extractLsb' 0 3 }
  | 0x009 => if x.repro then none else some { x with srseed := srSeed (w.setWidth 32) }
  | 0x010 => if 1024 < (w.extractLsb' 2 11).toNat then none else some { x with cmdbase := w.extractLsb' 2 11 }
  | 0x011 =>
    if x.loopWriteRefused true (LoopReg.ofWord w) then none else some { x with loop0 := LoopReg.ofWord w }
  | 0x012 =>
    if x.loopWriteRefused false (LoopReg.ofWord w) then none else some { x with loop1 := LoopReg.ofWord w }
  | 0x018 => some { x with trapEn := w.getLsbD 12, trapBase := w.setWidth 12 }
  | 0x01A => some { x with trapPc := w.setWidth 12 }
  | 0x01D => some { x with rqsel := w.setWidth 4 }
  | 0x01E =>
    if x.selected.isNone || !okStatus (w.extractLsb' 40 4) then none else some (x.modSelected fun e => e.withWord w)
  | 0x01F => if x.selected.isNone then none else some (x.modSelected fun e => { e with a := w })
  | _ => if x.selected.isNone then none else some (x.modSelected fun e => { e with b := w })

/-- MTS (R152, R153). -/
def execMts (a : SReg) (ea : Bool) (n : BitVec 11) (s : State) : Host.Outcome State Fault Refusal :=
  issue (.mts a ea n) .none s fun x => do
    let w ← x.readA ea a
    match (x.useS a).setSpecial n.toNat w with
    | some y => pure (s.retire y none)
    | none => illegal5

end Sys2Proof.Machine
end

