-- ==== Sys2Proof/Machine/Streamers.lean ====
section
/-! DEFINITION. Streamer commands: C.COPY, C.COPYR, C.GATH, C.SCAT and C.FILL, their checks, their start and their chunks
(R222, R224 to R233). -/

namespace Sys2Proof.Machine

/-! ### Operands (R227) -/

/-- SPOFF. -/
def spOff (w : CWord) : Nat := (w.extractLsb' 64 17).toNat
/-- GADDR. -/
def gAddr (w : CWord) : Nat := (w.extractLsb' 0 57).toNat
/-- Bit 0 of CFLAGS: OUT, E8 or GLB. -/
def cflag0 (w : CWord) : Bool := w.getLsbD 114
/-- The bytes B that a streamer command moves. -/
def moved (w : CWord) : Nat := (commandBytes w).getD 0
/-- The element bytes e of C.GATH and C.SCAT. -/
def elemBytes (w : CWord) : Nat := if cflag0 w then 8 else 4

/-- The chunks of `n` bytes. -/
def chunks (n : Nat) : Nat := (n + 511) / 512
/-- The bytes of chunk `k` of `n`. -/
def chunkLen (n k : Nat) : Nat := min 512 (n - 512 * k)

/-- A streamer command is refused (R227): a reserved field, B above 32 KiB, `reach` bytes from SPOFF past the scratchpad's limit,
a misaligned SPOFF or GADDR. `pattern` says that [63:0] is a pattern. -/
def State.strmRefused (s : State) (src : CtxId) (w : CWord) (reach align : Nat) (pattern : Bool) : Bool :=
  w.extractLsb' 81 3 != 0 || (!pattern && w.extractLsb' 57 7 != 0) || decide (32768 < moved w) || spOff w % 8 != 0 ||
    decide ((s.cell? src.cell).elim 0 Cell.limit < spOff w + reach) || (!pattern && gAddr w % align != 0)

/-- A streamer command at its port (R115, R227): into the queue, or refused. -/
def strmCommand (src : CtxId) (w : CWord) (flags : BitVec 6) (reach align : Nat) (pattern : Bool) (s : State) :
    Host.Outcome State Fault Refusal :=
  atPort src w 1 flags s fun x =>
    if s.strmRefused src w reach align pattern then s.badCmd src x w
    else s.enqueue (.strm src.slot (cmdIndex w)) (s.cmdEntry src x w [])

/-- C.COPY (R227, R228). -/
def execCCopy (src : CtxId) (w : CWord) (s : State) : Host.Outcome State Fault Refusal := strmCommand src w 1 (moved w) 8 false s
/-- C.COPYR (R227, R230). -/
def execCCopyr (src : CtxId) (w : CWord) (s : State) : Host.Outcome State Fault Refusal := strmCommand src w 7 (moved w) 8 false s
/-- C.GATH (R227, R231). -/
def execCGath (src : CtxId) (w : CWord) (s : State) : Host.Outcome State Fault Refusal :=
  strmCommand src w 1 (moved w) (elemBytes w) false s
/-- C.SCAT (R227, R232). -/
def execCScat (src : CtxId) (w : CWord) (s : State) : Host.Outcome State Fault Refusal :=
  strmCommand src w 1 (moved w) (elemBytes w) false s
/-- C.FILL (R227, R233). -/
def execCFill (src : CtxId) (w : CWord) (s : State) : Host.Outcome State Fault Refusal :=
  strmCommand src w 1 (if cflag0 w then 8 else moved w) 8 (!cflag0 w) s

/-! ### Start (R222, R231, R233) -/

/-- The die of a streamer island (R2, R42). -/
def State.strmDie (s : State) (slot i : Nat) : Nat := (s.strm? slot i).elim 0 fun k => k.island / 16

/-- Words of `n` bytes each. -/
def wordsOf (n : Nat) : Nat → List Byte → List Nat
  | 0, _ => []
  | k + 1, bs => leNat (bs.take n) :: wordsOf n k (bs.drop n)

/-- What a streamer reads from the scratchpad as a command starts: C.GATH's whole index list (R231), the word of a C.FILL with
GLB (R233). -/
def State.startList (s : State) (c : Cmd) : List Nat :=
  let w := c.word
  let len := (w.extractLsb' 84 12).toNat + 1
  match (cmdOp w).toNat with
  | 0x03 => wordsOf 4 len (s.padGet c.src.cell (spOff w) (4 * len))
  | 0x05 => if cflag0 w then [leNat (s.padGet c.src.cell (spOff w) 8)] else []
  | _ => []

/-- A started command's chunks are on their way, in any order (R228). -/
def State.postChunks (s : State) (p : Port) (c : Cmd) (bytes : Nat) : State :=
  s.postAll (s.slotClass (portSlot p)) ((List.range (chunks bytes)).map fun k => .copyChunkLand p c.id k)

/-- A streamer starts a command. -/
def State.startStrm (s : State) (p : Port) (c : Cmd) : State :=
  (s.modCmd p c.id fun k => { k with started := true, list := s.startList c }).postChunks p c (moved c.word)

/-! ### Chunks (R228 to R233) -/

/-- What became of a chunk: it landed, it waits for a page, or it ends its command in error (R225). -/
inductive Chunk
  | landed (s : State) (list : List Nat)
  | waits (s : State)
  | fails (port : Nat)
  | refused (cause sub detail va : Nat)

/-- A chunk's global bytes read, if every page is there. -/
def State.chunkRead (s : State) (die : Nat) (c : Cmd) (wait : Nat → Bool → State) (pieces : List (Nat × Nat × Nat))
    (f : State → List Byte → State) : Chunk :=
  match s.access (some die) c.lease false pieces with
  | .absent va => .waits (wait va false)
  | .refused cause sub detail va => .refused cause sub detail va
  | .ok ps =>
    let (t, bs) := (s.fillAll die c.lease (pieces.map fun p => p.2.1)).pull c.agent ps
    .landed (f t bs) c.list

/-- A chunk's global bytes written, if every page is there. -/
def State.chunkWrite (s : State) (die : Nat) (c : Cmd) (wait : Nat → Bool → State) (pieces : List (Nat × Nat × Nat))
    (bs : List Byte) (list : List Nat) : Chunk :=
  match s.access (some die) c.lease true pieces with
  | .absent va => .waits (wait va true)
  | .refused cause sub detail va => .refused cause sub detail va
  | .ok ps => .landed ((s.fillAll die c.lease (pieces.map fun p => p.2.1)).push c.agent die ps bs) list

/-- The pieces of a run of global bytes. -/
def pieces (va n : Nat) : List (Nat × Nat × Nat) := linePieces (n / 128 + 2) 0 va n

/-- The element bytes of a C.COPYR (R230). -/
def ropBytes (rop : Nat) : Nat := if rop = 1 ∨ rop = 5 then 8 else 4

/-- The operation of a C.COPYR: the resident element is the left operand (R230). -/
def ropOp (rop r i : Nat) : Nat :=
  match rop with
  | 0 => (r + i) % 2 ^ 32
  | 1 => (r + i) % 2 ^ 64
  | 2 => if (BitVec.ofNat 32 i).toInt ≤ (BitVec.ofNat 32 r).toInt then r else i
  | 3 => if (BitVec.ofNat 32 r).toInt ≤ (BitVec.ofNat 32 i).toInt then r else i
  | 4 => (FF.round .f32 .rne 0 (numAdd .rne (FF.decode .f32 r) (FF.decode .f32 i)).1).1
  | 5 => (FF.round .f64 .rne 0 (numAdd .rne (FF.decode .f64 r) (FF.decode .f64 i)).1).1
  | 6 => (FF.minMax .f32 true r i).1
  | _ => (FF.minMax .f32 false r i).1

/-- Elements merged one by one. -/
def mergeBytes (rop : Nat) (old new : List Byte) : List Byte :=
  let e := ropBytes rop
  let n := new.length / e
  (List.zip (wordsOf e n old) (wordsOf e n new)).flatMap fun p => leBytes e (ropOp rop p.1 p.2)

/-- ROP (R227). -/
def ropOf (w : CWord) : Nat := (w.extractLsb' 114 3).toNat

/-- The pieces of the elements that a chunk of a C.GATH reads: offset in the chunk, address, bytes (R231). -/
def gathPieces (c : Cmd) (k : Nat) : List (Nat × Nat × Nat) :=
  let e := elemBytes c.word
  let n := chunkLen (moved c.word) k / e
  (List.range n).map fun i => (i * e, gAddr c.word + c.list.getD (512 * k / e + i) 0 * e, e)

/-- An entry of a C.SCAT list: number, index word, value (R232). -/
structure ScatEntry where
  n : Nat
  index : Nat
  value : Nat

/-- The entries of a chunk of a C.SCAT (R232). -/
def scatEntries (w : CWord) (k : Nat) (bs : List Byte) : List ScatEntry :=
  if cflag0 w then
    (List.range (bs.length / 16)).map fun i =>
      ⟨32 * k + i, leNat ((bs.drop (16 * i)).take 8), leNat ((bs.drop (16 * i + 8)).take 8)⟩
  else
    (List.range (bs.length / 8)).map fun i =>
      ⟨64 * k + i, leNat ((bs.drop (8 * i)).take 4), leNat ((bs.drop (8 * i + 4)).take 4)⟩

/-- The address that a C.SCAT entry writes (R232). -/
def scatAddr (w : CWord) (e : ScatEntry) : Nat := gAddr w + e.index * elemBytes w

/-- An address and the entry that wrote it, as one number. -/
def scatMark (w : CWord) (e : ScatEntry) : Nat := scatAddr w e * 65536 + e.n

/-- The entries of a chunk that write: a higher-numbered entry of a landed chunk on one address stays (R232). -/
def scatLive (w : CWord) (landed : List Nat) (es : List ScatEntry) : List ScatEntry :=
  es.filter fun e => !landed.any fun m => m / 65536 == scatAddr w e && decide (e.n < m % 65536)

/-- A chunk of a C.SCAT (R232): an index word with [63:32] nonzero ends the command with BADCMD. -/
def State.scatChunk (s : State) (die : Nat) (c : Cmd) (k : Nat) (wait : Nat → Bool → State) : Chunk :=
  let es := scatEntries c.word k (s.padGet c.src.cell (spOff c.word + 512 * k) (chunkLen (moved c.word) k))
  if es.any fun e => decide (2 ^ 32 ≤ e.index) then .fails 0x07
  else
    let live := scatLive c.word c.list es
    let e := elemBytes c.word
    s.chunkWrite die c wait ((List.zip (List.range live.length) live).map fun p => (p.1 * e, scatAddr c.word p.2, e))
      (live.flatMap fun p => leBytes e p.value) (c.list ++ live.map (scatMark c.word))

/-- The pattern of a C.FILL over `n` bytes. -/
def fillBytes (v n : Nat) : List Byte := (List.range (n / 8)).flatMap fun _ => leBytes 8 v

/-- A streamer's write of a scratchpad: the last in the order of its port in this cycle (R72). -/
def State.streamPut (s : State) (k : CellId) (off : Nat) (bs : List Byte) : State :=
  (s.padPut k off bs false).modCell k fun d => d.portTook s.clock.cycles streamerOrder

/-- One chunk of a streamer command (R228, R230 to R233). -/
def State.strmChunk (s : State) (die : Nat) (c : Cmd) (k : Nat) (wait : Nat → Bool → State) : Chunk :=
  let w := c.word
  let n := chunkLen (moved w) k
  let sp := spOff w + 512 * k
  let ga := gAddr w + 512 * k
  let cell := c.src.cell
  match (cmdOp w).toNat with
  | 0x01 =>
    if cflag0 w then s.chunkWrite die c wait (pieces ga n) (s.padGet cell sp n) []
    else s.chunkRead die c wait (pieces ga n) fun t bs => t.streamPut cell sp bs
  | 0x02 => s.chunkRead die c wait (pieces ga n) fun t bs => t.streamPut cell sp (mergeBytes (ropOf w) (t.padGet cell sp n) bs)
  | 0x03 => s.chunkRead die c wait (gathPieces c k) fun t bs => t.streamPut cell sp bs
  | 0x04 => s.scatChunk die c k wait
  | _ =>
    if cflag0 w then s.chunkWrite die c wait (pieces ga n) (fillBytes (c.list.headD 0) n) []
    else .landed (s.streamPut cell sp (fillBytes (cmdAB w).toNat n)) []

/-- A chunk that landed (R224, R228): with token policy 0 its bit is set, and the token is full with the tile mask when every
chunk has landed; with policy 1 the token is written once, at completion. -/
def State.chunkDone (s : State) (p : Port) (c : Cmd) (k bytes : Nat) (list : List Nat) : State :=
  let sent := c.sent ++ [k]
  let u := s.modCmd p c.id fun d => { d with sent := sent, list := list }
  let t := match p with
    | .strm _ _ => u.count c.lease 0x019 c.handle 1
    | .memn _ _ | .mrow _ _ => u
  if sent.length < chunks bytes then (if cmdPol c.word then t else t.tokenBit c.src c.handle (cmdToken c.word) k)
  else if cmdPol c.word then t.post (s.slotClass (portSlot p)) (.engineCommandComplete p c.id)
  else t.endCmd p c (tileMask bytes)

/-! ### C.COPYR order (R230) -/

/-- The bytes that a chunk of a command covers in its cell's scratchpad. -/
def chunkSpan (c : Cmd) (k : Nat) : Nat × Nat := (spOff c.word + 512 * k, chunkLen (moved c.word) k)

/-- The chunks of a C.COPYR that have still to land meet a run of bytes. -/
def copyrPending (c : Cmd) (off n : Nat) : Bool :=
  (List.range (chunks (moved c.word))).any fun k =>
    !c.sent.contains k && meets (chunkSpan c k).1 (chunkSpan c k).2 off n

/-- An older C.COPYR of the same cell has still to merge into a word of the chunk (R230). -/
def State.copyrBefore (s : State) (c : Cmd) (k : Nat) : Bool :=
  cmdOp c.word == 0x02#8 &&
    s.strms.any fun q => q.1.1 == c.src.slot && q.2.queue.any fun d =>
      cmdOp d.word == 0x02#8 && d.src.cell == c.src.cell && decide (d.id < c.id) &&
        copyrPending d (chunkSpan c k).1 (chunkSpan c k).2

end Sys2Proof.Machine
end

