-- ==== Sys2Proof/Machine/Streams.lean ====
section
/-! DEFINITION. The streams of memory nodes: token addresses, tag windows, reads, deliveries, sink writes, requests and updates,
and the end of a binding (R234, R235, R299, R300, R319). -/

namespace Sys2Proof.Machine

/-! ### Shapes (R234, R236, R319, R335) -/

/-- The edge that gives a node its token size and format: in0 of a sink, out0 of another node (R319, R335). -/
def State.mainEdge (s : State) (slot : Nat) (n : MemNode) : Option Edge :=
  (if n.sink then s.inChan slot n.node 0 else s.outChan slot n.node 0).map Prod.snd

/-- The token size z of a node (R234, R319): 32 bytes for an ORDERED-UPDATE node, whose tokens are vectors. -/
def State.tokenBytes (s : State) (slot : Nat) (n : MemNode) : Nat :=
  if n.kind = 2 then 32 else (s.mainEdge slot n).elim 4 fun e => if e.vec then 32 else 4

/-- The address of token `t` of a run (R234, R317). -/
def MemNode.tokenAt (n : MemNode) (b : Binding) (z t : Nat) : Nat :=
  let g := b.base + b.run * n.stride
  if n.rowLen = 0 then g + t * z else g + t / n.rowLen * n.rowStride + t % n.rowLen * z

/-- The address of an element: a token of a stream, or what a request names (R234, R319). -/
def MemNode.elemAt (n : MemNode) (b : Binding) (z e : Nat) : Nat :=
  match n.kind with
  | 0 => n.tokenAt b z e
  | 1 => b.base + e * z
  | _ => b.base + 8 * e

/-- The agent of a node (R286). -/
def State.nodeAgent (s : State) (slot : Nat) : Agent := ⟨(s.rect? slot).elim 0 Rect.lease, s.handleOf slot⟩

/-- A fault of a memory node: it latches the fault and stops (R234, R299, R319, R394). -/
def State.nodeFault (s : State) (slot idx : Nat) (n : MemNode) (cause sub va detail : Nat) : State :=
  ((s.causeSpent cause).setNode slot idx { n with faulted := true }).post 3
    (.faultEvent slot ⟨s.causeOf cause, sub, BitVec.ofNat 64 va, n.node, none, 1, idx, detail⟩)

/-- A node waits for a page, and does `ev` again after service (R299, R389). -/
def State.nodeWait (s : State) (slot : Nat) (n : MemNode) (va : Nat) (write : Bool) (ev : Event) : State :=
  s.awaitPage (s.nodeAgent slot).lease va (s.pageRecord (s.handleOf slot) n.node none va write false) ev

/-- An event waits for a page (R389). -/
def State.waitsForPage (s : State) (ev : Event) : Bool :=
  s.leases.any fun p => p.2.svcs.any fun v => v.waiters.contains ev

/-! ### Reading (R299) -/

/-- A read is sent under the next tag. -/
def State.takeTag (s : State) (slot idx : Nat) (n : MemNode) (elem : Nat) : State × MemNode :=
  let m := { n with tags := n.tags ++ [(⟨n.nextTag, elem, none, none⟩ : NodeTag)], nextTag := (n.nextTag + 1) % Config.nodeTags }
  ((s.setNode slot idx m).post (s.slotClass slot) (.nodeReadResponse slot idx n.nextTag), m)

/-- The slice to which an access of a node's engine goes, where its page is there. -/
def State.sliceFor (s : State) (slot : Nat) (n : MemNode) (va : Nat) (write : Bool) : Option Nat :=
  match s.engineLoc (some n.die) (s.nodeAgent slot).lease va write with
  | .found l => s.sliceOf l
  | .absent | .refused _ _ _ => none

/-- A node has a permit left for the slice of an address: its unanswered requests hold one each (R353). -/
def State.nodePermit (s : State) (slot : Nat) (n : MemNode) (b : Binding) (va : Nat) (write : Bool) : Bool :=
  match s.sliceFor slot n va write with
  | none => true
  | some k =>
    let z := s.tokenBytes slot n
    let held := n.tags.filter fun t => t.val.isNone && s.sliceFor slot n (n.elemAt b z t.elem) write == some k
    decide (held.length < if k / 64 = n.die then Config.enginePermits.1 else Config.enginePermits.2)

/-- A source node reads ahead while it has tags and tokens, after a restore only once what it held is delivered (R234, R299, R359). -/
def State.pumpFrom (s : State) (slot idx : Nat) : Nat → State
  | 0 => s
  | fuel + 1 =>
    match s.node? slot idx with
    | none => s
    | some n =>
      match n.binding with
      | none => s
      | some b =>
        if n.kind = 0 && !n.sink && !n.held && !n.spent && b.unbind.isNone && decide (b.read < b.count) &&
            decide (n.tags.length < Config.nodeTags) &&
            s.nodePermit slot n b (n.elemAt b (s.tokenBytes slot n) b.read) false then
          (s.takeTag slot idx { n with binding := some { b with read := b.read + 1 } } b.read).1.pumpFrom slot idx fuel
        else s

/-- A source node reads ahead of delivery by at most 256 tokens. -/
def State.pumpNode (s : State) (slot idx : Nat) : State := s.pumpFrom slot idx Config.nodeTags

/-- A node's engine drains its tags: its rectangle is ARMED, RUNNING or DRAINING, a cut or freeze of it under way or not
(R226, R394). -/
def State.drains (s : State) (slot : Nat) : Bool :=
  match s.rect? slot with
  | some r => r.state == .armed || r.state == .running || r.state == .draining
  | none => false

/-- The lanes that a read of `z` bytes gives a token (R271, R299). -/
def State.tokenLanes (s : State) (l : Loc) (z : Nat) (bs : List Byte) : List Lane :=
  (lanesOfBytes (fun i => if z = 32 then s.bandOf (l.add i) else (0, 0)) (z / 4) 0 0 bs).map Prod.snd

/-- The value of a tag. -/
def MemNode.fillTag (n : MemNode) (tag : Nat) (v : List Lane) : MemNode :=
  { n with tags := n.tags.map fun t => if t.tag = tag then { t with val := some v } else t }

/-- The die of the cell that a node delivers to. -/
def State.consumerDie (s : State) (slot : Nat) (n : MemNode) : Option Nat :=
  (s.mainEdge slot n).bind fun e => (s.ctxs.find? fun p => p.1.slot == slot && p.2.node == e.dst).map fun p => s.dieOf p.1.cell

/-- A read of a memory node at its home (R290, R299): the word leaves the die copies of the die that consumes it, since the
consumption of the element is an acquire of it. -/
def State.nodeRead (s : State) (slot idx : Nat) (n : MemNode) (b : Binding) (t : NodeTag) (ev : Event) : State :=
  let a := s.nodeAgent slot
  let z := s.tokenBytes slot n
  let va := n.elemAt b z t.elem
  match s.engineLoc (some n.die) a.lease va false with
  | .absent => s.nodeWait slot n va false ev
  | .refused cause sub detail => s.nodeFault slot idx n cause sub va detail
  | .found l =>
    if s.damaged l z then s.nodeFault slot idx n dataError 0 va 0 else
    let (u, bs) := (s.engineFill n.die a.lease va).engineRead a l z
    let w := match s.consumerDie slot n with
      | some d => u.dropLine d l
      | none => u
    w.setNode slot idx (n.fillTag t.tag (s.tokenLanes l z bs))

/-- NODE_READ_RESPONSE (R299). -/
def execNodeReadResponse (s : State) : Host.Outcome State Fault Refusal :=
  match s.net.hand with
  | some (.nodeReadResponse slot idx tag) =>
    match s.node? slot idx with
    | none => .fault .noUnit
    | some n =>
      match n.binding, n.tags.find? fun t => t.tag == tag && t.val.isNone with
      | some b, some t =>
        if n.faulted then .next s
        else if s.drains slot then .next (s.nodeRead slot idx n b t (.nodeReadResponse slot idx tag)) else .fault .notDue
      | _, _ => .next s
  | _ => .fault .notDue

/-! ### Delivery (R234, R299, R319) -/

/-- The binding of a node ends (R234): the tokens of its C.BIND and its C.UNBIND take the count, and the node is unbound. -/
def State.endBinding (s : State) (slot idx : Nat) (n : MemNode) (b : Binding) : State :=
  let v := BitVec.ofNat 64 (b.total % 2 ^ 32)
  let t := s.setNode slot idx { n with binding := none, tags := [], held := false }
  (b.cmd.toList ++ b.unbind.toList).foldl (fun u c => u.fillFor c v) t

/-- The tags that a source of this kind has left to send: every element of the run is read, or none will be (R234, R235). -/
def MemNode.allRead (n : MemNode) (b : Binding) : Bool :=
  if n.kind = 0 then b.unbind.isSome || decide (b.count ≤ b.read) else n.eosSeen

/-- The run of a node's stream has ended. -/
def State.runOver (s : State) (slot idx : Nat) (n : MemNode) : State := s.setNode slot idx { n with spent := true }

/-- A token sent by a node, committed as it stands (R77, R234). -/
def State.sendToken (s : State) (slot k : Nat) (e : Edge) (tok : Tok) : State :=
  let cls := s.slotClass slot
  let t := (s.setEdge slot k { e with free := e.free - 1, eosOut := e.eosOut || tok == .eos }).post cls (.channelTokenArrival slot k tok)
  if tok = .eos then t else t.post cls (.commitMarkArrival slot k 1)

/-- What a node that reads delivers next: a token, an end-of-stream token, the end of a stream without an output edge, or
nothing yet. -/
inductive Delivery
  | none
  | token (t : NodeTag) (v : List Lane)
  | ends
deriving DecidableEq, Repr

/-- The next delivery of a node, in request order (R299). -/
def MemNode.delivery (n : MemNode) (b : Binding) : Delivery :=
  match n.tags with
  | t :: _ =>
    match t.val with
    | some v => .token t v
    | none => .none
  | [] => if !n.spent && n.allRead b then .ends else .none

/-- A node's delivery made: into the slot that its edge holds credit for, or nowhere for a node without an output edge. -/
def State.deliver (s : State) (slot idx : Nat) (n : MemNode) (b : Binding) (d : Delivery) : State :=
  let out := s.outChan slot n.node 0
  match d with
  | .none => s
  | .token _ v =>
    let t := match out with
      | some (k, e) => s.sendToken slot k e (.data v)
      | none => s
    (t.setNode slot idx
      { n with tags := n.tags.tail, held := n.held && !n.tags.tail.isEmpty, binding := some { b with moved := b.moved + 1, total := b.total + 1 } }).pumpNode slot idx
  | .ends =>
    let t := match out with
      | some (k, e) => s.sendToken slot k e .eos
      | none => s
    t.runOver slot idx n

/-- A node's edge takes a token now: it holds credit, or it is not there. -/
def State.edgeTakes (s : State) (slot : Nat) (n : MemNode) : Bool := (s.outChan slot n.node 0).all fun p => decide (0 < p.2.free)

/-- A node has something to deliver (R234, R299). -/
def State.deliverable (s : State) (slot idx : Nat) : Bool :=
  match s.node? slot idx with
  | some n =>
    !n.sink && s.works slot n.node && s.edgeTakes slot n && n.binding.any fun b => n.delivery b != .none
  | none => false

/-- NODE_SOURCE_DELIVER (R234, R299, R319). -/
def execNodeSourceDeliver (s : State) : Host.Outcome State Fault Refusal :=
  match s.net.hand with
  | some (.nodeSourceDeliver slot idx) =>
    match s.node? slot idx with
    | none => .fault .noUnit
    | some n =>
      match n.binding with
      | some b => if s.deliverable slot idx then .next (s.deliver slot idx n b (n.delivery b)) else .fault .notDue
      | none => .fault .notDue
  | _ => .fault .notDue

/-! ### Sinks (R234) -/

/-- The token at the head of a node's input edge, once committed. -/
def Edge.headTok (e : Edge) : Option Tok :=
  match e.buf with
  | t :: _ => if t.committed then some t.tok else none
  | [] => none

/-- The head of an edge consumed by an engine node: its slot returns as credit (R77, R215). -/
def State.takeHead (s : State) (slot k : Nat) (e : Edge) : State :=
  (s.setEdge slot k { e with buf := e.buf.tail }).post (creditClass e.buf) (.creditArrival slot k 1)

/-- The data bytes of a token. -/
def tokBytes (ls : List Lane) : List Byte := ls.flatMap fun l => leBytes 4 l.data.toNat

/-- A sink node takes its next token (R234): writes it at its address, or ends its run at the end-of-stream token. -/
def State.sinkTake (s : State) (slot idx : Nat) (n : MemNode) (b : Binding) (k : Nat) (e : Edge) (tok : Tok) : State :=
  match tok with
  | .eos => (s.takeHead slot k e).runOver slot idx { n with eosSeen := true }
  | .data ls =>
    let a := s.nodeAgent slot
    let va := n.tokenAt b (s.tokenBytes slot n) b.moved
    if b.count ≤ b.moved then s.nodeFault slot idx n 0x05 0x31 va 0
    else
      match s.engineLoc (some n.die) a.lease va true with
      | .absent => s.nodeWait slot n va true (.nodeSinkWrite slot idx)
      | .refused cause sub detail => s.nodeFault slot idx n cause sub va detail
      | .found l =>
        (((s.engineFill n.die a.lease va).engineWrite a n.die l (tokBytes ls)).takeHead slot k e).setNode slot idx
          { n with binding := some { b with moved := b.moved + 1, total := b.total + 1 } }

/-- The head token of a node's in0, where the node is bound, works and has not ended its run. -/
def State.nodeInput (s : State) (slot idx : Nat) : Option (MemNode × Binding × Nat × Edge × Tok) :=
  match s.node? slot idx with
  | none => none
  | some n =>
    match n.binding, s.inChan slot n.node 0 with
    | some b, some (k, e) =>
      match e.headTok with
      | some tok => if s.works slot n.node && !n.eosSeen && !n.spent then some (n, b, k, e, tok) else none
      | none => none
    | _, _ => none

/-- A sink node has a token to take. -/
def State.sinkReady (s : State) (slot idx : Nat) : Bool :=
  match s.nodeInput slot idx with
  | some (n, _, _, _, _) => n.sink && !n.faulted
  | none => false

/-- NODE_SINK_WRITE (R234). -/
def execNodeSinkWrite (s : State) : Host.Outcome State Fault Refusal :=
  match s.net.hand with
  | some (.nodeSinkWrite slot idx) =>
    match s.nodeInput slot idx with
    | some (n, b, k, e, tok) =>
      if s.sinkReady slot idx then .next (s.sinkTake slot idx n b k e tok) else .fault .notDue
    | none => .fault .notDue
  | _ => .fault .notDue

/-! ### Requests and updates (R299, R300, R319) -/

/-- The data words of a token. -/
def tokWord (ls : List Lane) (i : Nat) : Nat := ((ls.getD i (.plain 0)).data).toNat

/-- An update whose index or whose zero bytes are wrong (R319). -/
def badUpdate (ls : List Lane) (count : Nat) : Bool :=
  decide (count ≤ tokWord ls 0) || tokWord ls 1 != 0 || [4, 5, 6, 7].any fun i => tokWord ls i != 0

/-- The operand of an update (R319). -/
def updateOperand (ls : List Lane) : BitVec 64 := BitVec.ofNat 64 (tokWord ls 2 + 2 ^ 32 * tokWord ls 3)

/-- The operation of a code of R106. -/
def amoFnOf (code : Nat) : AmoFn :=
  match code with
  | 0 => .add | 1 => .and | 2 => .or | 3 => .xor | 4 => .min | 5 => .max | 6 => .minz | 7 => .maxz | 8 => .swap | 9 => .cas
  | _ => .fadd

/-- The atomic of an update (R300): it never combines. -/
def State.updateReq (s : State) (slot idx : Nat) (n : MemNode) (l : Loc) (b : BitVec 64) : AmoReq :=
  let a := s.nodeAgent slot
  ⟨.memNode a.handle n.node, a.lease, n.seq, amoFnOf n.fn, l, b, 0, true, false, false, none, .node slot idx n.nextTag (some n.seq), s.slotClass slot⟩

/-- An ORDERED-UPDATE node takes an update: its atomic goes to the word's home under the next tag (R300). -/
def State.takeUpdate (s : State) (slot idx : Nat) (n : MemNode) (b : Binding) (k : Nat) (e : Edge) (ls : List Lane) : State :=
  let a := s.nodeAgent slot
  let va := b.base + 8 * tokWord ls 0
  if badUpdate ls b.count then s.nodeFault slot idx n 0x05 0x31 va 0
  else
    match s.engineLoc (some n.die) a.lease va true with
    | .absent => s.nodeWait slot n va true (.nodeRequestElement slot idx)
    | .refused cause sub detail => s.nodeFault slot idx n cause sub va detail
    | .found l =>
      if l.isHost && !hostAmo (amoFnOf n.fn) then s.nodeFault slot idx n 0x05 0x06 va 0
      else
        let m := { n with tags := n.tags ++ [(⟨n.nextTag, tokWord ls 0, none, some n.seq⟩ : NodeTag)],
                          nextTag := (n.nextTag + 1) % Config.nodeTags, seq := n.seq + 1 }
        (((s.engineFill n.die a.lease va).takeHead slot k e).setNode slot idx m).post (s.slotClass slot)
          (.homeAtomic (s.updateReq slot idx n l (updateOperand ls)))

/-- A RANDOM or ORDERED-UPDATE node takes the next element of in0 (R299, R319). -/
def State.takeElement (s : State) (slot idx : Nat) (n : MemNode) (b : Binding) (k : Nat) (e : Edge) (tok : Tok) : State :=
  match tok with
  | .eos => (s.takeHead slot k e).setNode slot idx { n with eosSeen := true }
  | .data ls =>
    if n.kind = 1 then
      if b.count ≤ tokWord ls 0 then s.nodeFault slot idx n 0x05 0x31 (n.elemAt b (s.tokenBytes slot n) (tokWord ls 0)) 0
      else ((s.takeHead slot k e).takeTag slot idx n (tokWord ls 0)).1
    else s.takeUpdate slot idx n b k e ls

/-- A node has a permit left for what a token asks of it (R353). -/
def State.tokenPermit (s : State) (slot : Nat) (n : MemNode) (b : Binding) (tok : Tok) : Bool :=
  match tok with
  | .data ls => s.nodePermit slot n b (n.elemAt b (s.tokenBytes slot n) (tokWord ls 0)) (n.kind == 2)
  | .eos => true

/-- A RANDOM or ORDERED-UPDATE node has an element to take: while all its tags are taken, or the permits of the slice that the element
names, it accepts none (R299, R353). -/
def State.elementReady (s : State) (slot idx : Nat) : Bool :=
  match s.nodeInput slot idx with
  | some (n, b, _, _, tok) =>
    n.kind != 0 && !n.held && decide (n.tags.length < Config.nodeTags) && !n.faulted && s.tokenPermit slot n b tok
  | none => false

/-- NODE_REQUEST_ELEMENT (R299, R300, R319). -/
def execNodeRequestElement (s : State) : Host.Outcome State Fault Refusal :=
  match s.net.hand with
  | some (.nodeRequestElement slot idx) =>
    match s.nodeInput slot idx with
    | some (n, b, k, e, tok) =>
      if s.elementReady slot idx then .next (s.takeElement slot idx n b k e tok) else .fault .notDue
    | none => .fault .notDue
  | _ => .fault .notDue

/-! ### Runs and their end (R234, R317) -/

/-- A binding ends now: its run is over, and no further one follows, since the node knows it for the last or a C.UNBIND ended
it (R234, R235). -/
def State.streamEnds (s : State) (slot idx : Nat) : Bool :=
  match s.node? slot idx with
  | some n => n.spent && s.works slot n.node && n.binding.any fun b => b.last || b.unbind.isSome
  | none => false

/-- NODE_STREAM_END (R234, R235): the binding's last run has ended. -/
def execNodeStreamEnd (s : State) : Host.Outcome State Fault Refusal :=
  match s.net.hand with
  | some (.nodeStreamEnd slot idx) =>
    match s.node? slot idx with
    | none => .fault .noUnit
    | some n =>
      match n.binding with
      | some b => if s.streamEnds slot idx then .next (s.endBinding slot idx n b) else .fault .notDue
      | none => .fault .notDue
  | _ => .fault .notDue

/-- A node's next run (R317): where the run before has ended, the stream restarts at its ITSTRIDE offset. -/
def State.nextRun (s : State) (slot idx : Nat) : State :=
  match s.node? slot idx with
  | none => s
  | some n =>
    match n.binding with
    | some b =>
      if n.spent then
        (s.setNode slot idx { n with spent := false, eosSeen := false,
                                     binding := some { b with read := 0, moved := 0, run := b.run + 1 } }).pumpNode slot idx
      else s
    | none => s

/-- The node learns that its run is the last one: one that has ended already ends the binding (R234). -/
def State.lastRun (s : State) (slot idx : Nat) : State :=
  match s.node? slot idx with
  | none => s
  | some n =>
    match n.binding with
    | none => s
    | some b =>
      if n.spent && s.works slot n.node then s.endBinding slot idx n { b with last := true }
      else s.setNode slot idx { n with binding := some { b with last := true } }

/-- A node bound to a stream (R234): the first run starts as the binding is accepted. -/
def State.bindNode (s : State) (slot idx g count : Nat) (cmd : Option Cmd) : State :=
  match s.node? slot idx with
  | none => s
  | some n =>
    (s.setNode slot idx { n with binding := some ⟨g, count, cmd, 0, 0, 0, 0, none, false⟩, tags := [], eosSeen := false,
                                 spent := false, held := false }).pumpNode slot idx

/-- The memory nodes of a slot with their indices. -/
def State.nodesOf (s : State) (slot : Nat) : List (Nat × MemNode) :=
  s.nodes.filterMap fun p => if p.1.1 = slot then some (p.1.2, p.2) else none

end Sys2Proof.Machine
end

