-- ==== Sys2Proof/Machine/Capture.lean ====
section
/-! DEFINITION. The capture of a context at an instruction boundary, by OVERRUN or by a cut (R84, R90, R130, R132, R203), and
its return at a restore (R90, R336). -/

namespace Sys2Proof.Machine

/-! ### Cuts (R90, R203) -/

/-- An instruction whose request a cut withdraws from its target (R203). -/
def withdrawn : Instr → Bool
  | .ldf _ | .ldp _ | .ste _ | .dqpush _ | .acq _ | .acqs _ | .waita _ | .bar _ | .xbar _ => true
  | _ => false

/-- The requests of INFLIGHT entries that a cut withdraws. -/
def toWithdraw (q : List RqEntry) : List Nat :=
  (q.filter fun e => e.status == 1#4 && e.decoded.any withdrawn).map RqEntry.id

/-- A context captured by a cut, a freeze or a kill (R90, R394): a context that a fault has captured already stays as it is. A capture by
a cut counts as a trap (R420). -/
def State.cutCtx (s : State) (byCut : Bool) (c : CtxId) : State :=
  match s.ctx? c with
  | none => s
  | some x =>
    if x.cut.isSome || x.stopped then s
    else
      let k := x.captured true
      let y := { k.ctx with cut := some ⟨k.queue, k.resume, x.halted⟩, pend := [], inject := [], injecting := none,
                            hold := .free, walk := .none }
      let t := if byCut then (s.setCtx c y).count x.lease 0x003 x.handle 1 else s.setCtx c y
      (t.modCell c.cell fun d => { d with holder := none }).postAll 3
        ((toWithdraw (k.queue ++ y.rq)).map fun id => .withdrawalArrival c id)

/-- A context returns from its cut record: the queue is re-injected before the next fetch (R90, R336). -/
def Ctx.uncut (x : Ctx) : Ctx :=
  match x.cut with
  | none => x
  | some k =>
    { x with cut := none, inject := k.queue, injecting := none, injectBy := .restore, pc := k.resume, halted := k.halted,
             hold := .free, walk := .none, runnableSince := none, lastStart := none }

/-- A context holds an INFLIGHT entry, in its cut record or in its trap's queue (R90). -/
def Ctx.hasInflight (x : Ctx) : Bool :=
  (x.rq ++ x.cut.elim [] CutRecord.queue).any fun e => e.status == 1#4

/-! ### Contexts of a node -/

/-- The contexts of a node: one of an actor, none of another kind. -/
def State.ctxsAt (s : State) (slot node : Nat) : List CtxId := s.ctxsOf slot fun x => x.node == node

/-- The contexts of a slot. -/
def State.allCtxs (s : State) (slot : Nat) : List (CtxId × Ctx) := s.ctxs.filter fun p => p.1.slot == slot

/-- Every context of a slot captured at once, as a kill does (R20). -/
def State.cutAll (s : State) (slot : Nat) : State := (s.allCtxs slot).foldl (fun t p => t.cutCtx false p.1) s

end Sys2Proof.Machine
end

