-- ==== Sys2Proof/Machine/Outcomes.lean ====
section
/-! DEFINITION. Outcomes of rectangles: status words (R46, R373), the reports to a parent and to the host (R47, R373), kill, free
and EMPTY (R20, R48, R49, R207), and the freeze of a faulted rectangle (R21, R394). -/

namespace Sys2Proof

/-! ### The slot that an event concerns -/

/-- The slot of the context or node to which an answer goes. -/
def ReplyTo.slot? : ReplyTo → Option Nat
  | .ctxReply c _ _ _ _ | .ctxAck c _ _ _ _ => some c.slot
  | .node slot _ _ _ => some slot
  | .none | .split _ | .host _ _ => Option.none

/-- The slot of the rectangle whose unit an event reaches. An event at a home, in Slate or in the hub has none. -/
def Event.slot? : Event → Option Nat
  | .command c _ | .firingOverrun c | .eosConsume c | .ackArrival c _ _ _ _ | .xbarArrival c _ _ | .barArrival c _ _
  | .withdrawalArrival c _ => some c.slot
  | .engineCommandStart p | .copyChunkLand p _ _ | .engineCommandComplete p _ | .engineCommandError p _ _ =>
    match p with
    | .strm n _ | .memn n _ | .mrow n _ => some n
  | .nodeSourceDeliver n _ | .nodeReadResponse n _ _ | .nodeSinkWrite n _ | .nodeRequestElement n _ | .nodeStreamEnd n _
  | .channelTokenArrival n _ _ | .commitMarkArrival n _ _ | .creditArrival n _ _ | .borderTokenRefuse n _ _ _
  | .ctlStartPulse n _ | .ctlDonePulse n _ _ | .configWritten n | .armCheck n | .rectSinksDone n | .completionSignalWrite n
  | .rectOverrun n | .cutRequest n _ | .cutTokenArrival n _ | .stopAckArrival n _ | .reelWrite n | .faultEvent n _
  | .freezeArrival n _ | .drainLimitExpiry n | .moveStart n _ _ | .autoRestore n => some n
  | .firingStart c | .cellWake c => some c.slot
  | .replyArrival dst _ => dst.slot?
  | .scratchpadPortAccess r => some r.cell.slot
  | .presencePortRequest r => some r.cell.slot
  | .retryResend (.pres r) | .evictionResend (.pres r) => some r.cell.slot
  | .retryResend (.pad r) | .evictionResend (.pad r) => some r.cell.slot
  | .evictionResend (.node n _ _ _) => some n
  | .evictionResend (.chunk p _ _ _) =>
    match p with
    | .strm n _ | .memn n _ | .mrow n _ => some n
  | .pageWalkDone w => w.who.map CtxId.slot
  | _ => none

end Sys2Proof

namespace Sys2Proof.Machine

/-! ### Status words (R46, R373) -/

/-- The code of an outcome. -/
def Outc.code : Outc → Nat
  | .done => 0
  | .faulted => 1
  | .killed => 2

/-- The status word of R373. -/
def statusWord (handle admission check cause outcome : Nat) : BitVec 64 :=
  BitVec.ofNat 64 (handle * 2 ^ 32 + admission % 256 * 2 ^ 24 + check % 256 * 2 ^ 16 + cause % 256 * 2 ^ 8 + outcome % 16)

/-- The join status word of R46. -/
def joinWord (node child cause outcome : Nat) : BitVec 64 :=
  BitVec.ofNat 64 (node % 2 ^ 16 * 2 ^ 48 + child % 2 ^ 32 * 2 ^ 16 + cause % 256 * 2 ^ 8 + outcome % 16)

/-- NOHANDLE (R46). -/
def noHandle (child : Nat) : BitVec 64 := joinWord 0xFFFF child 0 3

/-! ### Writes of the hub (R373, R386) -/

/-- What becomes of a write of the hub to an address of a lease. -/
inductive HubWrite
  | written (s : State)
  | absent (s : State)
  | refused (cause sub : Nat)

/-- A write of the hub: an absent page is serviced first, and the write is made again later (R389). -/
def State.hubWrite (s : State) (lease va handle : Nat) (bs : List Byte) : HubWrite :=
  match s.engineLoc none lease va true with
  | .found l => .written (s.homeWrite none l bs)
  | .refused cause sub _ => .refused cause sub
  | .absent =>
    match s.walkOf lease va with
    | .absent entry value _ =>
      .absent ((s.waitPage lease entry value (s.pageRecord handle 0xFFFF none va true false) none).serveQueue lease)
    | .found _ _ _ | .unmapped _ => .absent s

/-- The ERROR record of a status word that found no mapping or no write permission (R373, R388). -/
def State.statusError (s : State) (lease va handle cause sub : Nat) : State :=
  s.postRecord lease (s.record 0x0B cause sub 0 handle 0xFFFF none va 5 0 0)

/-- A status word of this address waits for its page. -/
def State.statusWaits (s : State) (lease addr : Nat) : Bool := (s.lease lease).stWrites.any fun w => w.addr == addr

/-- A status word that waits for its page. -/
def State.holdStatus (s : State) (lease : Nat) (w : StWrite) : State :=
  s.modLease lease fun l => { l with stWrites := l.stWrites ++ [w] }

/-- A status word written, or one that waits: those of one address stay in order. -/
def State.flushOne (s : State) (lease : Nat) (w : StWrite) : State :=
  if s.statusWaits lease w.addr then s.holdStatus lease w
  else
    match s.hubWrite lease w.addr w.handle (leBytes 8 w.val.toNat) with
    | .written t => t
    | .absent t => t.holdStatus lease w
    | .refused cause sub => s.statusError lease w.addr w.handle cause sub

/-- Every status word of a lease that can be written now. -/
def State.flushAll (s : State) (lease : Nat) : State :=
  (s.lease lease).stWrites.foldl (fun t w => t.flushOne lease w) (s.modLease lease fun l => { l with stWrites := [] })

/-- A status word to be written at STADDR, 0 for none (R373). -/
def State.writeStatus (s : State) (lease addr handle : Nat) (v : BitVec 64) : State :=
  if addr = 0 then s
  else (s.modLease lease fun l => { l with stWrites := l.stWrites ++ [(⟨addr, v, handle⟩ : StWrite)] }).flushAll lease

/-! ### Joins (R46, R47, R49, R250, R252) -/

/-- The join status word of a child's outcome. -/
def ChildOut.word (o : ChildOut) (child : Nat) : BitVec 64 := joinWord o.node child o.cause o.outcome.code

/-- A rectangle answers its joins: not while it is cut or away (R49, R252). -/
def Rect.joinable (r : Rect) : Bool := r.collector.isNone && (r.state == .armed || r.state == .running || r.state == .frozen)

/-- The child record that a join is answered from. -/
def Rect.childRec? (r : Rect) (child : Nat) : Option ChildRec := r.children.find? fun k => k.handle == child

/-- The records after a join took an outcome: released for a child that is EMPTY, kept as joined for a FROZEN one (R47). -/
def State.afterJoin (s : State) (ks : List ChildRec) (child : Nat) : List ChildRec :=
  if (s.live? child).isNone then ks.filter fun k => k.handle != child
  else ks.map fun k => if k.handle = child then { k with joined := true } else k

/-- The answer to a join: NOHANDLE without a record or for a child already joined, the outcome once there is one. -/
def Rect.joinAnswer (r : Rect) (child : Nat) : Option (BitVec 64) :=
  match r.childRec? child with
  | none => some (noHandle child)
  | some k => if k.joined then some (noHandle child) else k.out.map fun o => o.word child

/-- Waiting joins of a rectangle answered in order of arrival. -/
def State.serveJoins (s : State) (slot : Nat) : Nat → State
  | 0 => s
  | n + 1 =>
    match s.rect? slot with
    | none => s
    | some r =>
      if !r.joinable then s
      else
        match r.joins.find? fun j => (r.joinAnswer j.child).isSome with
        | none => s
        | some j =>
          ((s.setRect slot { r with joins := r.joins.erase j, children := s.afterJoin r.children j.child }).fillFor j.cmd
            ((r.joinAnswer j.child).getD 0)).serveJoins slot n

/-- All joins of a slot that can be answered. -/
def State.answerJoins (s : State) (slot : Nat) : State :=
  s.serveJoins slot ((s.rect? slot).elim 0 fun r => r.joins.length + 1)

/-! ### Reports (R46, R47, R373) -/

/-- A rectangle's outcome reported: to the host's record, and to the parent's child record and its joins. A DONE of the host's
record is written with the completion signal (R50). -/
def State.report (s : State) (slot : Nat) (o : ChildOut) : State :=
  match s.rect? slot with
  | none => s
  | some r =>
    let h := s.handleOf slot
    let t := s.setRect slot { r with outcome := some o, stAddr := 0 }
    let u := if o.outcome = .done then t else t.writeStatus r.lease r.stAddr h (statusWord h 0 0 o.cause o.outcome.code)
    match r.parent.bind u.live? with
    | some p =>
      (u.modRect p fun q => { q with children := q.children.map fun k => if k.handle = h then { k with out := some o } else k })
    | none => u

/-- The joins of a rectangle's parent answered. -/
def State.tellParent (s : State) (parent : Option Nat) : State :=
  match parent.bind s.live? with
  | some p => s.answerJoins p
  | none => s

/-! ### EMPTY (R17, R20, R48, R49, R207) -/

/-- The homes that hold something for a handle: only they have an effect of its purge (R207). -/
def State.purgeTargets (s : State) (handle : Nat) : List Nat :=
  let homes := (s.homes.waiters.filter fun w => srcHandle w.src == handle).map (fun w => s.homeNo w.lease w.loc) ++
    (s.homes.holds.filter fun h => srcHandle h.src == handle).map (fun h => s.homeNo h.lease h.loc) ++
    (s.homes.replies.filter fun r => srcHandle r.src == handle).map Reply.home
  ((homes.filter (· != 0)).map fun n => n - 1).eraseDups

/-- The engines that moves under way have bound at their targets, with the slots (R360). -/
def State.reserved (s : State) : List (Nat × EnginePick) :=
  s.rects.flatMap fun p => ((p.2.rect.bind Rect.move).elim [] fun m => m.fit.engines).map fun k => (p.1, k)

/-- An engine of a class is bound at the target of a move. -/
def State.isReserved (s : State) (k : NodeKind) (n : Nat) : Bool := s.reserved.any fun p => p.2.kind == k && p.2.engine == n

/-- A row half returned by the matrix node that it was bound to (R42). -/
def RowHalf.unbind (r : RowHalf) : RowHalf :=
  { r with bound := none, queue := [], slots := firstSlots, blocks := 0, ksteps := [], work := none, parts := [],
           faulted := false }

/-- The row halves bound to a slot returned. -/
def RowHalf.unbindFrom (slot : Nat) (p : Nat × RowHalf) : Nat × RowHalf :=
  if (p.2.bound.map Prod.fst) = some slot then (p.1, p.2.unbind) else p

/-- A row half waits for no page any more: what it does next is another's work (R389). -/
def State.unwaitRow (s : State) (row : Nat) : State :=
  { s with leases := s.leases.map fun p =>
      (p.1, { p.2 with svcs := p.2.svcs.map fun v => { v with waiters := v.waiters.filter fun e => e != .rowHalfKstep row } }) }

/-- An entry that stays when a slot empties: one of a row half, or a kept state of another slot's row half. -/
def RowHalf.kept (slot : Nat) (p : Nat × RowHalf) : Bool := decide (p.1 < 256) || (p.2.bound.map Prod.fst) != some slot

/-- A page-service record without the accesses of a slot. -/
def PageSvc.without (slot : Nat) (v : PageSvc) : PageSvc := { v with waiters := v.waiters.filter fun e => e.slot? != some slot }

/-- A counter's binding to a rectangle lapses with the rectangle (R259). -/
def Counter.lapse (handle : Nat) (k : Counter) : Counter := if k.rect = some handle then { k with rect := none } else k

/-- A slot passes to EMPTY: its tables, what is on its way to it and what waits for it go, its generation rises, counters bound
to it lapse, and the purge is sent (R17, R18, R20, R207). -/
def State.emptySlot (s : State) (slot : Nat) : State :=
  match s.rect? slot with
  | none => s
  | some r =>
    let h := s.handleOf slot
    let targets := s.purgeTargets h
    let free := ((s.rows.filter fun p => (p.2.bound.map Prod.fst) == some slot).map Prod.fst).foldl State.unwaitRow s
    let t := { free with
      ctxs := s.ctxs.filter fun p => p.1.slot != slot,
      cells := s.cells.filter fun p => p.1.slot != slot,
      edges := s.edges.filter fun p => p.1.1 != slot,
      nodes := s.nodes.filter fun p => p.1.1 != slot,
      strms := s.strms.filter fun p => p.1.1 != slot,
      rows := (s.rows.filter (RowHalf.kept slot)).map (RowHalf.unbindFrom slot),
      rects := Tab.put s.rects slot { gen := ((s.slot slot).gen + 1) % 256, purges := targets, rect := none },
      net := { s.net with agenda := s.net.agenda.filter fun f => f.ev.slot? != some slot } }
    let u := t.modLease r.lease fun l =>
      { l with svcs := l.svcs.map (PageSvc.without slot), loads := l.loads.filter fun k => k.ev.slot? != some slot, counters := l.counters.map (Counter.lapse h) }
    u.postAll 3 (targets.map fun n => .purgeArrival h n)

/-- The outcome of a rectangle that is freed or killed now: KILLED, unless a fault has been taken (R21). -/
def Rect.endOutcome (r : Rect) (cause : Nat) : ChildOut :=
  match r.first with
  | some f => ⟨.faulted, f.cause, f.node⟩
  | none => ⟨.killed, cause, 0xFFFF⟩

/-- A rectangle without an outcome takes one as it ends. -/
def State.reportEnd (s : State) (slot cause : Nat) : State :=
  match s.rect? slot with
  | some r => if r.outcome.isSome then s else s.report slot (r.endOutcome cause)
  | none => s

/-- A rectangle passes to EMPTY after its children, and theirs in turn, are freed (R49). -/
def State.release (s : State) (slot : Nat) : Nat → State
  | 0 => s.emptySlot slot
  | n + 1 =>
    let kids := (s.rect? slot).elim [] Rect.children
    (kids.foldl (fun t k =>
      match t.live? k.handle with
      | some c => (t.reportEnd c 0).release c n
      | none => t) s).emptySlot slot

/-- A rectangle passes to EMPTY with its children: launches nest at most 8 deep (R45). -/
def State.toEmpty (s : State) (slot : Nat) : State := s.release slot 8

/-- Free (R20, R48): KILLED, unless the rectangle has its outcome already, and EMPTY. -/
def State.freeRect (s : State) (slot : Nat) : State :=
  ((s.reportEnd slot 0).toEmpty slot).tellParent ((s.rect? slot).bind Rect.parent)

/-- The first free slots of the device: those with no rectangle and no purge outstanding (R17, R207). -/
def State.freeSlot (s : State) : Option Nat :=
  (List.range Config.slots).find? fun n => (s.slot n).rect.isNone && (s.slot n).purges.isEmpty

/-! ### Kill (R20, R21, R346) -/

/-- The values of a lease's counter set (R419). -/
def Lease.counts (l : Lease) : List (BitVec 48) := l.counters.toList.map Counter.value

/-- A rectangle passes to FROZEN at a cycle: whatever collected is gone but the counter set's values at its completion (R422), a partial
reel is discarded, and a move's target is released. -/
def Rect.freeze (now : Nat) (counts : List (BitVec 48)) (r : Rect) : Rect :=
  { r with state := .frozen, stopCounts := ((r.collector.filter fun k => k.complete.isSome).elim counts Collector.counts), stoppedAt := (r.collector.bind Collector.complete).getD now, collector := none, reel := none, move := none, sliced := false, cutDeferred := none, startHeld := none }

/-- A kill (R20, R21): a freeze under way absorbs it, and it has no effect on a FROZEN rectangle. -/
def State.killRect (s : State) (slot cause : Nat) : State :=
  match s.rect? slot with
  | none => s
  | some r =>
    match r.state with
    | .empty | .frozen => s
    | .loading | .unarmed | .saved => ((s.reportEnd slot cause).toEmpty slot).tellParent r.parent
    | .armed | .running | .draining =>
      if r.collector.any Collector.freeze then s
      else ((((s.cutAll slot).modRect slot (Rect.freeze s.clock.cycles (s.lease r.lease).counts)).reportEnd slot cause).tellParent r.parent).answerJoins slot

/-! ### Faults (R21, R394) -/

/-- The FAULT record of a fault (R388): DETAIL2 counts the faults seen. -/
def State.faultRecord (s : State) (slot : Nat) (f : FaultInfo) (flags count : Nat) : FaultRec :=
  s.record 0x01 f.cause f.sub flags (s.handleOf slot) f.node f.who f.addr.toNat (f.unitClass % 256 + f.unitIndex % 256 * 256)
    f.detail1 count

/-- The number of a switch among the units of a rectangle: its nodes come first. -/
def switchUnit (n : Nat) : Nat := 65536 + n

/-- The units that a cut or a freeze has to stop: every node of the image, and each switch on the routes (R26, R394). -/
def Rect.units (r : Rect) : List Nat :=
  List.range r.image.nodes.length ++ (r.routes.flatMap Route.switches).eraseDups.map switchUnit

/-- The first fault is taken: the freeze goes to every unit, and a cut under way ends with it (R21, R394). -/
def State.startFreeze (s : State) (slot : Nat) (r : Rect) (f : FaultInfo) : State :=
  let sent := r.collector.elim [] Collector.cutSent
  let t := s.setRect slot
    { r with first := some f, faults := 1, reel := none, move := none, sliced := false,
             collector := some ⟨true, r.units, sent, [], [], s.clock.cycles, none, .preempt, []⟩ }
  t.postAll 3 (r.units.map fun n => .freezeArrival slot n)

/-- The freeze is complete (R394): FROZEN, the FAULT record of the first fault, and the outcome FAULTED. -/
def State.frozen (s : State) (slot : Nat) : State :=
  match s.rect? slot with
  | none => s
  | some r =>
    let t := s.modRect slot (Rect.freeze s.clock.cycles (s.lease r.lease).counts)
    let u := match r.first with
      | some f => t.postRecord r.lease (s.faultRecord slot f 0 r.faults)
      | none => t
    ((u.reportEnd slot 0).tellParent r.parent).answerJoins slot

/-- FAULT_EVENT (R21, R394): the first fault freezes the rectangle, a further one is posted with SECONDARY set, and one that
reaches a FROZEN rectangle is ignored. -/
def execFaultEvent (s : State) : Host.Outcome State Fault Refusal :=
  match s.net.hand with
  | some (.faultEvent slot f) =>
    match s.rect? slot with
    | none => .next s
    | some r =>
      match r.state with
      | .armed | .running | .draining =>
        match r.first with
        | none => .next (s.startFreeze slot r f)
        | some _ =>
          .next ((s.setRect slot { r with faults := r.faults + 1 }).postRecord r.lease
            (s.faultRecord slot f 1 (r.faults + 1)))
      | .empty | .loading | .unarmed | .saved | .frozen => .next s
  | _ => .fault .notDue

end Sys2Proof.Machine
end

