-- ==== Sys2Proof/Machine/Leaves.lean ====
section
/-! DEFINITION. Runs of a rectangle: starts, controllers and leaves (R20, R27, R28, R317, R322, R323), firings and their overrun
(R30 to R35, R347), arrivals on channels (R55, R77, R215, R397), completion (R50, R302, R373) and the overrun of a rectangle
(R345, R346). -/

namespace Sys2Proof.Machine

/-! ### Units that work (R20, R33, R327, R394) -/

/-- A context is resident and its cell works for it: nothing has captured or stopped it. -/
def State.live (s : State) (c : CtxId) (x : Ctx) : Bool :=
  s.works c.slot x.node && ((s.rect? c.slot).any fun r => r.state == .running || (r.state == .draining && r.wasRunning)) &&
    !x.stopped && x.cut.isNone

/-- A context with a firing in progress can issue (R33): what it waited for may have changed since it was last tried. -/
def State.canIssue (s : State) (c : CtxId) (x : Ctx) : Bool :=
  s.live c x && x.firing && !x.halted && !(x.pend.any Pend.hold) &&
    (match x.hold with
     | .free | .woken | .yielded => true
     | .blocked k => decide (k < s.clock.stamp)
     | .idle => false)

/-- A task is runnable (R30), in a RUNNING rectangle alone: a source task once for each start of its leaf, none after its end-of-stream tokens (R215). -/
def State.runnable (s : State) (c : CtxId) (x : Ctx) : Bool :=
  s.live c x && ((s.rect? c.slot).any fun r => r.state == .running) && !x.firing && !x.ended &&
    (x.sourceDue || !(s.ins c.slot x.node).isEmpty) && s.ratesMet c.slot x.node

/-- The contexts of a cell with their names. -/
def State.cellCtxs (s : State) (k : CellId) : List (CtxId × Ctx) := s.ctxs.filter fun p => p.1.cell == k

/-! ### Firings (R31 to R35) -/

/-- A runnable context C is passed by another, X (R34). -/
def passedBy (now : Nat) (c x : Ctx) : Bool :=
  match c.lastStart with
  | none => false
  | some t => decide (x.runnableSince.getD now ≤ t) && x.lastStart.all fun u => decide (u < t)

/-- The runnable contexts of a cell that no other one passes (R34). -/
def State.eligible (s : State) (k : CellId) : List (CtxId × Ctx) :=
  let ready := (s.cellCtxs k).filter fun p => s.runnable p.1 p.2
  ready.filter fun p => !ready.any fun q => q.1 != p.1 && passedBy s.clock.cycles p.2 q.2

/-- The rank of a context: the class falling, then the place from the round-robin pointer on (R34). -/
def State.rank (s : State) (rr : Nat) (p : CtxId × Ctx) : Nat := (3 - s.classOf p.2) * 4 + (p.1.ctx + 4 - rr % 4) % 4

/-- The least element of a list under a rank. -/
def leastBy {α : Type} (f : α → Nat) : List α → Option α
  | [] => none
  | a :: as =>
    match leastBy f as with
    | none => some a
    | some b => if f b < f a then some b else some a

/-- The context whose firing starts next on a cell (R34). -/
def State.nextFiring (s : State) (k : CellId) : Option (CtxId × Ctx) :=
  leastBy (s.rank ((s.cell? k).elim 0 Cell.rr)) (s.eligible k)

/-- The cell is not clock-gated (R55). -/
def State.awake (s : State) (k : CellId) : Bool := (s.cell? k).any fun d => !d.gated

/-- A firing may start: the cell is awake, no firing in progress can issue (R33, R55), and none has started in this cycle, since the
first instruction of a firing issues in the cycle of the choice (R34). -/
def State.firingDue (s : State) (k : CellId) : Bool :=
  s.awake k && !((s.cellCtxs k).any fun p => s.canIssue p.1 p.2 || p.2.lastStart == some s.clock.cycles) && (s.nextFiring k).isSome

/-- A context as its firing begins (R31, R32, R145). -/
def Ctx.beginFiring (x : Ctx) (now : Nat) : Ctx :=
  { x with firing := true, pc := x.entry, fireCnt := 0, overran := false, demoted := false, hold := .free, halted := false,
           lastStart := some now, runnableSince := none }

/-- A firing starts: the claims, the pointer and the issue slot (R31, R33, R34). -/
def State.startFiring (s : State) (c : CtxId) (x : Ctx) : State :=
  ((s.claim c.slot x.node).setCtx c (x.beginFiring s.clock.cycles)).modCell c.cell fun k =>
    { k with rr := (c.ctx + 1) % 4, holder := some c.ctx }

/-- FIRING_START (R30, R31, R34). -/
def execFiringStart (s : State) : Host.Outcome State Fault Refusal :=
  match s.net.hand with
  | some (.firingStart k) =>
    if s.firingDue k then
      match s.nextFiring k with
      | some (c, x) => .next (s.startFiring c x)
      | none => .fault .notDue
    else .fault .notDue
  | _ => .fault .notDue

/-- The OVERRUN record (R388). -/
def State.overrunRecord (s : State) (handle node : Nat) (who : Option CtxId) (budget count tid : Nat) : FaultRec :=
  s.record 0x03 0x03 0 0 handle node who 0 budget count tid

/-- A firing's OVERRUN is due at an instruction boundary: not while the context is halted (R32, R255, R347). -/
def State.overrunDue (s : State) (c : CtxId) : Bool :=
  match s.ctx? c with
  | some x => s.live c x && x.firing && !x.overran && !x.halted && decide (x.budget < x.fireCnt)
  | none => false

/-- OVERRUN taken in a context: the capture of R132, and the handler or a fault (R84, R347). -/
def State.trapOverrun (s : State) (c : CtxId) (x : Ctx) (kill : Bool) : State :=
  let k := { x with overran := true, demoted := !kill }.captured false
  s.enterTrap c k.ctx Trap.overrun k.queue k.resume kill

/-- FIRING_OVERRUN (R32, R347). -/
def execFiringOverrun (s : State) : Host.Outcome State Fault Refusal :=
  match s.net.hand with
  | some (.firingOverrun c) =>
    match s.ctx? c, s.rect? c.slot with
    | some x, some r =>
      if s.overrunDue c then
        let t := (s.postRecord x.lease (s.overrunRecord x.handle x.node (some c) x.budget x.fireCnt 0)).count x.lease 0x039 x.handle 1
        if r.item.demotePolicy then .next (t.trapOverrun c x false)
        else .next ((t.trapOverrun c x true).killRect c.slot 0x03)
      else .fault .notDue
    | _, _ => .fault .noUnit
  | _ => .fault .notDue

/-! ### Arrivals on channels (R52, R55, R77, R215, R261) -/

/-- An event that reaches a node's cell ends the wait of every IDLE of its contexts (R261). -/
def State.wakeNode (s : State) (slot node : Nat) : State :=
  (s.ctxsAt slot node).foldl (fun t c => (t.cellCtxs c.cell).foldl (fun u p => u.modCtx p.1 Ctx.wake) t) s

/-- An event that reaches the cell on which an actor or a control node is placed (R331) ends the wait of every IDLE there (R261). -/
def State.wakePlace (s : State) (slot node : Nat) : State :=
  match (s.rect? slot).bind fun r => r.places.find? fun p => p.1 == node with
  | some p => (s.cellCtxs p.2.cell).foldl (fun u q => u.modCtx q.1 Ctx.wake) s
  | none => s

/-- CHANNEL_TOKEN_ARRIVAL (R77): a data token waits uncommitted, an end-of-stream token is committed as it comes. -/
def execChannelTokenArrival (s : State) : Host.Outcome State Fault Refusal :=
  match s.net.hand with
  | some (.channelTokenArrival slot n t) =>
    match s.edge? slot n with
    | some e => .next ((s.setEdge slot n { e with buf := e.buf ++ [(⟨t, t == .eos, s.net.cls⟩ : BufTok)] }).wakeNode slot e.dst)
    | none => .next s
  | _ => .fault .notDue

/-- The first `n` uncommitted tokens of a buffer committed (R77). -/
def commitFirst : Nat → List BufTok → List BufTok
  | 0, ts => ts
  | _, [] => []
  | n + 1, t :: ts => if t.committed then t :: commitFirst (n + 1) ts else { t with committed := true } :: commitFirst n ts

/-- COMMIT_MARK_ARRIVAL (R77). -/
def execCommitMarkArrival (s : State) : Host.Outcome State Fault Refusal :=
  match s.net.hand with
  | some (.commitMarkArrival slot n k) =>
    match s.edge? slot n with
    | some e => .next ((s.setEdge slot n { e with buf := commitFirst k e.buf }).wakeNode slot e.dst)
    | none => .next s
  | _ => .fault .notDue

/-- The end-of-stream tokens that a node's contexts owe, sent where there is room (R215). -/
def State.payNode (s : State) (slot node : Nat) : State := (s.ctxsAt slot node).foldl State.payEos s

/-- CREDIT_ARRIVAL (R77): credit may let an end-of-stream token go (R215), where its node has not stopped (R327). -/
def execCreditArrival (s : State) : Host.Outcome State Fault Refusal :=
  match s.net.hand with
  | some (.creditArrival slot n k) =>
    match s.edge? slot n with
    | some e =>
      let t := (s.setEdge slot n { e with free := e.free + k }).wakeNode slot e.src
      .next (if t.works slot e.src then t.payNode slot e.src else t)
    | none => .next s
  | _ => .fault .notDue

/-- A task's streams have ended: every bound input has an end-of-stream token as its oldest unclaimed token, and no firing is
in progress (R215). -/
def State.streamsOver (s : State) (c : CtxId) : Bool :=
  match s.ctx? c with
  | some x => s.live c x && !x.firing && !x.ended && !(s.ins c.slot x.node).isEmpty && (s.ins c.slot x.node).all fun p => p.2.eosNext
  | none => false

/-- A cell that is awake consumes the end-of-stream tokens of a task whose streams have ended (R55, R215). -/
def State.eosDue (s : State) (c : CtxId) : Bool := s.streamsOver c && s.awake c.cell

/-- EOS_CONSUME (R215): the tokens are consumed, their slots returned, and the outputs get theirs. -/
def execEosConsume (s : State) : Host.Outcome State Fault Refusal :=
  match s.net.hand with
  | some (.eosConsume c) =>
    match s.ctx? c with
    | some x =>
      if s.eosDue c then
        .next (((s.ins c.slot x.node).foldl (fun t p =>
          (t.setEdge c.slot p.1 { p.2 with buf := p.2.buf.tail }).post (creditClass p.2.buf) (.creditArrival c.slot p.1 1)) s).endStream
            c x.node)
      else .fault .notDue
    | none => .fault .noUnit
  | _ => .fault .notDue

/-- CELL_WAKE (R55, R397): a clock-gated cell wakes. -/
def execCellWake (s : State) : Host.Outcome State Fault Refusal :=
  match s.net.hand with
  | some (.cellWake k) =>
    match s.cell? k with
    | some d => if d.gated then .next (s.setCell k { d with gated := false }) else .fault .notDue
    | none => .fault .noUnit
  | _ => .fault .notDue

/-- The oldest token on its way on an edge discarded. -/
def State.loseToken (s : State) (slot n : Nat) : State :=
  let here := fun (f : Flight) => match f.ev with
    | .channelTokenArrival m k _ => m == slot && k == n
    | _ => false
  match s.net.agenda.find? here with
  | some f => { s with net := { s.net with agenda := s.net.agenda.erase f } }
  | none => s

/-- BORDER_TOKEN_REFUSE (R397): a mis-routed token is discarded, its record posted, and the sending rectangle frozen. -/
def execBorderTokenRefuse (s : State) : Host.Outcome State Fault Refusal :=
  match s.net.hand with
  | some (.borderTokenRefuse slot n col row) =>
    match s.rect? slot with
    | none => .next s
    | some r =>
      let t := s.postRecord r.lease (s.record 0x08 0x0A 0 0 (s.handleOf slot) n none 0 (col % 256 * 256 + row % 256) n 0)
      .next (((t.modLease r.lease fun l => { l with errBorder := min 65535 (l.errBorder + 1) }).loseToken slot n).post 3
        (.faultEvent slot ⟨0x0A, 0, 0, n, none, 4, 0, 0⟩))
  | _ => .fault .notDue

/-! ### Controllers (R27, R28, R323) -/

/-- A child's count. -/
def countOf (l : List Nat) (k : Nat) : Nat := l.getD k 0

/-- The gate of child `k` is open (R27). -/
def gateOpen (e : CtlE) (c : CtlState) (k : Nat) : Bool :=
  let last := e.children.length - 1
  let started := countOf c.started
  let finished := countOf c.finished
  decide (started k < c.runs) &&
    (match e.mode with
     | 0 => started k == finished k && (if k = 0 then finished last == started 0 else finished (k - 1) == started k + 1)
     | 1 => started k == finished k && (k == 0 || decide (started k + 1 ≤ finished (k - 1))) &&
        (k == last || decide (started k < finished (k + 1) + e.depth))
     | _ => started k == 0)

/-- A controller is done with its runs (R27). -/
def ctlDone (e : CtlE) (c : CtlState) : Bool :=
  c.runs != 0 &&
    (if e.mode = 2 then (List.range e.children.length).all fun k => countOf c.finished k == 1
     else countOf c.finished (e.children.length - 1) == c.runs)

/-- One more on a child's count. -/
def bumpAt (l : List Nat) (k : Nat) : List Nat := l.modify k (· + 1)

/-- Every child whose gate is open is started, the lowest first (R27). -/
def State.openGates (s : State) (slot i : Nat) : List Nat → State
  | [] => s
  | k :: ks =>
    match s.rect? slot with
    | none => s
    | some r =>
      match r.image.ctls[i]?, r.ctls[i]? with
      | some e, some c =>
        if gateOpen e c k then
          ((s.setRect slot { r with ctls := r.ctls.set i { c with started := bumpAt c.started k } }).post 3
            (.ctlStartPulse slot (e.children.getD k (.leaf 0)))).openGates slot i ks
        else s.openGates slot i ks
      | _, _ => s

/-- A controller's gates tried, one for each of its children. -/
def State.tryGates (s : State) (slot i : Nat) : State :=
  s.openGates slot i (List.range (((s.rect? slot).bind fun r => r.image.ctls[i]?).elim 0 fun e => e.children.length))

/-- The controller state at a node's start (R27). -/
def CtlE.fresh (e : CtlE) (iter : Nat) : CtlState :=
  ⟨true, if e.operand then iter else e.runs, List.replicate e.children.length 0, List.replicate e.children.length 0⟩

/-- A controller node starts (R27). -/
def State.startCtl (s : State) (slot i : Nat) : State :=
  match s.rect? slot with
  | none => s
  | some r =>
    match r.image.ctls[i]? with
    | some e => (s.setRect slot { r with ctls := r.ctls.set i (e.fresh r.iter) }).tryGates slot i
    | none => s

/-! ### Leaves (R30, R215, R317, R322) -/

/-- The leaf of a node; control nodes belong to none. -/
def Image.leafOf (im : Image) (node : Nat) : Option Nat :=
  (im.nodes[node]?).bind fun n => if n.kind = .ctl then none else some n.leaf

/-- The contexts of a leaf's actors. -/
def State.leafCtxs (s : State) (slot n : Nat) : List (CtxId × Ctx) :=
  match s.rect? slot with
  | none => []
  | some r => s.ctxs.filter fun p => p.1.slot == slot && r.image.leafOf p.2.node == some n

/-- The memory nodes of a leaf, by index. -/
def State.leafNodes (s : State) (slot n : Nat) : List (Nat × MemNode) :=
  match s.rect? slot with
  | none => []
  | some r => (s.nodesOf slot).filter fun p => r.image.leafOf p.2.node == some n

/-- The edges of a leaf. -/
def State.leafEdges (s : State) (slot n : Nat) : List (Nat × Edge) :=
  match s.rect? slot with
  | none => []
  | some r => (s.edgesOf slot).filter fun p => r.image.leafOf p.2.src == some n

/-- A matrix node's input at the start of a run: the end-of-stream token of the run before leaves it (R322). -/
def State.drainEos (s : State) (slot : Nat) (p : Nat × Edge) : State :=
  match s.rect? slot with
  | none => s
  | some r =>
    if ((r.image.nodes[p.2.dst]?).any fun n => n.kind == .mat) && p.2.headTok == some .eos then s.takeHead slot p.1 p.2 else s

/-- A context as its leaf starts (R30, R215). -/
def Ctx.startLeaf (x : Ctx) (source : Bool) : Ctx := { x with ended := false, sourceDue := source }

/-- A leaf starts a run: its tasks may run, its memory nodes go on to their next run, the end-of-stream bits of its outputs
clear (R28, R30, R78, R215, R317). -/
def State.startLeaf (s : State) (slot n : Nat) : State :=
  let t := s.modRect slot fun r => { r with leaves := r.leaves.modify n fun l => ⟨l.runs + 1, true, false⟩ }
  let u := (s.leafCtxs slot n).foldl (fun v p => v.modCtx p.1 fun x => x.startLeaf (s.ins slot p.2.node).isEmpty) t
  let w := (s.leafEdges slot n).foldl (fun v p => (v.setEdge slot p.1 { p.2 with eosOut := false }).drainEos slot p) u
  (s.leafNodes slot n).foldl (fun v p => v.nextRun slot p.1) w

/-- The control node of a controller (R323). -/
def State.ctlNode (s : State) (slot i : Nat) : Nat := ((s.rect? slot).bind fun r => r.image.ctls[i]?).elim 0 CtlE.node

/-- CTL_START_PULSE (R28): the child starts; the pulse wakes the cells that it reaches (R261). -/
def execCtlStartPulse (s : State) : Host.Outcome State Fault Refusal :=
  match s.net.hand with
  | some (.ctlStartPulse slot (.leaf n)) =>
    .next ((s.leafCtxs slot n).foldl (fun t p => t.wakeNode slot p.2.node) (s.startLeaf slot n))
  | some (.ctlStartPulse slot (.ctl i)) => .next ((s.startCtl slot i).wakePlace slot (s.ctlNode slot i))
  | _ => .fault .notDue

/-- A node's every STREAMING sink has ended its run, and every matrix input has its end-of-stream token (R322). -/
def State.sinksReached (s : State) (slot n : Nat) (r : Rect) : Bool :=
  ((s.leafNodes slot n).all fun p => !p.2.sink || p.2.spent) &&
    (s.leafEdges slot n).all fun p =>
      !((r.image.nodes[p.2.dst]?).any fun m => m.kind == .mat) || p.2.buf.any BufTok.isEos

/-- A leaf is done (R322). -/
def State.leafDone (s : State) (slot n : Nat) : Bool :=
  match s.rect? slot with
  | none => false
  | some r =>
    (r.leaves[n]?).any LeafState.active && s.sinksReached slot n r &&
      (s.leafCtxs slot n).all fun p => p.2.ended && p.2.eosOwed.isEmpty

/-- The parent of a child in the tree of controllers, and its number there. -/
def Image.parentOf (im : Image) (c : Child) : Option (Nat × Nat) :=
  ((List.range im.ctls.length).filterMap fun i =>
    (im.ctls[i]?).bind fun e => (e.children.findIdx? fun d => d == c).map fun k => (i, k)).head?

/-- No controller starts this one again under the rectangle's start (R234). -/
def Rect.finalRun (r : Rect) : Nat → Nat → Bool
  | 0, _ => true
  | n + 1, i =>
    match r.image.parentOf (.ctl i) with
    | none => true
    | some (p, k) =>
      match r.image.ctls[p]?, r.ctls[p]? with
      | some e, some c => decide (countOf c.started k = (if e.mode = 2 then 1 else c.runs)) && r.finalRun n p
      | _, _ => true

/-- The leaves among a controller's children. -/
def CtlE.leafKids (e : CtlE) : List Nat :=
  e.children.filterMap fun c => match c with
    | .leaf n => some n
    | .ctl _ => none

/-- The memory nodes of a controller's leaves learn that their last run is over (R234). -/
def State.endLeaves (s : State) (slot : Nat) (e : CtlE) : State :=
  e.leafKids.foldl (fun t n => (t.leafNodes slot n).foldl (fun u p => u.lastRun slot p.1) t) s

/-- A controller that is done signals its parent; the root's end ends the run (R27, R28). -/
def State.afterDone (s : State) (slot i : Nat) : State :=
  match s.rect? slot with
  | none => s
  | some r =>
    match r.image.ctls[i]?, r.ctls[i]? with
    | some e, some c =>
      if ctlDone e c && c.active then
        let t := s.setRect slot { r with ctls := r.ctls.set i { c with active := false } }
        let u := if r.finalRun 16 i then t.endLeaves slot e else t
        match r.image.parentOf (.ctl i) with
        | some (p, k) => u.post 3 (.ctlDonePulse slot p k)
        | none => u
      else s
    | _, _ => s

/-- A done pulse of child `k` (R27): its count rises, gates open, and the node may be done. -/
def State.childDone (s : State) (slot i k : Nat) : State :=
  ((s.modRect slot fun r => { r with ctls := r.ctls.modify i fun c => { c with finished := bumpAt c.finished k } }).tryGates slot
    i).afterDone slot i

/-- A leaf no longer runs. -/
def Rect.stopLeaf (r : Rect) (n : Nat) : Rect := { r with leaves := r.leaves.modify n fun l => { l with active := false, pulsed := false } }

/-- CTL_DONE_PULSE (R27, R28, R322): a child's done pulse reaches its controller, and wakes the cell of the control node (R261). -/
def execCtlDonePulse (s : State) : Host.Outcome State Fault Refusal :=
  match s.net.hand with
  | some (.ctlDonePulse slot i k) =>
    match ((s.rect? slot).bind fun r => r.image.ctls[i]?).bind fun e => e.children[k]? with
    | none => .fault .noUnit
    | some (.ctl _) => .next ((s.childDone slot i k).wakePlace slot (s.ctlNode slot i))
    | some (.leaf n) =>
      if (s.rect? slot).any fun r => (r.leaves[n]?).any LeafState.pulsed then
        .next (((s.modRect slot fun r => r.stopLeaf n).childDone slot i k).wakePlace slot (s.ctlNode slot i))
      else .fault .notDue
  | _ => .fault .notDue

/-! ### Starts (R20, R27, R234, R248, R292, R346) -/

/-- A binding entry of a launch applied as a C.BIND (R234, R248): a node whose stream has not ended keeps it. -/
def State.applyBind (s : State) (slot : Nat) (b : BindEntry) : State :=
  match s.node? slot b.index with
  | some n =>
    match n.binding with
    | some old => if n.spent then (s.endBinding slot b.index n old).bindNode slot b.index b.g b.tokens none else s
    | none => s.bindNode slot b.index b.g b.tokens none
  | none => s

/-- Every memory node of a slot is bound. -/
def State.allBound (s : State) (slot : Nat) : Bool := (s.nodesOf slot).all fun p => p.2.binding.isSome

/-- A controller whose binding operand is 0 (R323). -/
def Rect.zeroOperand (r : Rect) : Bool := r.iter == 0 && r.image.ctls.any CtlE.operand

/-- The item at a start: a retained rectangle's run has its own deadline, and one that was demoted is tested again by R342
alone (R341, R346). -/
def State.startItem (s : State) (r : Rect) : Item :=
  let i := r.item
  if r.retain then
    let pass := i.demoted && s.passes r.lease (r.demand s.dtime)
    { i with deadline := s.dtime + i.period / 4, demoted := i.demoted && !pass }
  else i

/-- The dies that a slot's cells stand on. -/
def State.diesOf (s : State) (slot : Nat) : List Nat :=
  ((s.cells.filter fun p => p.1.slot == slot).map fun p => s.dieOf p.1).eraseDups

/-- The implicit acquire of a rectangle that starts (R44, R292). -/
def State.acquireAt (s : State) (slot lease : Nat) : State :=
  (s.diesOf slot).foldl (fun t d => t.dropCopies lease d fun _ => true) s

/-- What starts first: the root controller, or the one leaf (R322, R323). -/
def Rect.rootChild (r : Rect) : Child :=
  match r.image.root with
  | some i => .ctl i
  | none => .leaf 0

/-- A rectangle as it starts a run. -/
def Rect.started (r : Rect) (item : Item) : Rect :=
  { r with state := .running, item := item, count := 0, overran := false, overdue := false, outcome := none, completing := 0,
           ctls := r.image.ctls.map fun _ => ⟨false, 0, [], []⟩, leaves := List.replicate r.image.nleaf ⟨0, false, false⟩ }

/-- An ARMED rectangle starts (R20): the root is started. A controller operand of 0 makes the start a kill (R323). -/
def State.startRect (s : State) (slot : Nat) : State :=
  match s.rect? slot with
  | none => s
  | some r =>
    if r.zeroOperand then s.killRect slot 0
    else
      ((s.setRect slot (r.started (s.startItem r))).acquireAt slot r.lease).post 3 (.ctlStartPulse slot r.rootChild)

/-- Bindings of a launch applied; the rectangle starts when every memory node is bound (R20, R234). -/
def State.applyStart (s : State) (slot : Nat) (bs : List BindEntry) : State :=
  let t := bs.foldl (fun u b => u.applyBind slot b) s
  if t.allBound slot then t.startRect slot else t

/-! ### Completion (R20, R22, R50, R302, R373) -/

/-- The root of a rectangle's control is done: its one leaf, or its root controller (R322, R323). -/
def State.rootDone (s : State) (slot : Nat) (r : Rect) : Bool :=
  match r.image.root with
  | none => s.leafDone slot 0
  | some i =>
    match r.image.ctls[i]?, r.ctls[i]? with
    | some e, some c => !c.active && ctlDone e c
    | _, _ => false

/-- A rectangle completes: the last end-of-stream token has reached its sink (R50). -/
def State.sinksDue (s : State) (slot : Nat) : Bool :=
  match s.rect? slot with
  | some r => r.state == .running && r.collector.isNone && r.completing == 0 && s.rootDone slot r
  | none => false

/-- RECT_SINKS_DONE (R50): the completion begins, and every memory node has had its last run (R234). -/
def execRectSinksDone (s : State) : Host.Outcome State Fault Refusal :=
  match s.net.hand with
  | some (.rectSinksDone slot) =>
    if s.sinksDue slot then
      let t := s.modRect slot fun r => { r.stopLeaf 0 with completing := 1 }
      .next ((s.nodesOf slot).foldl (fun u p => u.lastRun slot p.1) t)
    else .fault .notDue
  | _ => .fault .notDue

/-- Every write of the rectangle's engines is acknowledged (R50). -/
def State.writesDone (s : State) (slot : Nat) : Bool :=
  ((s.allCtxs slot).all fun p => p.2.tags.isEmpty) &&
    (s.nodesOf slot).all fun p => p.2.kind != 2 || p.2.tags.all fun t => t.val.isSome

/-- The completion signal may be written: no cut and no freeze has come first (R21, R50). -/
def State.signalDue (s : State) (slot : Nat) : Bool :=
  match s.rect? slot with
  | some r => r.state == .running && r.collector.isNone && r.completing != 0 && s.writesDone slot
  | none => false

/-- The streams of a retained rectangle's run that have ended are unbound (R234). -/
def State.endStreams (s : State) (slot : Nat) : State :=
  (s.nodesOf slot).foldl (fun t p =>
    match p.2.binding with
    | some b => if p.2.spent then t.endBinding slot p.1 p.2 b else t
    | none => t) s

/-- A cut request that was deferred comes again (R20, R21). -/
def State.takeDeferred (s : State) (slot : Nat) : State :=
  match (s.rect? slot).bind Rect.cutDeferred with
  | some why => (s.modRect slot fun q => { q with cutDeferred := none }).post 3 (.cutRequest slot why)
  | none => s

/-- The completion transition (R20, R22); a cut that came with the completion is taken after it (R21). -/
def State.finish (s : State) (slot : Nat) (r : Rect) : State :=
  if r.retain then
    ((s.modRect slot fun q => { q with state := .armed, completing := 0, stAddr := 0 }).endStreams slot).takeDeferred slot
  else ((s.report slot ⟨.done, 0, 0xFFFF⟩).toEmpty slot).tellParent r.parent

/-- The status word DONE and then the signal, each if the rectangle has one, written by the director in the anchor cell (R24, R50); while
a page is absent it waits. A word that has waited for the page of this one is written before it (R373). -/
def State.signalWith (s0 : State) (slot : Nat) (r : Rect) (sig : State → State) (wait : Nat → State) : State :=
  let s := if r.stAddr = 0 then s0 else s0.flushAll r.lease
  let h := s.handleOf slot
  let fin := fun (t : State) => (sig t).finish slot r
  if r.stAddr = 0 then fin s
  else if s.statusWaits r.lease r.stAddr then wait r.stAddr
  else
    match s.engineLoc none r.lease r.stAddr true with
    | .found l => fin (s.homeWrite (some (dieAt r.col0 r.row0)) l (leBytes 8 (statusWord h 0 0 0 0).toNat))
    | .absent => wait r.stAddr
    | .refused cause sub _ => fin (s.statusError r.lease r.stAddr h cause sub)

/-- The director writes the status word and the signal, the signal as an agent of the lease (R50, R286, R373, R420): a signal address that cannot be written freezes the
rectangle as a fault does. -/
def State.signal (s : State) (slot : Nat) (r : Rect) : State :=
  let wait := fun va => s.awaitPage r.lease va (s.pageRecord (s.handleOf slot) 0xFFFF none va true false) (.completionSignalWrite slot)
  if r.sigAddr = 0 then s.signalWith slot r id wait
  else
    match s.engineLoc none r.lease r.sigAddr true with
    | .found l => s.signalWith slot r (fun t =>
        (t.touch ⟨r.lease, s.handleOf slot⟩ l true).homeWrite (some (dieAt r.col0 r.row0)) l (leBytes 8 r.sigVal.toNat)) wait
    | .absent => wait r.sigAddr
    | .refused cause sub detail =>
      s.startFreeze slot r ⟨cause, sub, BitVec.ofNat 64 r.sigAddr, 0xFFFF, none, 0, 0, detail⟩

/-- COMPLETION_SIGNAL_WRITE (R50, R373). -/
def execCompletionSignalWrite (s : State) : Host.Outcome State Fault Refusal :=
  match s.net.hand with
  | some (.completionSignalWrite slot) =>
    match s.rect? slot with
    | some r => if s.signalDue slot then .next (s.signal slot r) else .fault .notDue
    | none => .fault .noUnit
  | _ => .fault .notDue

/-! ### Overrun of a rectangle (R345, R346) -/

/-- A leaf is in its last run under the rectangle's start, or past it (R234). -/
def Rect.leafLast (r : Rect) (n : Nat) : Bool :=
  match r.image.parentOf (.leaf n) with
  | none => true
  | some (p, k) =>
    match r.image.ctls[p]?, r.ctls[p]? with
    | some e, some c => decide (countOf c.started k = (if e.mode = 2 then 1 else c.runs)) && r.finalRun 16 p
    | _, _ => true

/-- A leaf's start pulse is on its way. -/
def State.leafStarting (s : State) (slot n : Nat) : Bool := s.net.agenda.any fun f => f.ev == .ctlStartPulse slot (.leaf n)

/-- A leaf has a STREAMING sink or a matrix input (R322). -/
def State.leafHasSink (s : State) (slot n : Nat) (r : Rect) : Bool :=
  ((s.leafNodes slot n).any fun p => p.2.sink) ||
    (s.leafEdges slot n).any fun p => (r.image.nodes[p.2.dst]?).any fun m => m.kind == .mat

/-- The last end-of-stream token of the rectangle's run has reached its sink; a leaf without a sink has to be done (R345, R322). -/
def State.sinksOver (s : State) (slot : Nat) (r : Rect) : Bool :=
  (List.range r.image.nleaf).all fun n =>
    r.leafLast n && !s.leafStarting slot n && (!((r.leaves[n]?).any LeafState.active) || (s.leafHasSink slot n r && s.sinksReached slot n r) || s.leafDone slot n)

/-- A rectangle's OVERRUN falls due with a count (R345): a cycle in which the count exceeds the budget ends, and the last end-of-stream
token has not reached its sink in it. -/
def State.fallsDue (s : State) (slot : Nat) (r : Rect) (count : Nat) : Bool :=
  r.state == .running && r.collector.isNone && r.completing == 0 && decide (r.item.budget + 1 < count) && !s.sinksOver slot r

/-- A rectangle's OVERRUN that has fallen due reaches its director (R345). -/
def State.rectOverrunDue (s : State) (slot : Nat) : Bool :=
  match s.rect? slot with
  | some r => (r.state == .running || r.state == .draining) && r.overdue && !r.overran
  | none => false

/-- RECT_OVERRUN (R345, R346). -/
def execRectOverrun (s : State) : Host.Outcome State Fault Refusal :=
  match s.net.hand with
  | some (.rectOverrun slot) =>
    match s.rect? slot with
    | some r =>
      if s.rectOverrunDue slot then
        let t := ((s.setRect slot { r with overran := true }).postRecord r.lease
          (s.overrunRecord (s.handleOf slot) 0xFFFF none r.item.budget r.count 0)).count r.lease 0x039 (s.handleOf slot) 1
        if r.item.demotePolicy then .next (t.modRect slot fun q => { q with item := { q.item with demoted := true } })
        else .next (t.killRect slot 0x03)
      else .fault .notDue
    | none => .fault .noUnit
  | _ => .fault .notDue

end Sys2Proof.Machine
end

