-- ==== Sys2Proof/Machine/ScalarFp.lean ====
section
/-! DEFINITION. Scalar floating point (R154 to R160). -/

namespace Sys2Proof.Machine

/-- The format of a width bit (R99). -/
def ffWide (wide : Bool) : FF := if wide then .f64 else .f32

/-- The operand of a format in the low bits of a register (R154, R159). -/
def fpIn (f : FF) (w : BitVec 64) : FpVal := f.decode (w.toNat % 2 ^ f.width)

/-- A rounded result in the low bits of a register, with the draw under SR and the flags raised (R154, R155). -/
def fpOut (x : Ctx) (f : FF) (mode : RMode) (p : FpVal × Flags) : Ctx × BitVec 64 :=
  let q := f.round mode (srDraw x.srseed).toNat p.1
  ((x.drawn mode).raiseFlags (p.2 ||| q.2), BitVec.ofNat 64 q.1)

/-- A rounding instruction with two sources (R156). -/
def fp3 (i : Instr) (o : OpF3) (s : State) (f : RMode → FpVal → FpVal → FpVal × Flags) : Host.Outcome State Fault Refusal :=
  issue i (.sreg o.d) s fun x => do
    let a ← x.readA o.ea o.a
    let b ← x.readB o.eb o.b
    let mode := x.rounding o.rm
    let r := fpOut x (ffWide o.wide) mode (f mode (fpIn (ffWide o.wide) a) (fpIn (ffWide o.wide) b))
    pure (s.doneS r.1 [o.a, o.b] o.d r.2)

/-- FADD (R156). -/
def execFadd (o : OpF3) (s : State) : Host.Outcome State Fault Refusal := fp3 (.fadd o) o s numAdd
/-- FSUB (R156). -/
def execFsub (o : OpF3) (s : State) : Host.Outcome State Fault Refusal :=
  fp3 (.fsub o) o s fun m a b => numAdd m a b.negate
/-- FMUL (R156). -/
def execFmul (o : OpF3) (s : State) : Host.Outcome State Fault Refusal := fp3 (.fmul o) o s fun _ a b => numMul a b
/-- FDIV (R156). -/
def execFdiv (o : OpF3) (s : State) : Host.Outcome State Fault Refusal := fp3 (.fdiv o) o s fun _ a b => numDiv a b
/-- FMA (R156): d is read under policy 0. -/
def execFma (o : OpF3) (s : State) : Host.Outcome State Fault Refusal :=
  issue (.fma o) (.sreg o.d) s fun x => do
    let a ← x.readA o.ea o.a
    let b ← x.readB o.eb o.b
    let d ← x.read .d false o.d
    let f := ffWide o.wide
    let mode := x.rounding o.rm
    let r := fpOut x f mode (numFma mode (fpIn f a) (fpIn f b) (fpIn f d))
    pure (s.doneS r.1 [o.a, o.b] o.d r.2)
/-- FSQRT (R156). -/
def execFsqrt (o : OpF2) (s : State) : Host.Outcome State Fault Refusal :=
  issue (.fsqrt o) (.sreg o.d) s fun x => do
    let a ← x.readA o.ea o.a
    let r := fpOut x (ffWide o.wide) (x.rounding o.rm) (numSqrt (fpIn (ffWide o.wide) a))
    pure (s.doneS r.1 [o.a] o.d r.2)

/-- FMIN and FMAX (R157). -/
def fpMinMax (i : Instr) (o : OpFm) (big : Bool) (s : State) : Host.Outcome State Fault Refusal :=
  issue i (.sreg o.d) s fun x => do
    let a ← x.readA o.ea o.a
    let b ← x.readB o.eb o.b
    let f := ffWide o.wide
    let r := f.minMax big (a.toNat % 2 ^ f.width) (b.toNat % 2 ^ f.width)
    pure (s.doneS (x.raiseFlags r.2) [o.a, o.b] o.d (BitVec.ofNat 64 r.1))

/-- FMIN (R157). -/
def execFmin (o : OpFm) (s : State) : Host.Outcome State Fault Refusal := fpMinMax (.fmin o) o false s
/-- FMAX (R157). -/
def execFmax (o : OpFm) (s : State) : Host.Outcome State Fault Refusal := fpMinMax (.fmax o) o true s

/-- FCMP (R158). -/
def execFcmp (o : OpFc) (s : State) : Host.Outcome State Fault Refusal :=
  issue (.fcmp o) (.sreg o.d) s fun x => do
    let a ← x.readA o.ea o.a
    let b ← x.readB o.eb o.b
    let r := numCmp o.cond (fpIn (ffWide o.wide) a) (fpIn (ffWide o.wide) b)
    pure (s.doneS (x.raiseFlags r.2) [o.a, o.b] o.d (boolWord r.1))

/-- The floating-point format of a conversion type, if it has one. -/
def CvtTy.ff? : CvtTy → Option FF
  | .s32 | .s64 | .z32 | .z64 => none
  | .f32 => some .f32
  | .f64 => some .f64
  | .bf16 => some .bf16
  | .f16 => some .f16

/-- The element type of a conversion type. -/
def CvtTy.ty : CvtTy → Ty
  | .s32 => .s32 | .s64 => .s64 | .z32 => .z32 | .z64 => .z64 | .f32 => .f32 | .f64 => .f64 | .bf16 => .bf16 | .f16 => .f16

/-- The number that a conversion source holds (R159). -/
def cvtIn (t : CvtTy) (w : BitVec 64) : FpVal :=
  match CvtTy.ff? t with
  | some f => fpIn f w
  | none => .ofInt (intOf (CvtTy.ty t) (w.toNat % 2 ^ (CvtTy.ty t).width))

/-- The conversion of a number (R159, R279): s32 results are sign-extended, all others zero-extended. -/
def cvtOut (t : CvtTy) (mode : RMode) (r : Nat) (n : FpVal) : BitVec 64 × Flags :=
  match CvtTy.ff? t with
  | some f => let q := f.round mode r n; (BitVec.ofNat 64 q.1, q.2)
  | none => let q := n.toRange (rangeOf (CvtTy.ty t)).1 (rangeOf (CvtTy.ty t)).2 mode r; (BitVec.ofInt 64 q.1, q.2)

/-- FCVT (R159). -/
def execFcvt (o : OpCvt) (s : State) : Host.Outcome State Fault Refusal :=
  issue (.fcvt o) (.sreg o.d) s fun x => do
    let a ← x.readA o.ea o.a
    let mode := x.rounding o.rm
    let r := cvtOut o.dst mode (srDraw x.srseed).toNat (cvtIn o.src a)
    pure (s.doneS ((x.drawn mode).raiseFlags r.2) [o.a] o.d r.1)

/-- FCLASS (R160). -/
def execFclass (o : OpFk) (s : State) : Host.Outcome State Fault Refusal :=
  issue (.fclass o) (.sreg o.d) s fun x => do
    let a ← x.readA o.ea o.a
    let f := ffWide o.wide
    pure (s.doneS x [o.a] o.d (BitVec.ofNat 64 (f.classify (a.toNat % 2 ^ f.width))))

end Sys2Proof.Machine
end

