-- ==== Sys2Proof/Machine/Vector.lean ====
section
/-! DEFINITION. Vector instructions (R161 to R190). -/

namespace Sys2Proof.Machine

/-! ### Operand forms (R166, R168) -/

/-- An instruction with two vector sources and a vector destination: `f` has the context, va and vb, and answers the
context with its flags and draws and the register written. -/
def vec3 (i : Instr) (vd va vb : VReg) (ea : Bool) (s : State) (f : Ctx → List Lane → List Lane → Ctx × List Lane) :
    Host.Outcome State Fault Refusal :=
  issue i (.vreg vd) s fun x => do
    let a ← x.readV .a ea va
    let b ← x.readV .b ea vb
    let r := f x a b
    pure (s.doneV r.1 [va, vb] vd r.2)

/-- As `vec3`, with vd read under policy 0. -/
def vec3d (i : Instr) (vd va vb : VReg) (ea : Bool) (s : State)
    (f : Ctx → List Lane → List Lane → List Lane → Ctx × List Lane) : Host.Outcome State Fault Refusal :=
  issue i (.vreg vd) s fun x => do
    let a ← x.readV .a ea va
    let b ← x.readV .b ea vb
    let d ← x.readV .d false vd
    let r := f x a b d
    pure (s.doneV r.1 [va, vb] vd r.2)

/-- An instruction with one vector source and a vector destination. -/
def vec2 (i : Instr) (vd va : VReg) (ea : Bool) (s : State) (f : Ctx → List Lane → Ctx × List Lane) :
    Host.Outcome State Fault Refusal :=
  issue i (.vreg vd) s fun x => do
    let a ← x.readV .a ea va
    let r := f x a
    pure (s.doneV r.1 [va] vd r.2)

/-- A scalar register named by a 5-bit vector field (R168). -/
def sOf (r : VReg) : SReg := r.setWidth 6

/-- Element `i` of a list of elements. -/
def el (es : List Nat) (i : Nat) : Nat := es.getD i 0

/-! ### Integer lanes (R170) -/

/-- A two-source integer operation, element by element. -/
def vint (i : Instr) (o : OpV3) (s : State) (f : Nat → Nat → Nat) : Host.Outcome State Fault Refusal :=
  vec3 i o.vd o.va o.vb o.ea s fun x a b =>
    let ea := elemsOf o.ty a
    let eb := elemsOf o.ty b
    (x, mapElems o.ty x.width (x.m o.m) (x.v o.vd) fun k => f (el ea k) (el eb k))

/-- A one-source operation, element by element. -/
def vint1 (i : Instr) (o : OpV2) (s : State) (f : Nat → Nat) : Host.Outcome State Fault Refusal :=
  vec2 i o.vd o.va o.ea s fun x a =>
    let ea := elemsOf o.ty a
    (x, mapElems o.ty x.width (x.m o.m) (x.v o.vd) fun k => f (el ea k))

/-- The lesser or greater of two elements of an integer type. -/
def pickInt (t : Ty) (big : Bool) (a b : Nat) : Nat :=
  if big then (if intOf t a < intOf t b then b else a) else (if intOf t b < intOf t a then b else a)

/-- VADD (R170). -/
def execVadd (o : OpV3) (s : State) : Host.Outcome State Fault Refusal :=
  vint (.vadd o) o s fun a b => wrapTo o.ty.width ((a : Int) + b)
/-- VSUB (R170). -/
def execVsub (o : OpV3) (s : State) : Host.Outcome State Fault Refusal :=
  vint (.vsub o) o s fun a b => wrapTo o.ty.width ((a : Int) - b)
/-- VMUL (R170). -/
def execVmul (o : OpV3) (s : State) : Host.Outcome State Fault Refusal :=
  vint (.vmul o) o s fun a b => wrapTo o.ty.width ((a : Int) * b)
/-- VMULH (R170): from the exact product. -/
def execVmulh (o : OpV3) (s : State) : Host.Outcome State Fault Refusal :=
  vint (.vmulh o) o s fun a b => wrapTo o.ty.width (intOf o.ty a * intOf o.ty b / ((2 ^ o.ty.width : Nat) : Int))
/-- VMAD (R170): vd is read. -/
def execVmad (o : OpV3) (s : State) : Host.Outcome State Fault Refusal :=
  vec3d (.vmad o) o.vd o.va o.vb o.ea s fun x a b d =>
    let ea := elemsOf o.ty a
    let eb := elemsOf o.ty b
    let ed := elemsOf o.ty d
    (x, mapElems o.ty x.width (x.m o.m) d fun k => wrapTo o.ty.width ((el ed k : Int) + el ea k * el eb k))
/-- VAND (R170). -/
def execVand (o : OpV3) (s : State) : Host.Outcome State Fault Refusal :=
  vint (.vand o) o s fun a b => a &&& b
/-- VOR (R170). -/
def execVor (o : OpV3) (s : State) : Host.Outcome State Fault Refusal :=
  vint (.vor o) o s fun a b => a ||| b
/-- VXOR (R170). -/
def execVxor (o : OpV3) (s : State) : Host.Outcome State Fault Refusal :=
  vint (.vxor o) o s fun a b => a ^^^ b
/-- VSHL (R170). -/
def execVshl (o : OpV3) (s : State) : Host.Outcome State Fault Refusal :=
  vint (.vshl o) o s fun a b => a <<< (b % o.ty.width) % 2 ^ o.ty.width
/-- VSHR (R170). -/
def execVshr (o : OpV3) (s : State) : Host.Outcome State Fault Refusal :=
  vint (.vshr o) o s fun a b => a >>> (b % o.ty.width)
/-- VSHA (R170): fills with the sign bit, whatever the type's signedness. -/
def execVsha (o : OpV3) (s : State) : Host.Outcome State Fault Refusal :=
  vint (.vsha o) o s fun a b =>
    let w := o.ty.width
    let v : Int := if a.testBit (w - 1) then (a : Int) - ((2 ^ w : Nat) : Int) else a
    wrapTo w (v / ((2 ^ (b % w) : Nat) : Int))
/-- VMIN (R170). -/
def execVmin (o : OpV3) (s : State) : Host.Outcome State Fault Refusal :=
  vint (.vmin o) o s fun a b => pickInt o.ty false a b
/-- VMAX (R170). -/
def execVmax (o : OpV3) (s : State) : Host.Outcome State Fault Refusal :=
  vint (.vmax o) o s fun a b => pickInt o.ty true a b
/-- VABS (R170): the magnitude, or the sign bit cleared. -/
def execVabs (o : OpV2) (s : State) : Host.Outcome State Fault Refusal :=
  vint1 (.vabs o) o s fun a =>
    let w := o.ty.width
    if o.ty.isInt then wrapTo w (intOf o.ty a).natAbs else a % 2 ^ (w - 1)
/-- VNEG (R170): the negative, or the sign bit inverted. -/
def execVneg (o : OpV2) (s : State) : Host.Outcome State Fault Refusal :=
  vint1 (.vneg o) o s fun a =>
    let w := o.ty.width
    if o.ty.isInt then wrapTo w (-(a : Int)) else a ^^^ 2 ^ (w - 1)

/-! ### Compares, selects and masks (R171 to R173) -/

/-- A destination mask: governed lanes take the result of their element, the others keep their bit (R171). -/
def maskResult (x : Ctx) (t : Ty) (m : BitVec 128) (old : BitVec 128) (f : Nat → Bool) : BitVec 128 :=
  BitVec.ofNat 128 (bitSum x.width fun l =>
    if governsLane t m l then f (if t.width = 64 then l / 2 else l) else old.getLsbD l)
where
  /-- The number with bit l set where `f l` holds, for l below `n`. -/
  bitSum (n : Nat) (f : Nat → Bool) : Nat := (List.range n).foldl (fun acc l => if f l then acc + 2 ^ l else acc) 0

/-- VCMP's condition on two elements (R171). -/
def vcond (c : VCond) (t : Ty) (a b : Nat) : Bool :=
  match c with
  | .eq => a == b
  | .ne => a != b
  | .lt => decide (intOf t a < intOf t b)
  | .ge => decide (intOf t b ≤ intOf t a)

/-- VCMP (R171). -/
def execVcmp (o : OpVCmp) (s : State) : Host.Outcome State Fault Refusal :=
  issue (.vcmp o) .none s fun x => do
    let a ← x.readV .a o.ea o.va
    let b ← x.readV .b o.ea o.vb
    let ea := elemsOf o.ty a
    let eb := elemsOf o.ty b
    let w := maskResult x o.ty (x.m o.m) (x.m o.k) fun k => vcond o.cond o.ty (el ea k) (el eb k)
    pure (s.retire ((x.useVAll [o.va, o.vb]).putM o.k w) none)

/-- VFCMP (R171): NaN results and NV as FCMP. -/
def execVfcmp (o : OpVFCmp) (s : State) : Host.Outcome State Fault Refusal :=
  issue (.vfcmp o) .none s fun x => do
    let a ← x.readV .a o.ea o.va
    let b ← x.readV .b o.ea o.vb
    let ea := elemsOf o.ty a
    let eb := elemsOf o.ty b
    let cmp := fun k => numCmp o.cond ((ffOf o.ty).decode (el ea k)) ((ffOf o.ty).decode (el eb k))
    let w := maskResult x o.ty (x.m o.m) (x.m o.k) fun k => (cmp k).1
    let fl := unionFlags o.ty (x.m o.m) (o.ty.count x.width) fun k => (cmp k).2
    pure (s.retire (((x.raiseFlags fl).useVAll [o.va, o.vb]).putM o.k w) none)

/-- Lane `l` of a register. -/
def lane (ls : List Lane) (l : Nat) : Lane := ls.getD l (.plain 0)

/-- A register built lane by lane, side-bands included, under a governing mask (R60, R163). -/
def moveLanes (t : Ty) (w : Nat) (m : BitVec 128) (old : List Lane) (f : Nat → Lane) : List Lane :=
  mergeLanes t m ((List.range w).map f) old

/-- VSEL (R172). -/
def execVsel (o : OpV3) (s : State) : Host.Outcome State Fault Refusal :=
  vec3 (.vsel o) o.vd o.va o.vb o.ea s fun x a b =>
    (x, (List.range x.width).map fun l => if governsLane o.ty (x.m o.m) l then lane a l else lane b l)

/-- A mask logic instruction over the W lanes (R173). -/
def maskOp (i : Instr) (d : BitVec 3) (s : State) (f : Ctx → BitVec 128) : Host.Outcome State Fault Refusal :=
  issue i .none s fun x => pure (s.retire (x.putM d (f x)) none)

/-- MAND (R173). -/
def execMand (o : OpM3) (s : State) : Host.Outcome State Fault Refusal := maskOp (.mand o) o.d s fun x => x.m o.a &&& x.m o.b
/-- MOR (R173). -/
def execMor (o : OpM3) (s : State) : Host.Outcome State Fault Refusal := maskOp (.mor o) o.d s fun x => x.m o.a ||| x.m o.b
/-- MXOR (R173). -/
def execMxor (o : OpM3) (s : State) : Host.Outcome State Fault Refusal := maskOp (.mxor o) o.d s fun x => x.m o.a ^^^ x.m o.b
/-- MNOT (R173). -/
def execMnot (d a : BitVec 3) (s : State) : Host.Outcome State Fault Refusal :=
  maskOp (.mnot d a) d s fun x => x.m a ^^^ x.m 0

/-- The lanes of a mask. -/
def maskBits (x : Ctx) (m : BitVec 128) : List Bool := (List.range x.width).map fun l => m.getLsbD l

/-- MPOP (R173). -/
def execMpop (d : VReg) (a : BitVec 3) (s : State) : Host.Outcome State Fault Refusal :=
  issue (.mpop d a) (.sreg (sOf d)) s fun x =>
    pure (s.doneS x [] (sOf d) (BitVec.ofNat 64 ((maskBits x (x.m a)).countP id)))

/-- MFIRST (R173): W where no bit is set. -/
def execMfirst (d : VReg) (a : BitVec 3) (s : State) : Host.Outcome State Fault Refusal :=
  issue (.mfirst d a) (.sreg (sOf d)) s fun x =>
    pure (s.doneS x [] (sOf d) (BitVec.ofNat 64 ((maskBits x (x.m a)).findIdx id)))

/-- VWIDTH (R190). -/
def execVwidth (d : VReg) (ea : Bool) (s : State) : Host.Outcome State Fault Refusal :=
  issue (.vwidth d ea) (.sreg (sOf d)) s fun x => pure (s.doneS x [] (sOf d) (BitVec.ofNat 64 x.width))

/-! ### Floating-point lanes (R167, R174 to R176) -/

/-- Floating-point elements computed by `f`, rounded under `mode`, with one draw per element position under SR where `draw`
holds, and the flags of the governed ones (R167). -/
def vecFp (x : Ctx) (t : Ty) (m : BitVec 128) (old : List Lane) (mode : RMode) (draw : Bool) (f : Nat → FpVal × Flags) :
    Ctx × List Lane :=
  let n := t.count x.width
  let mode' := if draw then mode else .rne
  let ds := x.draws mode' n
  let rs := (List.range n).map fun k =>
    let p := f k
    let q := (ffOf t).round mode' (ds.getD k 0) p.1
    (q.1, p.2 ||| q.2)
  let fl := unionFlags t m n fun k => (rs.getD k (0, 0)).2
  ((x.afterDraws mode' n).raiseFlags fl, mergeLanes t m (lanesOf t x.width (rs.map Prod.fst)) old)

/-- A rounding operation with two sources. -/
def vfp3 (i : Instr) (o : OpV3) (s : State) (f : RMode → FpVal → FpVal → FpVal × Flags) : Host.Outcome State Fault Refusal :=
  vec3 i o.vd o.va o.vb o.ea s fun x a b =>
    let ea := elemsOf o.ty a
    let eb := elemsOf o.ty b
    let g := ffOf o.ty
    vecFp x o.ty (x.m o.m) (x.v o.vd) x.rm true fun k => f x.rm (g.decode (el ea k)) (g.decode (el eb k))

/-- A rounding operation with two sources and vd. -/
def vfp3d (i : Instr) (o : OpV3) (s : State) (f : RMode → FpVal → FpVal → FpVal → FpVal × Flags) :
    Host.Outcome State Fault Refusal :=
  vec3d i o.vd o.va o.vb o.ea s fun x a b d =>
    let ea := elemsOf o.ty a
    let eb := elemsOf o.ty b
    let ed := elemsOf o.ty d
    let g := ffOf o.ty
    vecFp x o.ty (x.m o.m) d x.rm true fun k => f x.rm (g.decode (el ea k)) (g.decode (el eb k)) (g.decode (el ed k))

/-- VFADD (R174). -/
def execVfadd (o : OpV3) (s : State) : Host.Outcome State Fault Refusal := vfp3 (.vfadd o) o s numAdd
/-- VFSUB (R174). -/
def execVfsub (o : OpV3) (s : State) : Host.Outcome State Fault Refusal := vfp3 (.vfsub o) o s fun m a b => numAdd m a b.negate
/-- VFMUL (R174). -/
def execVfmul (o : OpV3) (s : State) : Host.Outcome State Fault Refusal := vfp3 (.vfmul o) o s fun _ a b => numMul a b
/-- VFMA (R174). -/
def execVfma (o : OpV3) (s : State) : Host.Outcome State Fault Refusal := vfp3d (.vfma o) o s numFma
/-- VFMS (R174). -/
def execVfms (o : OpV3) (s : State) : Host.Outcome State Fault Refusal := vfp3d (.vfms o) o s fun m a b d => numFma m a b d.negate
/-- VFNMA (R174). -/
def execVfnma (o : OpV3) (s : State) : Host.Outcome State Fault Refusal := vfp3d (.vfnma o) o s fun m a b d => numFma m a.negate b d
/-- VFDIV (R174). -/
def execVfdiv (o : OpV3) (s : State) : Host.Outcome State Fault Refusal := vfp3 (.vfdiv o) o s fun _ a b => numDiv a b
/-- VFSQRT (R174). -/
def execVfsqrt (o : OpV2) (s : State) : Host.Outcome State Fault Refusal :=
  vec2 (.vfsqrt o) o.vd o.va o.ea s fun x a =>
    let ea := elemsOf o.ty a
    vecFp x o.ty (x.m o.m) (x.v o.vd) x.rm true fun k => numSqrt ((ffOf o.ty).decode (el ea k))

/-- A function of R175: its FP32 value is rounded under RNE; a .bf16 or .f16 result is that value rounded under FSTAT.RM. -/
def vfun (i : Instr) (o : OpV2) (s : State) (f : FpVal → FpVal × Flags) : Host.Outcome State Fault Refusal :=
  vec2 i o.vd o.va o.ea s fun x a =>
    let ea := elemsOf o.ty a
    vecFp x o.ty (x.m o.m) (x.v o.vd) x.rm (o.ty != .f32) fun k =>
      let p := f ((ffOf o.ty).decode (el ea k))
      let q := FF.f32.round .rne 0 p.1
      (FF.f32.decode q.1, p.2 ||| q.2)

/-- VFRCP (R175). -/
def execVfrcp (o : OpV2) (s : State) : Host.Outcome State Fault Refusal := vfun (.vfrcp o) o s numRcp
/-- VFRSQ (R175). -/
def execVfrsq (o : OpV2) (s : State) : Host.Outcome State Fault Refusal := vfun (.vfrsq o) o s numRsq
/-- VFEXP2 (R175). -/
def execVfexp2 (o : OpV2) (s : State) : Host.Outcome State Fault Refusal := vfun (.vfexp2 o) o s numExp2
/-- VFLOG2 (R175). -/
def execVflog2 (o : OpV2) (s : State) : Host.Outcome State Fault Refusal := vfun (.vflog2 o) o s numLog2

/-- VFMIN and VFMAX (R174). -/
def vfMinMax (i : Instr) (o : OpV3) (big : Bool) (s : State) : Host.Outcome State Fault Refusal :=
  vec3 i o.vd o.va o.vb o.ea s fun x a b =>
    let ea := elemsOf o.ty a
    let eb := elemsOf o.ty b
    let r := fun k => (ffOf o.ty).minMax big (el ea k) (el eb k)
    (x.raiseFlags (unionFlags o.ty (x.m o.m) (o.ty.count x.width) fun k => (r k).2),
      mapElems o.ty x.width (x.m o.m) (x.v o.vd) fun k => (r k).1)

/-- VFMIN (R174). -/
def execVfmin (o : OpV3) (s : State) : Host.Outcome State Fault Refusal := vfMinMax (.vfmin o) o false s
/-- VFMAX (R174). -/
def execVfmax (o : OpV3) (s : State) : Host.Outcome State Fault Refusal := vfMinMax (.vfmax o) o true s

/-- VFCLASS (R176). -/
def execVfclass (o : OpV2) (s : State) : Host.Outcome State Fault Refusal :=
  vint1 (.vfclass o) o s fun a => (ffOf o.ty).classify a

/-! ### Conversion (R177 to R180) -/

/-- The number that an element of a type holds. -/
def numOf (t : Ty) (v : Nat) : FpVal := if t.isInt then .ofInt (intOf t v) else (ffOf t).decode v

/-- One element converted (R178): to E2M1, no result underflows. -/
def cvtElem (d s : Ty) (mode : RMode) (r : Nat) (v : Nat) : Nat × Flags :=
  if d.isInt then
    if s.isInt then (wrapTo d.width (satInt (rangeOf d).1 (rangeOf d).2 (intOf s v)), 0)
    else
      let q := (numOf s v).toRange (rangeOf d).1 (rangeOf d).2 mode r
      (wrapTo d.width q.1, q.2)
  else
    let q := (ffOf d).round mode r (numOf s v)
    (q.1, if d = .e2m1 then q.2 &&& (flagNV ||| flagOF ||| flagNX) else q.2)

/-- VCVT (R177, R178): elements past the converted ones are written zero. -/
def execVcvt (o : OpVCvt) (s : State) : Host.Outcome State Fault Refusal :=
  vec2 (.vcvt o) o.vd o.va o.ea s fun x a =>
    let es := elemsOf o.src a
    let nd := o.dst.count x.width
    let n := min nd (o.src.count x.width)
    let mode := if o.dst.isInt && o.src.isInt then .rne else x.rm
    let ds := x.draws mode nd
    let rs := (List.range nd).map fun k => if k < n then cvtElem o.dst o.src mode (ds.getD k 0) (el es k) else (0, 0)
    let fl := unionFlags o.dst (x.m o.m) nd fun k => (rs.getD k (0, 0)).2
    ((x.afterDraws mode nd).raiseFlags fl,
      mergeLanes o.dst (x.m o.m) (lanesOf o.dst x.width (rs.map Prod.fst)) (x.v o.vd))

/-- The magnitude of a finite number is at most `6 * (u / 128) * g`, for a finite positive g (R179). -/
def fitsScale (u : Nat) (g x : FpVal) : Bool :=
  match g, x with
  | .fin _ mg eg _, .fin _ mx ex _ =>
    let e := min (eg - 7) ex
    decide (mx <<< (ex - e).toNat ≤ (6 * u * mg) <<< (eg - 7 - e).toNat)
  | _, _ => false

/-- The least block-scale code that every element fits, or 0xFE where none does (R179). -/
def blockScale (g : FpVal) (xs : List FpVal) : Nat :=
  ((List.range 255).find? fun c => xs.all fun x => fitsScale (e3m5Units c) g x).getD 0xFE

/-- A finite number above zero. -/
def FpVal.positive : FpVal → Bool
  | .fin neg m _ _ => !neg && m != 0
  | .nan _ | .inf _ => false

/-- A finite number. -/
def FpVal.finite : FpVal → Bool
  | .fin _ _ _ _ => true
  | .nan _ | .inf _ => false

/-- One block quantised: its lane and its flags (R179). `ds` are its eight draws. -/
def quantBlock (band : BitVec 16) (xs : List FpVal) (mode : RMode) (ds : List Nat) : Lane × Flags :=
  let g := FF.bf16.decode band.toNat
  if !g.positive || !xs.all FpVal.finite then (⟨0, 0xFF, band⟩, flagNV)
  else if xs.all FpVal.isZero then
    (⟨BitVec.ofNat 32 (packElems 4 (xs.map fun x => if x.neg? then 8 else 0)), 0, band⟩, 0)
  else
    let c := blockScale g xs
    let scale := (numMul g (e3m5 (BitVec.ofNat 8 c))).1
    let qs := xs.zipIdx.map fun p => FF.e2m1.round mode (ds.getD p.2 0) (numDiv p.1 scale).1
    (⟨BitVec.ofNat 32 (packElems 4 (qs.map Prod.fst)), BitVec.ofNat 8 c, band⟩,
      (qs.foldl (fun acc q => acc ||| q.2) 0) &&& (flagOF ||| flagNX))

/-- VQUANT (R179): vd is read under policy 0; lanes past the blocks formed are written zero. -/
def execVquant (o : OpVCvt) (s : State) : Host.Outcome State Fault Refusal :=
  issue (.vquant o) (.vreg o.vd) s fun x => do
    let a ← x.readV .a o.ea o.va
    let d ← x.readV .d false o.vd
    let es := (elemsOf o.src a).map (numOf o.src)
    let nb := o.src.count x.width / 8
    let ds := x.draws x.rm (8 * x.width)
    let rs := (List.range x.width).map fun j =>
      if j < nb then quantBlock (lane d j).band ((es.drop (8 * j)).take 8) x.rm ((ds.drop (8 * j)).take 8)
      else (⟨0, 0, (lane d j).band⟩, 0)
    let fl := unionFlags .f32 (x.m o.m) x.width fun j => (rs.getD j (.plain 0, 0)).2
    pure (s.doneV ((x.afterDraws x.rm (8 * x.width)).raiseFlags fl) [o.va] o.vd
      (mergeLanes .f32 (x.m o.m) (rs.map Prod.fst) d))

/-- The value of element `t` of a block (R180, R267). -/
def blockElem (l : Lane) (t : Nat) : FpVal × Flags :=
  if l.blk = 0xFF then (.nan false, 0)
  else numMul (numMul (FF.e2m1.decode (l.data.toNat / 16 ^ t % 16)) (e3m5 l.blk)).1 (FF.bf16.decode l.band.toNat)

/-- VDEQ (R180). -/
def execVdeq (o : OpVCvt) (s : State) : Host.Outcome State Fault Refusal :=
  vec2 (.vdeq o) o.vd o.va o.ea s fun x a =>
    vecFp x o.dst (x.m o.m) (x.v o.vd) x.rm true fun k => blockElem (lane a (k / 8)) (k % 8)

/-! ### Dot products (R181, R182) -/

/-- The exact sum of numbers, from the first on, with the flags of infinities and NaNs. -/
def numSum (mode : RMode) (acc : FpVal × Flags) (ps : List (FpVal × Flags)) : FpVal × Flags :=
  ps.foldl (fun a p => let q := numAdd mode a.1 p.1; (q.1, a.2 ||| p.2 ||| q.2)) acc

/-- The exact sum of a nonempty list; zero for an empty one. -/
def numTotal (mode : RMode) (ps : List (FpVal × Flags)) : FpVal × Flags :=
  match ps with
  | [] => (.zero false, 0)
  | p :: t => numSum mode p t

/-- VDOT (R181). -/
def execVdot (o : OpV3) (s : State) : Host.Outcome State Fault Refusal :=
  vec3d (.vdot o) o.vd o.va o.vb o.ea s fun x a b d =>
    let pairs := fun l => List.zip (laneElems o.ty.width (lane a l).data) (laneElems o.ty.width (lane b l).data)
    if o.ty.isInt then
      (x, mapElems .z32 x.width (x.m o.m) d fun l =>
        wrapTo 32 ((pairs l).foldl (fun acc p => acc + intOf o.ty p.1 * intOf o.ty p.2) ((lane d l).data.toNat : Int)))
    else
      vecFp x .f32 (x.m o.m) d x.rm true fun l =>
        let g := ffOf o.ty
        let sum := numTotal x.rm ((pairs l).map fun p => numMul (g.decode p.1) (g.decode p.2))
        let r := numAdd x.rm (FF.f32.decode (lane d l).data.toNat) sum.1
        (r.1, sum.2 ||| r.2)

/-- The contribution of one pair of blocks (R182, R280): P times the exact product of the block scales. -/
def blockDot (a b : Lane) : FpVal :=
  if a.blk = 0xFF || b.blk = 0xFF then .nan false
  else
    let ps := (List.zip (laneElems 4 a.data) (laneElems 4 b.data)).map fun p =>
      numMul (FF.e2m1.decode p.1) (FF.e2m1.decode p.2)
    (numMul (numTotal .rne ps).1 (numMul (e3m5 a.blk) (e3m5 b.blk)).1).1

/-- One accumulation into an FP32 code with one RNE rounding (R182, R280). -/
def accStep (acc : Nat × Flags) (c : FpVal) : Nat × Flags :=
  let p := numAdd .rne (FF.f32.decode acc.1) c
  let q := FF.f32.round .rne 0 p.1
  (q.1, acc.2 ||| p.2 ||| q.2)

/-- VBDOT (R182): ascending lanes, one RNE rounding for each block. -/
def execVbdot (o : OpV3) (s : State) : Host.Outcome State Fault Refusal :=
  vec3d (.vbdot o) o.vd o.va o.vb o.ea s fun x a b d =>
    let cs := (List.range x.width).filterMap fun j =>
      if (x.m o.m).getLsbD j then some (blockDot (lane a j) (lane b j)) else none
    let r := fun l => cs.foldl accStep ((lane d l).data.toNat, 0)
    (x.raiseFlags (unionFlags .f32 (x.m o.m) x.width fun l => (r l).2),
      mapElems .f32 x.width (x.m o.m) d fun l => (r l).1)

/-! ### Reductions and scans (R183 to R185) -/

/-- The format of a floating-point reduction (R183). -/
def redFormat (t : Ty) : FF := if t = .f64 then .f64 else .f32

/-- A rounded addition of a reduction: the generator's state and the flags go along (R167, R184). -/
def redAdd (f : FF) (mode : RMode) (st : BitVec 32 × Flags) (a b : Nat) : Nat × (BitVec 32 × Flags) :=
  let gen := if mode = .sr then srDraw st.1 else st.1
  let p := numAdd mode (f.decode a) (f.decode b)
  let q := f.round mode gen.toNat p.1
  (q.1, gen, st.2 ||| p.2 ||| q.2)

/-- A chain of additions in order, from a first value on. -/
def redChain (f : FF) (mode : RMode) : List Nat → Nat × (BitVec 32 × Flags) → Nat × (BitVec 32 × Flags)
  | [], r => r
  | e :: t, r => redChain f mode t (redAdd f mode r.2 r.1 e)

/-- One level of the pairwise tree: an element without a partner passes up (R184). -/
def redLevel (f : FF) (mode : RMode) : List (Option Nat) → BitVec 32 × Flags → List (Option Nat) × (BitVec 32 × Flags)
  | some a :: some b :: t, st =>
    let r := redAdd f mode st a b
    let u := redLevel f mode t r.2
    (some r.1 :: u.1, u.2)
  | some a :: none :: t, st => let u := redLevel f mode t st; (some a :: u.1, u.2)
  | none :: y :: t, st => let u := redLevel f mode t st; (y :: u.1, u.2)
  | [y], st => ([y], st)
  | [], st => ([], st)

/-- The tree of one member cell, `n` levels (R184). -/
def redTree (f : FF) (mode : RMode) : Nat → List (Option Nat) → BitVec 32 × Flags → List (Option Nat) × (BitVec 32 × Flags)
  | 0, es, st => (es, st)
  | n + 1, es, st => let u := redLevel f mode es st; redTree f mode n u.1 u.2

/-- The partial sums of the members, lead first (R184). -/
def redMembers (f : FF) (mode : RMode) (per : Nat) : Nat → List (Option Nat) → BitVec 32 × Flags → List Nat × (BitVec 32 × Flags)
  | 0, _, st => ([], st)
  | n + 1, es, st =>
    let u := redTree f mode 4 (es.take per) st
    let v := redMembers f mode per n (es.drop per) u.2
    ((u.1.filterMap id) ++ v.1, v.2)

/-- A list in an order that a number picks: the order in which the members' partial sums reach the lead (R184). -/
def shuffle {α : Type} : Nat → Nat → List α → List α
  | 0, _, l => l
  | n + 1, k, l =>
    match l[k % l.length]? with
    | some e => e :: shuffle n (k / l.length) (l.eraseIdx (k % l.length))
    | none => l

/-- Governed elements of a list, in ascending order. -/
def governed {α : Type} (t : Ty) (m : BitVec 128) (es : List α) : List α :=
  es.zipIdx.filterMap fun p => if governs t m p.2 then some p.1 else none

/-- An element as a code of the reduction's format; a signalling NaN sets NV (R183). -/
def redIn (t : Ty) (v : Nat) : Nat × Flags := (redFormat t).round .rne 0 ((ffOf t).decode v)

/-- A floating-point VREDADD (R184): a chain under REPRO; else a tree in each member, then the lead's sum and the members'
in the order `k` gives. -/
def redSum (x : Ctx) (t : Ty) (m : BitVec 128) (es : List Nat) (k : Nat) : Nat × (BitVec 32 × Flags) :=
  let f := redFormat t
  let ins := es.map (redIn t)
  let st := (x.srseed, (governed t m (ins.map Prod.snd)).foldl (· ||| ·) 0)
  let codes := ins.map Prod.fst
  let parts := if x.repro then (governed t m codes, st)
    else
      let opts := codes.zipIdx.map fun p => if governs t m p.2 then some p.1 else none
      let r := redMembers f x.rm (t.count 8) (x.width / 8) opts st
      let lead := if (opts.take (t.count 8)).any Option.isSome then 1 else 0
      ((r.1.take lead) ++ shuffle r.1.length k (r.1.drop lead), r.2)
  match parts.1 with
  | [] => (0, parts.2)
  | e :: rest => redChain f x.rm rest (e, parts.2)

/-- A reduction into a scalar register (R183). -/
def reduce (i : Instr) (o : OpV2) (s : State) (f : Ctx → List Nat → Ctx × BitVec 64) : Host.Outcome State Fault Refusal :=
  issue i (.sreg (sOf o.vd)) s fun x => do
    let a ← x.readV .a o.ea o.va
    let r := f x (elemsOf o.ty a)
    pure (s.bump.doneS (r.1.useV o.va) [] (sOf o.vd) r.2)

/-- VREDADD (R183, R184). -/
def execVredadd (o : OpV2) (s : State) : Host.Outcome State Fault Refusal :=
  reduce (.vredadd o) o s fun x es =>
    if o.ty.isInt then
      (x, BitVec.ofInt 64 ((governed o.ty (x.m o.m) es).foldl (fun acc e => acc + intOf o.ty e) 0))
    else
      let r := redSum x o.ty (x.m o.m) es (Config.memberOrder s.tick)
      (({ x with srseed := if x.rm = RMode.sr then r.2.1 else x.srseed }).raiseFlags r.2.2, BitVec.ofNat 64 r.1)

/-- VREDMAX and VREDMIN of a floating-point type, pairwise (R183). -/
def redPick (t : Ty) (big : Bool) (es : List Nat) : Nat × Flags :=
  let f := redFormat t
  let ins := es.map (redIn t)
  let fl := ins.foldl (fun acc p => acc ||| p.2) 0
  match ins with
  | [] => (if big then f.infCode.getD 0 + 2 ^ (f.width - 1) else f.infCode.getD 0, 0)
  | p :: rest => (rest.foldl (fun acc q => (f.minMax big acc q.1).1) p.1, fl)

/-- VREDMAX and VREDMIN (R183). -/
def redMinMax (i : Instr) (o : OpV2) (big : Bool) (s : State) : Host.Outcome State Fault Refusal :=
  reduce i o s fun x es =>
    let gs := governed o.ty (x.m o.m) es
    if o.ty.isInt then
      let none' := if big then (rangeOf o.ty).1 else (rangeOf o.ty).2
      let pick := fun (a b : Int) => if big then max a b else min a b
      (x, BitVec.ofInt 64 ((gs.map (intOf o.ty)).foldl pick none'))
    else
      let r := redPick o.ty big gs
      (x.raiseFlags r.2, BitVec.ofNat 64 r.1)

/-- VREDMAX (R183). -/
def execVredmax (o : OpV2) (s : State) : Host.Outcome State Fault Refusal := redMinMax (.vredmax o) o true s
/-- VREDMIN (R183). -/
def execVredmin (o : OpV2) (s : State) : Host.Outcome State Fault Refusal := redMinMax (.vredmin o) o false s

/-- The running sums of a floating-point scan; the first governed element is its own sum (R185). -/
def scanFp (f : FF) (mode : RMode) : List (Nat × Bool) → Option Nat → BitVec 32 × Flags → List Nat × (BitVec 32 × Flags)
  | [], _, st => ([], st)
  | (e, false) :: t, acc, st => let u := scanFp f mode t acc st; (e :: u.1, u.2)
  | (e, true) :: t, none, st =>
    let q := f.round .rne 0 (f.decode e)
    let u := scanFp f mode t (some q.1) (st.1, st.2 ||| q.2)
    (q.1 :: u.1, u.2)
  | (e, true) :: t, some a, st =>
    let r := redAdd f mode st a e
    let u := scanFp f mode t (some r.1) r.2
    (r.1 :: u.1, u.2)

/-- The running sums of an integer scan. -/
def scanInt (w : Nat) : List (Nat × Bool) → Nat → List Nat
  | [], _ => []
  | (e, false) :: t, acc => e :: scanInt w t acc
  | (e, true) :: t, acc => let a := (acc + e) % 2 ^ w; a :: scanInt w t a

/-- VSCAN (R185). -/
def execVscan (o : OpV2) (s : State) : Host.Outcome State Fault Refusal :=
  vec2 (.vscan o) o.vd o.va o.ea s fun x a =>
    let es := (elemsOf o.ty a).zipIdx.map fun p => (p.1, governs o.ty (x.m o.m) p.2)
    let put := fun rs => mergeLanes o.ty (x.m o.m) (lanesOf o.ty x.width rs) (x.v o.vd)
    if o.ty.isInt then (x, put (scanInt o.ty.width es 0))
    else
      let r := scanFp (ffOf o.ty) x.rm es none (x.srseed, 0)
      (({ x with srseed := if x.rm = RMode.sr then r.2.1 else x.srseed }).raiseFlags r.2.2, put r.1)

/-! ### Lane movement and scalar exchange (R186 to R189) -/

/-- VPERM (R186). -/
def execVperm (o : OpV3) (s : State) : Host.Outcome State Fault Refusal :=
  vec3 (.vperm o) o.vd o.va o.vb o.ea s fun x a b =>
    (x, moveLanes o.ty x.width (x.m o.m) (x.v o.vd) fun l =>
      if o.ty.width = 64 then
        let p := (lane b (l / 2 * 2)).data.toNat % 64
        if p < x.width / 2 then lane a (2 * p + l % 2) else .plain 0
      else
        let k := (lane b l).data.toNat % 128
        if k < x.width then lane a k else .plain 0)

/-- The lane that pattern `p` brings to lane `l` of `w` (R189). -/
def shufLane (p : Shuf) (w : Nat) (a b : List Lane) (l : Nat) : Lane :=
  let h := w / 2
  match p with
  | .ziplo => if l % 2 = 0 then lane a (l / 2) else lane b (l / 2)
  | .ziphi => if l % 2 = 0 then lane a (h + l / 2) else lane b (h + l / 2)
  | .uzpev => if l < h then lane a (2 * l) else lane b (2 * (l - h))
  | .uzpod => if l < h then lane a (2 * l + 1) else lane b (2 * (l - h) + 1)
  | .catlo => if l < h then lane a l else lane b (l - h)
  | .cathi => if l < h then lane a (h + l) else lane b l
  | .rev => lane a (w - 1 - l)
  | .swp2 => lane a (l ^^^ 1)

/-- The patterns of one source (R189). -/
def Shuf.one : Shuf → Bool
  | .rev | .swp2 => true
  | .ziplo | .ziphi | .uzpev | .uzpod | .catlo | .cathi => false

/-- VSHUF (R189): REV and SWP2 read va alone. -/
def execVshuf (o : OpShuf) (s : State) : Host.Outcome State Fault Refusal :=
  vec3 (.vshuf o) o.vd o.va (if Shuf.one o.pat then o.va else o.vb) o.ea s fun x a b =>
    (x, moveLanes .f32 x.width (x.m o.m) (x.v o.vd) (shufLane o.pat x.width a b))

/-- VROT (R187): lanes, or pairs of a 64-bit type, move toward higher numbers. -/
def execVrot (o : OpV3) (s : State) : Host.Outcome State Fault Refusal :=
  issue (.vrot o) (.vreg o.vd) s fun x => do
    let a ← x.readV .a o.ea o.va
    let b ← x.read .b o.ea (sOf o.vb)
    let w := x.width
    let n := if o.ty.width = 64 then 2 * (b.toNat % (w / 2)) else b.toNat % w
    pure (s.doneV x [o.va] o.vd (moveLanes o.ty w (x.m o.m) (x.v o.vd) fun l => lane a ((l + w - n) % w)))

/-- The lane of a scalar word of type .fp4b (R188). -/
def fp4bLane (w : BitVec 64) : Lane := ⟨w.setWidth 32, w.extractLsb' 32 8, w.extractLsb' 48 16⟩

/-- VBCAST (R188). -/
def execVbcast (o : OpV2) (s : State) : Host.Outcome State Fault Refusal :=
  issue (.vbcast o) (.vreg o.vd) s fun x => do
    let a ← x.read .a o.ea (sOf o.va)
    pure (s.doneV x [] o.vd
      (if o.ty = .fp4b then moveLanes .f32 x.width (x.m o.m) (x.v o.vd) fun _ => fp4bLane a
       else mapElems o.ty x.width (x.m o.m) (x.v o.vd) fun _ => a.toNat % 2 ^ o.ty.width))

/-- Elements that VEXTR and VINS count: lanes for .fp4b (R188). -/
def exchangeCount (t : Ty) (w : Nat) : Nat := if t = .fp4b then w else t.count w

/-- VEXTR (R188). -/
def execVextr (o : OpVX) (s : State) : Host.Outcome State Fault Refusal :=
  issue (.vextr o) (.sreg (sOf o.vd)) s fun x => do
    let a ← x.readV .a o.ea o.va
    let b ← x.read .b o.ea (sOf o.vb)
    if exchangeCount o.ty x.width ≤ b.toNat then illegal5
    else
      let l := lane a b.toNat
      let e := el (elemsOf o.ty a) b.toNat
      let w : BitVec 64 :=
        if o.ty = .fp4b then (l.band ++ 0#8 ++ l.blk ++ l.data : BitVec 64) else BitVec.ofInt 64 (intOf o.ty e)
      pure (s.doneS (x.useV o.va) [] (sOf o.vd) w)

/-- VINS (R188): vd is read under policy 0. -/
def execVins (o : OpVX) (s : State) : Host.Outcome State Fault Refusal :=
  issue (.vins o) (.vreg o.vd) s fun x => do
    let a ← x.read .a o.ea (sOf o.va)
    let b ← x.read .b o.ea (sOf o.vb)
    let d ← x.readV .d false o.vd
    if exchangeCount o.ty x.width ≤ b.toNat then illegal5
    else
      let n := b.toNat
      let es := (elemsOf o.ty d).set n (a.toNat % 2 ^ o.ty.width)
      let fresh := lanesOf o.ty x.width es
      let hit := fun l => if o.ty = .fp4b then l == n else if o.ty.width = 64 then l / 2 == n else l == o.ty.laneOf n
      pure (s.doneV x [] o.vd ((List.range x.width).map fun l =>
        if hit l then (if o.ty = .fp4b then fp4bLane a else lane fresh l) else lane d l))

end Sys2Proof.Machine
end

