-- ==== Sys2Proof/Machine/Matrix.lean ====
section
/-! DEFINITION. Matrix work: tile-task records (R241), the arithmetic of K-steps (R244, R280, R281, R283), the loads and stores of
sub-blocks (R245, R271), and the formats of accumulator slots (R246, R247). -/

namespace Sys2Proof.Machine

/-! ### Records and formats (R241) -/

/-- The formats of C for an FP32 accumulator of narrow operands. -/
def narrowOut (t : Ty) : Bool := t == .f32 || t == .bf16 || t == .f16

/-- The accumulator format and twice the figure c of a combination of formats (R241). -/
def tileFmt (fa fb fc : Ty) : Option (AccFmt × Nat) :=
  let fp8 := fun (t : Ty) => t == .e4m3 || t == .e5m2
  let i8 := fun (t : Ty) => t == .s8 || t == .z8
  if fa = .f64 ∧ fb = .f64 ∧ fc = .f64 then some (.f64, 64)
  else if fa = .f32 ∧ fb = .f32 ∧ fc = .f32 then some (.f32, 16)
  else if (fa == .bf16 || fa == .f16) && fb == fa && narrowOut fc then some (.f32, 4)
  else if fp8 fa && fp8 fb && narrowOut fc then some (.f32, 2)
  else if i8 fa && i8 fb && fc == .s32 then some (.i32, 2)
  else if fa == .fp4b && fb == .fp4b && narrowOut fc then some (.f32, 1)
  else none

/-- Word `i` of a record. -/
def recWord (ws : List Nat) (i : Nat) : Nat := ws.getD i 0

/-- The address and format word of an operand. -/
def recAddr (w : Nat) : Nat := w % 2 ^ 57
/-- The format of an operand. -/
def recTy (w : Nat) : Ty := Ty.ofCode (BitVec.ofNat 4 (w / 2 ^ 60))

/-- FLAGS. -/
def recFlags (ws : List Nat) : Nat := recWord ws 5 / 2 ^ 36 % 4096
/-- NPRED. -/
def recPreds (ws : List Nat) : Nat := recFlags ws / 4 % 8
/-- The predecessor entries. -/
def recPred (ws : List Nat) (i : Nat) : Nat := recWord ws 6 / 2 ^ (16 * i) % 65536

/-- The record that eight words hold (R241); M, N and K count in sixteens. -/
def parseTile (ws : List Nat) : TileRec :=
  { fa := recTy (recWord ws 0), fb := recTy (recWord ws 1), fc := recTy (recWord ws 2), aAddr := recAddr (recWord ws 0),
    bAddr := recAddr (recWord ws 1), cAddr := recAddr (recWord ws 2), lda := recWord ws 3 % 2 ^ 32, ldb := recWord ws 3 / 2 ^ 32,
    ldc := recWord ws 4 % 2 ^ 32, budget := recWord ws 4 / 2 ^ 32, tid := recWord ws 5 / 2 ^ 48, flags := recFlags ws,
    m := recWord ws 5 % 4096, n := recWord ws 5 / 2 ^ 12 % 4096, k := recWord ws 5 / 2 ^ 24 % 4096,
    preds := (List.range (recPreds ws)).map (recPred ws), deadline := recWord ws 7 }

/-- ACC. -/
def TileRec.acc (t : TileRec) : Bool := t.flags.testBit 0
/-- WRITE. -/
def TileRec.write (t : TileRec) : Bool := t.flags.testBit 1
/-- QA. -/
def TileRec.qa (t : TileRec) : Bool := t.flags.testBit 5
/-- QB. -/
def TileRec.qb (t : TileRec) : Bool := t.flags.testBit 6
/-- QC. -/
def TileRec.qc (t : TileRec) : Bool := t.flags.testBit 7

/-- A zero field or a reserved bit is nonzero, or an address or stride that is used is no multiple of 8 (R241). -/
def recBad (ws : List Nat) (useA useB : Bool) : Bool :=
  let t := parseTile ws
  ([0, 1, 2].any fun i => recWord ws i / 2 ^ 57 % 8 != 0) || decide (256 ≤ t.flags) ||
    (useA && (t.aAddr % 8 != 0 || t.lda % 8 != 0)) || (useB && (t.bAddr % 8 != 0 || t.ldb % 8 != 0)) ||
    t.cAddr % 8 != 0 || t.ldc % 8 != 0

/-- A tile-task record fails check 2 of R242 but for its TID. -/
def taskBad (ws : List Nat) : Bool :=
  let t := parseTile ws
  recBad ws true true || t.m == 0 || t.n == 0 || t.k == 0 || decide (4 < recPreds ws) || t.qa || t.qb || t.qc ||
    ((List.range 4).any fun i => decide (recPreds ws ≤ i) && recPred ws i != 0)

/-- The stall-free cycles of a task (R244), with the K-step term of R283 under REPRO. -/
def TileRec.stallFree (t : TileRec) (halves : Nat) (repro : Bool) : Nat :=
  let term := if repro then (t.k * halves * 20 + 33) / 34 else (t.k * halves + 1) / 2
  t.m * t.n * (48 + term + if t.write then 16 else 0)

/-! ### Arithmetic (R244, R280, R281) -/

/-- The floating-point format of an accumulator. -/
def AccFmt.ff : AccFmt → FF
  | .f32 | .i32 => .f32
  | .f64 => .f64

/-- The type code of an accumulator's format (R102). -/
def AccFmt.ty : AccFmt → Ty
  | .f32 => .f32
  | .f64 => .f64
  | .i32 => .s32

/-- A zero accumulator. -/
def AccSlot.zero (f : AccFmt) : AccSlot := ⟨f, List.replicate 256 0⟩

/-- One element of an accumulator as a code. -/
def AccSlot.get (a : AccSlot) (e : Nat) : Nat := (a.elems.getD e 0).toNat

/-- The accumulator with every element computed by `f`. -/
def AccSlot.map (a : AccSlot) (f : Nat → Nat) : AccSlot := ⟨a.fmt, (List.range 256).map fun e => BitVec.ofNat 64 (f e)⟩

/-- The exact sum of the products of two rows of floating-point elements. -/
def rowDot (fa fb : Ty) (a b : List Nat) : FpVal :=
  (numTotal .rne ((List.zip a b).map fun p => numMul ((ffOf fa).decode p.1) ((ffOf fb).decode p.2))).1

/-- The sum of the products of two rows of integers. -/
def rowSum (fa fb : Ty) (a b : List Nat) : Int := (List.zip a b).foldl (fun acc p => acc + intOf fa p.1 * intOf fb p.2) 0

/-- The lanes of row `i` of a sub-block. -/
def rowOf (rows : List (List Lane)) (i : Nat) : List Lane := rows.getD i []

/-- One K-step of a block (R244): A and B as sixteen rows of lanes each, the blocks of an .fp4b one in ascending order (R280). -/
def AccSlot.kstep (acc : AccSlot) (fa fb : Ty) (a b : List (List Lane)) : AccSlot :=
  if fa = .fp4b then
    acc.map fun e =>
      let cs := List.zipWith blockDot (rowOf a (e / 16)) (rowOf b (e % 16))
      (cs.foldl accStep (acc.get e, 0)).1
  else
    let as := a.map (elemsOf fa)
    let bs := b.map (elemsOf fb)
    match acc.fmt with
    | .i32 => acc.map fun e => wrapTo 32 ((acc.get e : Int) + rowSum fa fb (as.getD (e / 16) []) (bs.getD (e % 16) []))
    | .f32 | .f64 =>
      acc.map fun e =>
        (acc.fmt.ff.round .rne 0
          (numAdd .rne (acc.fmt.ff.decode (acc.get e)) (rowDot fa fb (as.getD (e / 16) []) (bs.getD (e % 16) []))).1).1

/-- The band step of an .fp4b block (R280). The band scale of a row is that of its first lane in the last K-step: DESIGN CHOICE where lanes from a
queue carry several (log entry 121). -/
def AccSlot.band (acc : AccSlot) (a b : List (List Lane)) : AccSlot :=
  let scale := fun (rows : List (List Lane)) i => FF.bf16.decode (((rowOf rows i).headD (.plain 0)).band).toNat
  acc.map fun e =>
    let h := (FF.f32.round .rne 0 (numMul (scale a (e / 16)) (scale b (e % 16))).1).1
    (FF.f32.round .rne 0 (numMul (FF.f32.decode (acc.get e)) (FF.f32.decode h)).1).1

/-- The values of a sub-block. -/
def rowNums (t : Ty) (rows : List (List Lane)) : List FpVal :=
  if t = .fp4b then rows.flatMap fun r => r.flatMap fun l => (List.range 8).map fun i => (blockElem l i).1
  else rows.flatMap fun r => (elemsOf t r).map fun v => if t.isInt then FpVal.ofInt (intOf t v) else (ffOf t).decode v

/-- A K-step may be skipped: one sub-block is all zeros and the other holds no infinity and no NaN (R244). -/
def skippable (fa fb : Ty) (a b : List (List Lane)) : Bool :=
  let xs := rowNums fa a
  let ys := rowNums fb b
  (xs.all FpVal.isZero && ys.all FpVal.finite) || (ys.all FpVal.isZero && xs.all FpVal.finite)

/-- The K-step that comes next: the lowest under REPRO, any that is left else (R244). -/
def nextK (tick : Nat) (repro : Bool) (k : Nat) (done : List Nat) : Nat :=
  let left := (List.range k).filter fun i => !done.contains i
  if repro then left.headD 0 else left.getD (Config.kstepOrder tick % left.length) 0

/-- The order in which a block's parts are added is open, and no order of their fetch is (R244, R246, R282): outside REPRO, where
blocks of eight come in any order, or operands come from queues. -/
def TileRec.late (t : TileRec) (repro : Bool) : Bool := !repro && (t.fa == .fp4b || t.qa || t.qb)

/-- A list in an order that a free choice gives. -/
def inAnyOrder {α : Type} (f : Nat → Nat) : Nat → List α → List α
  | 0, l => l
  | n + 1, l =>
    match l[f n % l.length]? with
    | some a => a :: inAnyOrder f n (l.eraseIdx (f n % l.length))
    | none => l

/-- What is added at once of a K-step's sub-blocks: all of it, or, of .fp4b, one block of eight. -/
def addends (fp4 : Bool) (p : List (List Lane) × List (List Lane)) : List (List (List Lane) × List (List Lane)) :=
  if fp4 then [0, 1].map fun j => (p.1.map fun r => (r.drop j).take 1, p.2.map fun r => (r.drop j).take 1) else [p]

/-- The parts of a block added in any order (R282). -/
def AccSlot.addAll (acc : AccSlot) (t : TileRec) (tick : Nat) (parts : List (List (List Lane) × List (List Lane))) : AccSlot :=
  let us := parts.flatMap (addends (t.fa == .fp4b))
  (inAnyOrder (Config.blockOrder tick) us.length us).foldl (fun a u => a.kstep t.fa t.fb u.1 u.2) acc

/-! ### Conversion (R244, R247, R279) -/

/-- A code of a memory format converted exactly to the accumulator format. -/
def toAcc (t : Ty) (f : AccFmt) (v : Nat) : Nat :=
  if t = f.ty then v else (f.ff.round .rne 0 ((ffOf t).decode v)).1

/-- An element of an accumulator rounded to a memory format, a NaN canonical. -/
def fromAcc (f : AccFmt) (t : Ty) (v : Nat) : Nat :=
  match f with
  | .i32 => v
  | .f32 | .f64 => ((ffOf t).round .rne 0 (f.ff.decode v)).1

/-- The bytes of row `i` of a block in a memory format. -/
def AccSlot.rowBytes (a : AccSlot) (t : Ty) (i : Nat) : List Byte :=
  (List.range 16).flatMap fun j => leBytes (t.width / 8) (fromAcc a.fmt t (a.get (16 * i + j)))

/-! ### Loads and stores (R245, R271) -/

/-- What a load pipe fetched, or what stops it. -/
inductive Loaded
  | got (s : State) (rows : List (List Lane))
  | absent (va : Nat)
  | refused (cause sub detail va : Nat)

/-- Lanes of `n` bytes from a virtual address, with the side-bands of FP4B lines where `bands` (R271). -/
def State.loadLanes (s : State) (a : Agent) (die va n : Nat) (bands : Bool) : Loaded :=
  match s.span (some die) a.lease va n false with
  | .absent v => .absent v
  | .refused cause sub detail v => .refused cause sub detail v
  | .ok ps =>
    let (t, bs) := (s.fillAll die a.lease ((linePieces (n / 128 + 2) 0 va n).map fun p => p.2.1)).pull a ps
    .got t [ps.flatMap fun p =>
      (lanesOfBytes (fun i => if bands then t.bandOf (p.2.1.add i) else (0, 0)) (p.2.2 / 4) 0 0 ((bs.drop p.1).take p.2.2)).map
        Prod.snd]

/-- Rows of `n` bytes each from their addresses. -/
def State.loadRows (s : State) (a : Agent) (die n : Nat) (bands : Bool) : List Nat → Loaded
  | [] => .got s []
  | va :: vas =>
    match s.loadLanes a die va n bands with
    | .got t row =>
      match t.loadRows a die n bands vas with
      | .got u rows => .got u (row ++ rows)
      | .absent v => .absent v
      | .refused cause sub detail v => .refused cause sub detail v
    | .absent v => .absent v
    | .refused cause sub detail v => .refused cause sub detail v

/-- The addresses of the sixteen rows of a sub-block. -/
def rowAddrs (base stride block off : Nat) : List Nat := (List.range 16).map fun r => base + (16 * block + r) * stride + off

/-- The bytes of sixteen elements of a type. -/
def rowBytes (t : Ty) : Nat := 2 * t.width

/-- A block written, if every page is there (R244). -/
def State.storeBlock (s : State) (a : Agent) (die : Nat) (rows : List (Nat × List Byte)) : Access × State :=
  let ps := rows.zipIdx.flatMap fun p =>
    (linePieces (p.1.2.length / 128 + 2) 0 p.1.1 p.1.2.length).map fun q => (p.2 * p.1.2.length + q.1, q.2.1, q.2.2)
  match s.access (some die) a.lease true ps with
  | .ok ls => (.ok ls, (s.fillAll die a.lease (ps.map fun p => p.2.1)).push a die ls (rows.flatMap Prod.snd))
  | e => (e, s)

/-- The rows of block (bm, bn) of C. -/
def TileRec.outRows (t : TileRec) (acc : AccSlot) (bm bn : Nat) : List (Nat × List Byte) :=
  (List.range 16).map fun r => (t.cAddr + (16 * bm + r) * t.ldc + bn * rowBytes t.fc, acc.rowBytes t.fc r)

/-- The accumulator that a block starts from (R244): C converted exactly under ACC, else zero. -/
def State.initAcc (s : State) (a : Agent) (die : Nat) (t : TileRec) (f : AccFmt) (bm bn : Nat) : Loaded × AccSlot :=
  if t.acc then
    match s.loadRows a die (rowBytes t.fc) false (rowAddrs t.cAddr t.ldc bm (bn * rowBytes t.fc)) with
    | .got u rows => (.got u [], ⟨f, (rows.flatMap (elemsOf t.fc)).map fun v => BitVec.ofNat 64 (toAcc t.fc f v)⟩)
    | e => (e, .zero f)
  else (.got s [], .zero f)

/-- The die of a row half: 64 of them stand on each (R2, R377). -/
def rowDie (row : Nat) : Nat := row / 64

/-! ### Operand windows (R242, R270) -/

/-- Whether an .fp4b operand lies within a window: yes, no, or not known until a page is serviced. -/
inductive InWindow
  | yes
  | no
  | absent (va : Nat)
deriving DecidableEq, Repr

/-- The window that holds a line of an operand. -/
def State.pieceWindow (s : State) (lease : Nat) (l : Loc) : Option Window :=
  match l with
  | .dev ls a => if ls = lease then (s.windowOf lease a).bind fun w => if w.fmt = 15 ∧ w.matrix then some w else none else none
  | .carve _ _ | .host _ | .remote _ _ _ => none

/-- Every row of an operand lies within one FP4B window in matrix mode, its first row at a multiple of sixteen rows from the
window's base, its stride the window's row length (R270). -/
def State.operandWindow (s : State) (die : Option Nat) (lease base stride rows n : Nat) : InWindow :=
  let ps := (List.range rows).flatMap fun r => (linePieces (n / 128 + 2) 0 (base + r * stride) n).map fun p => (p.1, p.2.1, 0)
  match s.access die lease false ps with
  | .absent va => .absent va
  | .refused _ _ _ _ => .no
  | .ok ls =>
    match ls.head? with
    | none => .no
    | some p =>
      match s.pieceWindow lease p.2.1 with
      | none => .no
      | some w =>
        if (ls.all fun q => s.pieceWindow lease q.2.1 == some w) && (p.2.1.addr - w.lo) % (16 * w.rowb * 128) == 0 &&
            stride == w.rowb * 128 then .yes
        else .no

/-- Both .fp4b operands of a record lie within windows; an operand that comes from a queue needs none. -/
def State.fp4Windows (s : State) (die : Option Nat) (lease : Nat) (t : TileRec) : InWindow :=
  if t.fa ≠ .fp4b then .yes
  else
    let n := t.k * rowBytes .fp4b
    match if t.qa then InWindow.yes else s.operandWindow die lease t.aAddr t.lda (16 * t.m) n with
    | .yes => if t.qb then .yes else s.operandWindow die lease t.bAddr t.ldb (16 * t.n) n
    | e => e

end Sys2Proof.Machine
end

