-- ==== Sys2Proof/Machine/Slate.lean ====
section
/-! DEFINITION. Slate and the row halves under tile tasks: C.TTASK (R242, R311, R344), issue, stealing and pre-emption (R349,
R350), K-steps (R244, R245), the end of a task (R243) and its overrun (R312). -/

namespace Sys2Proof.Machine

/-! ### Tasks of a lease -/

/-- The unfinished task of a TID. -/
def State.task? (s : State) (lease tid : Nat) : Option TileTask := (s.lease lease).tasks.find? fun k => k.tile.tid == tid

/-- A task changed. -/
def State.modTask (s : State) (lease tid : Nat) (f : TileTask → TileTask) : State :=
  s.modLease lease fun l => { l with tasks := l.tasks.map fun k => if k.tile.tid = tid then f k else k }

/-- The state that Slate holds of a TID: its outcome, 0x8 while it is unfinished (R242). -/
def State.tidState (s : State) (lease tid : Nat) : Option Nat := Tab.get? (s.lease lease).ended tid

/-- A task's key (R348). -/
def TileTask.key (k : TileTask) : List Nat := [if k.demoted then 1 else 0, k.tile.deadline, k.admitted, k.cmd.lease, k.tile.tid]

/-- The key of a TID. -/
def State.tidKey (s : State) (lease tid : Nat) : List Nat := (s.task? lease tid).elim [] TileTask.key

/-- The row halves of a lease, by rising number (R42, R349). -/
def State.rowsOf (s : State) (lease : Nat) : List Nat :=
  (List.range 256).filter fun n => (s.row n).lease == lease

/-- The ready list of a row half: the top first, the bottom last. -/
def State.readyList (s : State) (lease row : Nat) : List Nat := (Tab.get? (s.lease lease).lists row).getD []

/-- The ready list replaced. -/
def State.setList (s : State) (lease row : Nat) (ts : List Nat) : State :=
  s.modLease lease fun l => { l with lists := Tab.put l.lists row ts }

/-- A TID ordered before others by its key. -/
def State.insertKey (s : State) (lease tid : Nat) : List Nat → List Nat
  | [] => [tid]
  | t :: ts => if keyBefore (s.tidKey lease tid) (s.tidKey lease t) then tid :: t :: ts else t :: s.insertKey lease tid ts

/-- The pending set in order of keys (R349). -/
def State.pendingSet (s : State) (lease : Nat) : List Nat :=
  (((s.lease lease).tasks.filter fun k => k.place == .pending).map fun k => k.tile.tid).foldl (fun acc t => s.insertKey lease t acc) []

/-! ### Ready lists (R349) -/

/-- The row half whose list holds the fewest entries, the lowest number winning a tie. -/
def State.shortest (s : State) (lease : Nat) : Option Nat := leastBy (fun n => (s.readyList lease n).length) (s.rowsOf lease)

/-- The row half whose list holds the most entries. -/
def State.fullest (s : State) (lease : Nat) : Option Nat :=
  (leastBy (fun n => Config.readyList - (s.readyList lease n).length) (s.rowsOf lease)).filter fun n =>
    !(s.readyList lease n).isEmpty

/-- A task may be pushed on a list: there is room, and it precedes the bottom (R349). -/
def State.pushable (s : State) (lease row tid : Nat) : Bool :=
  let ts := s.readyList lease row
  decide (ts.length < Config.readyList) && ts.getLast?.all fun b => keyBefore (s.tidKey lease tid) (s.tidKey lease b)

/-- A task pushed at the bottom of a list. -/
def State.pushTask (s : State) (lease row tid : Nat) : State :=
  (s.setList lease row (s.readyList lease row ++ [tid])).modTask lease tid fun k => { k with place := .listed row }

/-- A task whose predecessors have ended DONE is placed: on the shortest list, or in the pending set (R349). -/
def State.placeTask (s : State) (lease tid : Nat) : State :=
  match s.shortest lease with
  | some row =>
    if s.pushable lease row tid then s.pushTask lease row tid else s.modTask lease tid fun k => { k with place := .pending }
  | none => s.modTask lease tid fun k => { k with place := .pending }

/-- A list refilled from the pending set in reverse key order, so that its bottom holds the earliest key (R349). -/
def State.refill (s : State) (lease row : Nat) : State :=
  let room := Config.readyList - (s.readyList lease row).length
  let next := ((s.pendingSet lease).filter fun t => s.pushable lease row t).take room
  next.reverse.foldl (fun u t => u.pushTask lease row t) s

/-! ### The end of a task (R242, R243) -/

/-- The status word of R243. -/
def tileWord (tid cause : Nat) (demoted : Bool) (outcome : Nat) : BitVec 64 :=
  BitVec.ofNat 64 (tid % 65536 * 65536 + cause % 256 * 256 + (if demoted then 16 else 0) + outcome % 16)

/-- The row halves that run a task. -/
def State.rowsRunning (s : State) (lease tid : Nat) : List Nat :=
  (s.rows.filter fun p => p.2.lease == lease && p.2.task == some tid).map Prod.fst

/-- A row half freed of the task it runs. -/
def State.freeRow (s : State) (lease tid : Nat) : State :=
  let t := (s.rowsRunning lease tid).foldl State.unwaitRow s
  { t with rows := s.rows.map fun p =>
      if p.2.lease = lease ∧ p.2.task = some tid then (p.1, { p.2 with task := none, blocks := 0, ksteps := [], work := none, parts := [] }) else p }

/-- A task leaves Slate with its outcome; its token is filled unless it was at acceptance (R242, R243). -/
def State.closeTask (s : State) (lease : Nat) (k : TileTask) (outcome cause : Nat) : State :=
  let tid := k.tile.tid
  let t := (s.freeRow lease tid).modLease lease fun l =>
    { l with tasks := l.tasks.filter fun j => j.tile.tid != tid, ended := Tab.put l.ended tid outcome,
             lists := l.lists.map fun p => (p.1, p.2.filter fun j => j != tid) }
  if k.early then t else t.fillFor k.cmd (tileWord tid cause k.demoted outcome)

/-- The predecessors of a task have all ended DONE. -/
def State.predsDone (s : State) (lease : Nat) (k : TileTask) : Bool := k.tile.preds.all fun t => s.tidState lease t == some 0

/-- A predecessor of a task ended FAULTED or KILLED. -/
def State.predFailed (s : State) (lease : Nat) (k : TileTask) : Bool :=
  k.tile.preds.any fun t => s.tidState lease t == some 1 || s.tidState lease t == some 2

/-- Waiting tasks taken up as their predecessors end: the dependants of one that failed end KILLED with CAUSE 0x00 (R242). -/
def State.settle (s : State) (lease : Nat) : Nat → State
  | 0 => s
  | n + 1 =>
    let waits := (s.lease lease).tasks.filter fun k => k.place == .waiting
    match waits.find? fun k => s.predFailed lease k with
    | some k => (s.closeTask lease k 2 0).settle lease n
    | none =>
      match waits.find? fun k => s.predsDone lease k with
      | some k => (s.placeTask lease k.tile.tid).settle lease n
      | none => s

/-- The tasks of a lease settled. -/
def State.settleAll (s : State) (lease : Nat) : State := s.settle lease ((s.lease lease).tasks.length + 1)

/-- A task ends, and what depended on it is settled. -/
def State.endTask (s : State) (lease : Nat) (k : TileTask) (outcome cause : Nat) : State :=
  (s.closeTask lease k outcome cause).settleAll lease

/-! ### C.TTASK (R242) -/

/-- Check 7 of R242: the remaining rows of R344. -/
def State.taskAdmission (s : State) (lease : Nat) (t : TileRec) : Nat :=
  let l := s.lease lease
  if l.suspended then 0x09
  else if Config.slateTasks ≤ l.tasks.length then 0x06
  else s.shareTest lease ⟨0, t.budget, 0, oneShotPeriod t.deadline s.dtime⟩

/-- A refusal of a C.TTASK: PORT and ADMIT of its error word. -/
structure Refuse where
  port : Nat
  admission : Nat

/-- Checks 2 to 7 of R242 but for the windows; none where the record is accepted. -/
def State.taskCheck (s : State) (lease : Nat) (ws : List Nat) (repro : Bool) (window : Bool) : Option Refuse :=
  let t := parseTile ws
  if taskBad ws || (s.task? lease t.tid).isSome then some ⟨0x07, 0⟩
  else
    match tileFmt t.fa t.fb t.fc with
    | none => some ⟨0, 0x05⟩
    | some (_, halves) =>
      if !window then some ⟨0, 0x05⟩
      else if t.preds.any fun p => (s.tidState lease p).isNone then some ⟨0, 0x04⟩
      else if t.deadline ≤ s.dtime then some ⟨0, 0x02⟩
      else if t.budget < t.stallFree halves repro then some ⟨0, 0x07⟩
      else
        match s.taskAdmission lease t with
        | 0 => none
        | c => some ⟨0, c⟩

/-- An accepted record: Slate holds the states of the last 4,096 TIDs it accepted (R242). -/
def State.acceptTask (s : State) (src : CtxId) (x : Ctx) (w : CWord) (t : TileRec) : State :=
  let early := cflag0 w
  let k : TileTask :=
    { tile := t, cmd := s.cmdEntry src x w [], early := early, repro := x.repro, admitted := s.admitNo, place := .waiting,
      blocks := 0, acc := none, done := [], parts := [], charged := 0, spent := false, demoted := false, since := s.clock.cycles }
  let u := s.fresh.modLease x.lease fun l =>
    { l with tasks := l.tasks ++ [k], ended := ((t.tid, 8) :: Tab.drop l.ended t.tid).take Config.slateKeeps }
  let v := if early then u.fillFor k.cmd (tileWord t.tid 0 false 8) else u
  v.settleAll x.lease

/-- A command waits at its port for a page, and is taken again after service (R389). -/
def State.commandWaits (s : State) (src : CtxId) (x : Ctx) (w : CWord) (va : Nat) : State :=
  s.awaitPage x.lease va (s.pageRecord x.handle x.node (some src) va false false) (.command src w)

/-- The 64 bytes of a record or descriptor read at its home as eight words. -/
def State.readWords (s : State) (a : Agent) (ps : List (Nat × Loc × Nat)) : State × List Nat :=
  let (t, bs) := s.pull a ps
  (t, wordsOf 8 (bs.length / 8) bs)

/-- A record that Slate has read, checked and accepted or refused (R242). -/
def State.takeTask (s : State) (src : CtxId) (x : Ctx) (w : CWord) (ws : List Nat) : State :=
  let t := parseTile ws
  let decide' := fun (window : Bool) =>
    match s.taskCheck x.lease ws x.repro window with
    | some r => s.refuseCmd src x w r.port r.admission
    | none => s.acceptTask src x w t
  if taskBad ws || (s.task? x.lease t.tid).isSome || (tileFmt t.fa t.fb t.fc).isNone then decide' true
  else
    match s.fp4Windows none x.lease t with
    | .yes => decide' true
    | .no => decide' false
    | .absent va => s.commandWaits src x w va

/-- C.TTASK (R242): a misaligned record is refused at check 2, after the translation of its address. -/
def execCTtask (src : CtxId) (w : CWord) (s : State) : Host.Outcome State Fault Refusal :=
  atPort src w 4 1 s fun x =>
    let va := gAddr w
    if w.extractLsb' 57 7 ≠ 0 ∨ cmdC w ≠ 0 then s.badCmd src x w
    else
      match s.span none x.lease va 64 false with
      | .absent v => s.commandWaits src x w v
      | .refused cause sub detail _ => s.refusedRead src x w cause sub detail
      | .ok ps =>
        if ps.any fun p => s.damaged p.2.1 p.2.2 then s.refusedRead src x w dataError 0 0
        else if va % 64 ≠ 0 then s.badCmd src x w
        else let (t, ws) := s.readWords ⟨x.lease, x.handle⟩ ps; t.takeTask src x w ws

/-! ### Issue (R348, R349) -/

/-- A row half is free: held, bound to no matrix node, running no task. -/
def RowHalf.free (r : RowHalf) : Bool := r.bound.isNone && r.task.isNone

/-- A row half that is free and that no move has bound (R360). -/
def State.rowFree (s : State) (n : Nat) : Bool := (s.row n).free && !s.isReserved .mat n

/-- A task given to a row half: it goes on where it stopped (R245, R312, R350). -/
def State.giveTask (s : State) (lease row : Nat) (k : TileTask) : State :=
  (s.setRow row { s.row row with task := some k.tile.tid, blocks := k.blocks, ksteps := k.done, work := k.acc, parts := k.parts }).modTask lease
    k.tile.tid fun j => { j with place := .running row, since := s.clock.cycles }

/-- The row half takes the task at the bottom of its own list, which is refilled (R349). -/
def State.popOwn (s : State) (lease row : Nat) : State :=
  match (s.readyList lease row).getLast? with
  | none => s
  | some tid =>
    let t := s.setList lease row (s.readyList lease row).dropLast
    match t.task? lease tid with
    | some k => (t.giveTask lease row k).refill lease row
    | none => t

/-- The row half steals the task at the top of the fullest other list (R349). -/
def State.stealFrom (s : State) (lease row other : Nat) : State :=
  match s.readyList lease other with
  | [] => s
  | tid :: ts =>
    let t := s.setList lease other ts
    match t.task? lease tid with
    | some k => t.giveTask lease row k
    | none => t

/-- A free row half may take a task: Slate issues none of a suspended lease (R371). -/
def State.issueDue (s : State) (lease row : Nat) : Bool :=
  let r := s.row row
  r.lease == lease && s.rowFree row && !(s.lease lease).suspended &&
    ((s.fullest lease).isSome || !(s.pendingSet lease).isEmpty)

/-- SLATE_ISSUE_TASK (R349): its own list, else another's, else the pending set. -/
def execSlateIssueTask (s : State) : Host.Outcome State Fault Refusal :=
  match s.net.hand with
  | some (.slateIssueTask lease row) =>
    if s.issueDue lease row then
      if !(s.readyList lease row).isEmpty then .next (s.popOwn lease row)
      else
        match s.fullest lease with
        | some other => .next (s.stealFrom lease row other)
        | none => .next ((s.refill lease row).popOwn lease row)
    else .fault .notDue
  | _ => .fault .notDue

/-! ### Pre-emption (R350, R371, R377) -/

/-- The tasks of a lease that run, with their row halves. -/
def State.runningTasks (s : State) (lease : Nat) : List (TileTask × Nat) :=
  (s.lease lease).tasks.filterMap fun k => match k.place with
    | .running row => some (k, row)
    | .waiting | .pending | .listed _ => none

/-- A running task stops at a K-step boundary: its accumulator and ROWPROG are kept, and it is pending (R245, R350). -/
def State.preemptTask (s : State) (lease : Nat) (k : TileTask) (row : Nat) : State :=
  let r := s.row row
  ((s.unwaitRow row).setRow row { r with task := none, blocks := 0, ksteps := [], work := none, parts := [] }).modTask lease k.tile.tid fun j =>
    { j with place := .pending, blocks := r.blocks, done := r.ksteps, acc := r.work, parts := r.parts }

/-- The latest of tasks by key. -/
def latestTask : List (TileTask × Nat) → Option (TileTask × Nat)
  | [] => none
  | p :: ps =>
    match latestTask ps with
    | none => some p
    | some q => if keyBefore q.1.key p.1.key then some p else some q

/-- A ready task of a lease precedes a key. -/
def State.readyBefore (s : State) (lease : Nat) (key : List Nat) : Bool :=
  (s.lease lease).tasks.any fun k =>
    (match k.place with
     | .pending | .listed _ => true
     | .waiting | .running _ => false) && keyBefore k.key key

/-- A task's OVERRUN is due: once for each task (R312). -/
def TileTask.overdue (k : TileTask) : Bool := !k.spent && decide (k.tile.budget < k.charged)

/-- The task that Slate pre-empts now, unless an OVERRUN of it comes first (R312): any that runs for a suspended lease, else the running task with the latest key, where a ready
task precedes it, it has held its row half for 2,048 cycles, and none is free (R350, R371). -/
def State.preemptible (s : State) (lease : Nat) : Option (TileTask × Nat) :=
  let l := s.lease lease
  let runs := s.runningTasks lease
  if l.suspended then latestTask (runs.filter fun p => !p.1.overdue)
  else if (s.rowsOf lease).any s.rowFree then none
  else (latestTask runs).filter fun p => !p.1.overdue && decide (p.1.since + 2048 ≤ s.clock.cycles) && s.readyBefore lease p.1.key

/-- SLATE_PREEMPT (R350). -/
def execSlatePreempt (s : State) : Host.Outcome State Fault Refusal :=
  match s.net.hand with
  | some (.slatePreempt lease) =>
    match s.preemptible lease with
    | some (k, row) => .next (s.preemptTask lease k row)
    | none => .fault .notDue
  | _ => .fault .notDue

/-! ### K-steps of a task (R244, R245) -/

/-- The task that a row half runs. -/
def State.rowTask (s : State) (row : Nat) : Option TileTask := (s.row row).task.bind fun tid => s.task? (s.row row).lease tid

/-- Who a tile task acts for: its lease, and no rectangle, since tile tasks never count under RECT (R420). -/
def TileTask.agent (k : TileTask) : Agent := ⟨k.cmd.lease, 0⟩

/-- A row half waits for a page of its tile task, which is no rectangle's: its accumulator stays resident (R245). -/
def State.rowWaits (s : State) (k : TileTask) (va : Nat) (write : Bool) (row : Nat) : State :=
  s.awaitPage k.cmd.lease va (s.pageRecord 0 0xFFFF none va write false) (.rowHalfKstep row)

/-- A task whose access is refused ends FAULTED: a tile task belongs to no rectangle (R243). -/
def State.taskRefused (s : State) (lease : Nat) (k : TileTask) (cause : Nat) : State :=
  (s.causeSpent cause).endTask lease k 1 (s.causeOf cause)

/-- The block of C is written, and the next one comes (R244, R245). -/
def State.finishBlock (s : State) (row : Nat) (k : TileTask) (acc : AccSlot) : State :=
  let r := s.row row
  let t := k.tile
  if t.write then
    match s.storeBlock k.agent (rowDie row) (t.outRows acc (r.blocks / t.n) (r.blocks % t.n)) with
    | (.ok _, u) => u.setRow row { r with blocks := r.blocks + 1, ksteps := [], work := none, parts := [] }
    | (.absent va, _) => s.rowWaits k va true row
    | (.refused cause _ _ _, _) => s.taskRefused r.lease k cause
  else s.setRow row { r with blocks := r.blocks + 1, ksteps := [], work := none, parts := [] }

/-- A K-step on fetched operands, counted (R244, R420). Where the order of the blocks is open, they are added after the last of them has
been fetched, in an order of the engine's own (R282). -/
def State.applyStep (s : State) (row : Nat) (c : Agent) (t : TileRec) (repro : Bool) (acc : AccSlot) (ks : Nat)
    (a b : List (List Lane)) : State × AccSlot :=
  let r := s.row row
  let last := decide (r.ksteps.length + 1 = t.k)
  let skip := !repro && Config.kstepSkip s.tick && skippable t.fa t.fb a b
  let parts := r.parts ++ if skip then [] else [(a, b)]
  let sum := if t.late repro then (if last then acc.addAll t s.tick parts else acc)
    else if skip then acc else acc.kstep t.fa t.fb a b
  let next := if last && t.fa == .fp4b then sum.band a b else sum
  let u := (s.setRow row { r with work := some next, ksteps := r.ksteps ++ [ks], parts := if t.late repro && !last then parts else [] }).bump
  (u.count c.lease 0x011 c.handle 1, next)

/-- The K-step of a task's block, its operands fetched by the load pipes (R244, R245). -/
def State.taskStep (s : State) (row : Nat) (k : TileTask) (acc : AccSlot) : State :=
  let r := s.row row
  let t := k.tile
  let a := k.agent
  let die := rowDie row
  let ks := nextK s.tick k.repro t.k r.ksteps
  let off := fun (ty : Ty) => ks * rowBytes ty
  let held := s.setRow row { r with work := some acc }
  match held.loadRows a die (rowBytes t.fa) (t.fa == .fp4b) (rowAddrs t.aAddr t.lda (r.blocks / t.n) (off t.fa)) with
  | .absent va => held.rowWaits k va false row
  | .refused cause _ _ _ => s.taskRefused r.lease k cause
  | .got u as =>
    match u.loadRows a die (rowBytes t.fb) (t.fb == .fp4b) (rowAddrs t.bAddr t.ldb (r.blocks % t.n) (off t.fb)) with
    | .absent va => u.rowWaits k va false row
    | .refused cause _ _ _ => s.taskRefused r.lease k cause
    | .got v bs =>
      let (w, next) := v.applyStep row k.agent t k.repro acc ks as bs
      if r.ksteps.length + 1 = t.k then w.finishBlock row k next else w

/-- A row half goes on with its task: the accumulator of a new block, a K-step, or the write of a block that is complete. -/
def State.advanceTask (s : State) (row : Nat) (k : TileTask) : State :=
  let r := s.row row
  let t := k.tile
  match r.work with
  | some acc => if r.ksteps.length = t.k then s.finishBlock row k acc else s.taskStep row k acc
  | none =>
    match tileFmt t.fa t.fb t.fc with
    | none => s
    | some (f, _) =>
      match s.initAcc k.agent (rowDie row) t f (r.blocks / t.n) (r.blocks % t.n) with
      | (.got u _, acc) => u.taskStep row k acc
      | (.absent va, _) => s.rowWaits k va false row
      | (.refused cause _ _ _, _) => s.taskRefused r.lease k cause

/-- The OVERRUN of the task that a row half runs is due. -/
def State.taskOverrunDue (s : State) (row : Nat) : Bool := (s.rowTask row).any TileTask.overdue

/-- A task has blocks left to do, and no OVERRUN of it comes first (R312). -/
def State.blocksLeft (s : State) (row : Nat) : Bool :=
  match s.rowTask row with
  | some k => decide ((s.row row).blocks < k.tile.m * k.tile.n) && !s.taskOverrunDue row
  | none => false

/-- TILE_TASK_END (R243): the last block is complete and its writes are acknowledged; an OVERRUN that has fallen due comes first
(R312). -/
def execTileTaskEnd (s : State) : Host.Outcome State Fault Refusal :=
  match s.net.hand with
  | some (.tileTaskEnd row) =>
    match s.rowTask row with
    | some k =>
      if k.tile.m * k.tile.n ≤ (s.row row).blocks ∧ s.taskOverrunDue row = false then .next (s.endTask (s.row row).lease k 0 0)
      else .fault .notDue
    | none => .fault .notDue
  | _ => .fault .notDue

/-! ### Overrun (R312) -/

/-- TILE_TASK_OVERRUN (R312): under the demote policy the task goes on in class 0, under the kill policy it ends KILLED. -/
def execTileTaskOverrun (s : State) : Host.Outcome State Fault Refusal :=
  match s.net.hand with
  | some (.tileTaskOverrun row) =>
    match s.rowTask row with
    | some k =>
      let lease := (s.row row).lease
      if s.taskOverrunDue row then
        let t := (s.postRecord lease (s.overrunRecord k.cmd.handle 0xFFFF none k.tile.budget k.charged k.tile.tid)).count lease 0x039 0 1
        if (s.lease lease).vfCtl.getLsbD 0 then .next (t.modTask lease k.tile.tid fun j => { j with spent := true, demoted := true })
        else .next (t.endTask lease { k with spent := true } 2 0x03)
      else .fault .notDue
    | none => .fault .noUnit
  | _ => .fault .notDue

end Sys2Proof.Machine
end

