-- ==== Sys2Proof/Machine/Nodes.lean ====
section
/-! DEFINITION. The commands of memory nodes and of bound row halves: their checks at the port (R115, R234 to R240, R246, R247),
their start at the head of the queue (R222, R335, R348), their work and their completion (R224, R225). -/

namespace Sys2Proof.Machine

/-! ### At the port of a memory node (R234 to R240) -/

/-- A memory node changed. -/
def State.modNode (s : State) (slot idx : Nat) (f : MemNode → MemNode) : State :=
  match s.node? slot idx with
  | some n => s.setNode slot idx (f n)
  | none => s

/-- A command of a memory node at its port: into the queue, or refused (R115). -/
def nodeCommand (src : CtxId) (w : CWord) (flags : BitVec 6) (bad : State → MemNode → Bool) (s : State) :
    Host.Outcome State Fault Refusal :=
  atPort src w 2 flags s fun x =>
    match s.node? src.slot (cmdIndex w) with
    | some n => if bad s n then s.badCmd src x w else s.enqueue (.memn src.slot (cmdIndex w)) (s.cmdEntry src x w [])
    | none => s.badCmd src x w

/-- A reserved bit of an address operand is set. -/
def highBits (w : CWord) : Bool := w.extractLsb' 57 7 != 0

/-- C.BIND at its port (R234): a node with a C.CONV queued is in convolution mode. -/
def execCBind (src : CtxId) (w : CWord) (s : State) : Host.Outcome State Fault Refusal :=
  nodeCommand src w 0
    (fun s n => highBits w || cmdC w == 0 || gAddr w % s.tokenBytes src.slot n != 0 || n.queue.any fun c => cmdOp c.word == 0x06) s

/-- C.UNBIND at its port (R235). -/
def execCUnbind (src : CtxId) (w : CWord) (s : State) : Host.Outcome State Fault Refusal :=
  nodeCommand src w 0 (fun _ _ => cmdAB w != 0 || cmdC w != 0) s

/-- C.STREAM at its port (R236). -/
def execCStream (src : CtxId) (w : CWord) (s : State) : Host.Outcome State Fault Refusal :=
  nodeCommand src w 0 (fun s n => cmdC w != 0 || (cmdB w).toNat % s.tokenBytes src.slot n != 0) s

/-- The line count of C.PREF and C.FLUSH. -/
def lineCount (w : CWord) : Nat := (cmdC w).toNat

/-- C.PREF at its port (R239). -/
def execCPref (src : CtxId) (w : CWord) (s : State) : Host.Outcome State Fault Refusal :=
  nodeCommand src w 0 (fun _ _ => highBits w || gAddr w % 128 != 0 || lineCount w == 0 || decide (2 ^ 20 < lineCount w)) s

/-- C.FLUSH at its port (R240). -/
def execCFlush (src : CtxId) (w : CWord) (s : State) : Host.Outcome State Fault Refusal :=
  nodeCommand src w 1 (fun _ _ => highBits w || gAddr w % 128 != 0 || decide (2 ^ 20 < lineCount w)) s

/-! ### Convolutions (R237, R238) -/

/-- A convolution descriptor (R237). -/
structure Conv where
  base : Nat
  nb : Nat
  h : Nat
  w : Nat
  c : Nat
  fh : Nat
  fw : Nat
  sy : Nat
  sx : Nat
  pt : Nat
  pb : Nat
  pl : Nat
  pr : Nat
  padv : Nat
  pixg : Nat

/-- Field `i` of a word cut into fields of `k` bits. -/
def fieldOf (ws : List Nat) (word k i : Nat) : Nat := recWord ws word / 2 ^ (k * i) % 2 ^ k

/-- The descriptor that eight words hold. -/
def parseConv (ws : List Nat) : Conv :=
  { base := recWord ws 0, nb := fieldOf ws 1 16 0, h := fieldOf ws 1 16 1, w := fieldOf ws 1 16 2, c := fieldOf ws 1 16 3,
    fh := fieldOf ws 2 8 0, fw := fieldOf ws 2 8 1, sy := fieldOf ws 2 8 2, sx := fieldOf ws 2 8 3, pt := fieldOf ws 2 8 4,
    pb := fieldOf ws 2 8 5, pl := fieldOf ws 2 8 6, pr := fieldOf ws 2 8 7, padv := fieldOf ws 3 32 0,
    pixg := fieldOf ws 3 16 2 }

/-- OH. -/
def Conv.oh (d : Conv) : Nat := (d.h + d.pt + d.pb - d.fh) / d.sy + 1
/-- OW. -/
def Conv.ow (d : Conv) : Nat := (d.w + d.pl + d.pr - d.fw) / d.sx + 1
/-- T. -/
def Conv.taps (d : Conv) : Nat := d.fh * d.fw
/-- P. -/
def Conv.pixels (d : Conv) : Nat := d.nb * d.oh * d.ow
/-- B. -/
def Conv.bytes (d : Conv) : Nat := d.pixg * 8 * d.taps * d.c * 4

/-- A number lies outside a range. -/
def outside (v lo hi : Nat) : Bool := decide (v < lo) || decide (hi < v)

/-- SPOFF of a C.CONV. -/
def convOff (w : CWord) : Nat := (w.extractLsb' 64 17).toNat
/-- GSTART. -/
def convStart (w : CWord) : Nat := (w.extractLsb' 81 15).toNat

/-- A descriptor is refused: a range, a zero field, a filter larger than the padded input, a tile too large, no first pixel. -/
def convBad (ws : List Nat) (w : CWord) (limit : Nat) : Bool :=
  let d := parseConv ws
  decide (2 ^ 57 ≤ d.base) || d.base % 4 != 0 || d.nb == 0 || d.h == 0 || d.w == 0 || outside d.c 1 4096 || outside d.fh 1 16 ||
    outside d.fw 1 16 || outside d.sy 1 16 || outside d.sx 1 16 || decide (15 < d.pt) || decide (15 < d.pb) ||
    decide (15 < d.pl) || decide (15 < d.pr) || outside d.pixg 1 4096 || fieldOf ws 3 16 3 != 0 ||
    (ws.drop 4).any (fun v => v != 0) || decide (d.h + d.pt + d.pb < d.fh) || decide (d.w + d.pl + d.pr < d.fw) ||
    decide (32768 < d.bytes) || decide (limit < convOff w + d.bytes) || decide (d.pixels ≤ 8 * convStart w)

/-- C.CONV at its port (R237): the descriptor is read once, at acceptance. -/
def execCConv (src : CtxId) (w : CWord) (s : State) : Host.Outcome State Fault Refusal :=
  atPort src w 2 0 s fun x =>
    match s.node? src.slot (cmdIndex w) with
    | none => s.badCmd src x w
    | some n =>
      if highBits w || gAddr w % 64 != 0 then s.badCmd src x w
      else
        match s.span (some n.die) x.lease (gAddr w) 64 false with
        | .absent va => s.commandWaits src x w va
        | .refused cause sub detail va =>
          if freezes cause sub then s.engineFault (.memn src.slot (cmdIndex w)) cause sub va detail else s.refuseCmd src x w cause 0
        | .ok ps =>
          let (t, ws) := (s.engineFill n.die x.lease (gAddr w)).readWords ⟨x.lease, x.handle⟩ ps
          if convBad ws w ((t.cell? src.cell).elim 0 Cell.limit) || n.binding.isSome then t.badCmd src x w
          else t.enqueue (.memn src.slot (cmdIndex w)) (t.cmdEntry src x w ws)

/-- What one element of a patch is: a pixel past the batch, padding, or a word of the input (R238). -/
inductive PatchElem
  | past
  | pad
  | word (va : Nat)
deriving DecidableEq, Repr

/-- Element `i` of a patch, in the order of the tile (R238). -/
def Conv.elem (d : Conv) (start i : Nat) : PatchElem :=
  let row := i / 8
  let c := row % d.c
  let t := row / d.c % d.taps
  let p := 8 * (start + row / d.c / d.taps) + i % 8
  if d.pixels ≤ p then .past
  else
    let n := p / (d.oh * d.ow)
    let y := p % (d.oh * d.ow) / d.ow * d.sy + t / d.fw
    let x := p % d.ow * d.sx + t % d.fw
    if y < d.pt ∨ d.h ≤ y - d.pt ∨ x < d.pl ∨ d.w ≤ x - d.pl then .pad
    else .word (d.base + (((n * d.h + (y - d.pt)) * d.w + (x - d.pl)) * d.c + c) * 4)

/-- The elements of chunk `k` of a C.CONV. -/
def convElems (c : Cmd) (k : Nat) : List PatchElem :=
  let d := parseConv c.list
  (List.range (chunkLen d.bytes k / 4)).map fun i => d.elem (convStart c.word) (128 * k + i)

/-- The bytes of elements, those of the input words taken in order from what was read. -/
def patchBytes (padv : Nat) : List PatchElem → List Byte → List Byte
  | [], _ => []
  | .word _ :: es, bs => bs.take 4 ++ patchBytes padv es (bs.drop 4)
  | .past :: es, bs => leBytes 4 padv ++ patchBytes padv es bs
  | .pad :: es, bs => leBytes 4 padv ++ patchBytes padv es bs

/-- The words of the input that elements read, as pieces of one access. -/
def patchPieces (es : List PatchElem) : List (Nat × Nat × Nat) :=
  let vas := es.filterMap fun e => match e with
    | .word va => some va
    | .past | .pad => none
  vas.zipIdx.map fun p => (4 * p.2, p.1, 4)

/-- A chunk of a C.CONV (R238). -/
def State.convChunk (s : State) (slot idx : Nat) (n : MemNode) (c : Cmd) (k : Nat) (wait : Nat → Bool → State) : Chunk :=
  let d := parseConv c.list
  let es := convElems c k
  match s.access (some n.die) c.lease false (patchPieces es) with
  | .absent va => .waits (wait va false)
  | .refused cause sub detail va => .refused cause sub detail va
  | .ok ps =>
    let (t, bs) := (s.fillAll n.die c.lease ((patchPieces es).map fun p => p.2.1)).pull c.agent ps
    let u := t.streamPut c.src.cell (convOff c.word + 512 * k) (patchBytes d.padv es bs)
    .landed (if es.contains .past then u.modNode slot idx fun m => { m with status := m.status ||| 1#2 } else u) c.list

/-! ### Chunks (R224, R228, R238) -/

/-- The bytes that a copy command moves. -/
def Cmd.bytes (c : Cmd) : Nat := if cmdOp c.word = 0x06 then (parseConv c.list).bytes else moved c.word

/-- An engine waits for a page, and does its event again after service (R225, R389). -/
def State.engineWaits (s : State) (p : Port) (c : Cmd) (va : Nat) (write : Bool) (ev : Event) : State :=
  s.awaitPage c.lease va (s.pageRecord c.handle (s.portNode p) none va write false) ev

/-- A chunk's outcome taken: one that fails ends the command in error, or freezes the rectangle (R225). -/
def State.settleChunk (s : State) (p : Port) (c : Cmd) (k : Nat) : Chunk → State
  | .landed t list => t.chunkDone p c k c.bytes list
  | .waits t => t
  | .fails port => s.post (s.slotClass (portSlot p)) (.engineCommandError p c.id port)
  | .refused cause sub detail va =>
    if freezes cause sub then s.engineFault p cause sub va detail
    else s.post (s.slotClass (portSlot p)) (.engineCommandError p c.id cause)

/-- A chunk of a command moves. -/
def State.landChunk (s : State) (p : Port) (c : Cmd) (k : Nat) : State :=
  let wait := fun va write => s.engineWaits p c va write (.copyChunkLand p c.id k)
  match p with
  | .strm slot i => s.settleChunk p c k (s.strmChunk (s.strmDie slot i) c k wait)
  | .memn slot i =>
    match s.node? slot i with
    | some n => s.settleChunk p c k (s.convChunk slot i n c k wait)
    | none => s
  | .mrow _ _ => s

/-- The die of a port's engine; a row half has no chunks. -/
def State.portDie (s : State) : Port → Nat
  | .strm slot i => s.strmDie slot i
  | .memn slot i => (s.node? slot i).elim 0 MemNode.die
  | .mrow _ _ => 0

/-- The global words that a chunk reads or writes, as pieces of one access (R228, R230 to R233, R238). -/
def State.chunkPieces (s : State) (c : Cmd) (k : Nat) : List (Nat × Nat × Nat) :=
  let w := c.word
  let run := pieces (gAddr w + 512 * k) (chunkLen (moved w) k)
  match (cmdOp w).toNat with
  | 0x01 | 0x02 => run
  | 0x03 => gathPieces c k
  | 0x04 => (scatEntries w k (s.padGet c.src.cell (spOff w + 512 * k) (chunkLen (moved w) k))).map fun e => (0, scatAddr w e, elemBytes w)
  | 0x05 => if cflag0 w then run else []
  | _ => patchPieces (convElems c k)

/-- The slices to which a chunk's requests go, those whose pages are there. -/
def State.chunkSlices (s : State) (p : Port) (c : Cmd) (k : Nat) : List Nat :=
  ((s.chunkPieces c k).filterMap fun q => match s.engineLoc (some (s.portDie p)) c.lease q.2.1 false with
    | .found l => s.sliceOf l
    | .absent | .refused _ _ _ => none).eraseDups

/-- The chunks of a port whose requests are out before those of chunk `k` of a command. -/
def State.chunksAhead (s : State) (p : Port) (c : Cmd) (k : Nat) : List (Cmd × Nat) :=
  (s.portQueue p).flatMap fun d =>
    if d.started && decide (d.id ≤ c.id) then
      ((List.range (if d.id = c.id then k else chunks d.bytes)).filter fun j =>
        !d.sent.contains j && !s.waitsForPage (.copyChunkLand p d.id j)).map fun j => (d, j)
    else []

/-- A chunk holds one permit for each slice that it addresses, out of the 16 of its engine for a slice of its die and 4 for another; the
requests of chunks leave in their order (R353) (DEDUCED, log entry 24). -/
def State.chunkPermit (s : State) (p : Port) (c : Cmd) (k : Nat) : Bool :=
  let ahead := s.chunksAhead p c k
  decide (ahead.length < Config.enginePermits.2) || (s.chunkSlices p c k).all fun v =>
    decide ((ahead.filter fun q => (s.chunkSlices p q.1 q.2).contains v).length <
      if v / 64 = s.portDie p then Config.enginePermits.1 else Config.enginePermits.2)

/-- A chunk may land now: its engine works, it has its permits (R353), and no older C.COPYR merges into its words first (R230). -/
def State.chunkDue (s : State) (p : Port) (id k : Nat) : Bool :=
  s.portWorks p && (s.cmd? p id).all fun c => !s.copyrBefore c k && s.chunkPermit p c k

/-- COPY_CHUNK_LAND (R224, R228 to R233, R238). -/
def execCopyChunkLand (s : State) : Host.Outcome State Fault Refusal :=
  match s.net.hand with
  | some (.copyChunkLand p id k) =>
    if s.chunkDue p id k then withCmd s p id fun c => s.landChunk p c k else .fault .notDue
  | _ => .fault .notDue

/-! ### At the port of a row half (R246, R247) -/

/-- C.MMA at its port (R246). -/
def execCMma (src : CtxId) (w : CWord) (s : State) : Host.Outcome State Fault Refusal :=
  atPort src w 3 0 s fun x =>
    if highBits w || gAddr w % 64 != 0 || (cmdC w).toNat / 4 != 0 then s.badCmd src x w
    else s.enqueue (.mrow src.slot (cmdIndex w)) (s.cmdEntry src x w [])

/-- C.ACCSV and C.ACCLD at their port (R247). -/
def accCommand (src : CtxId) (w : CWord) (s : State) : Host.Outcome State Fault Refusal :=
  atPort src w 3 0 s fun x =>
    if highBits w || gAddr w % 128 != 0 || cmdC w &&& ~~~0xF1#32 != 0 then s.badCmd src x w
    else s.enqueue (.mrow src.slot (cmdIndex w)) (s.cmdEntry src x w [])

/-- C.ACCSV at its port (R247). -/
def execCAccsv (src : CtxId) (w : CWord) (s : State) : Host.Outcome State Fault Refusal := accCommand src w s
/-- C.ACCLD at its port (R247). -/
def execCAccld (src : CtxId) (w : CWord) (s : State) : Host.Outcome State Fault Refusal := accCommand src w s

/-! ### Which command starts (R222, R348) -/

/-- The command that a port starts next: a streamer overlaps its commands, another engine finishes one before the next. -/
def State.nextCmd (s : State) (p : Port) : Option Cmd :=
  match p with
  | .strm _ _ => (s.portQueue p).find? fun c => !c.started
  | .memn _ _ | .mrow _ _ => (s.portQueue p).head?.filter fun c => !c.started

/-- A port can start a command. -/
def State.startable (s : State) (p : Port) : Bool :=
  s.portWorks p && (s.nextCmd p).isSome && !s.waitsForPage (.engineCommandStart p)

/-- The ports that share an engine or an interface with a port: a streamer island, the eight contexts of an edge interface, a row half
of its own (R42, R348). -/
def State.rivals (s : State) (p : Port) : List Port :=
  match p with
  | .strm slot i =>
    let island := (s.strm? slot i).map Streamer.island
    (s.strms.filter fun q => some q.2.island == island).map fun q => .strm q.1.1 q.1.2
  | .memn slot i =>
    let face := (s.node? slot i).map fun n => n.context / 8
    (s.nodes.filter fun q => some (q.2.context / 8) == face).map fun q => .memn q.1.1 q.1.2
  | .mrow _ _ => [p]

/-- The key of a port's work (R348). -/
def State.portKey (s : State) (p : Port) : List Nat :=
  s.slotKey (portSlot p) (match p with
    | .strm _ _ | .memn _ _ => true
    | .mrow _ _ => false)

/-- A port's command starts now: no rival's key is before its own (R348). -/
def State.startDue (s : State) (p : Port) : Bool :=
  s.startable p && (s.rivals p).all fun q => !s.startable q || !keyBefore (s.portKey q) (s.portKey p)

/-! ### Start at a memory node (R222, R234 to R240, R335) -/

/-- A command leaves its queue with its token still to come. -/
def State.dropCmd (s : State) (p : Port) (c : Cmd) : State := s.setQueue p ((s.portQueue p).filter fun k => k.id != c.id)

/-- A command ends with BADCMD (R225). -/
def State.endBad (s : State) (p : Port) (c : Cmd) : State := s.endCmd p c (errorWord 0x07 0)

/-- The data format of a node (R335). -/
def State.nodeFmt (s : State) (slot : Nat) (n : MemNode) : Nat :=
  (s.mainEdge slot n).elim 0xFF fun e => if n.sink then e.fmtC else e.fmtP

/-- The format of the window that a place lies in (R270). -/
def State.windowFmt (s : State) (lease : Nat) (l : EngineLoc) : Option Nat :=
  match l with
  | .found (.dev ls a) => if ls = lease then (s.windowOf lease a).map Window.fmt else none
  | .found (.carve _ _) | .found (.host _) | .found (.remote _ _ _) | .absent | .refused _ _ _ => none

/-- A binding agrees with its node's format (R335). -/
def agrees (f : Nat) (win : Option Nat) : Bool := f == 0xFF || win == some f || (f != 0xF && win.isNone)

/-- A binding accepted (R20, R234): the binding that completes those of an ARMED rectangle starts it. -/
def State.acceptBind (s : State) (slot idx g count : Nat) (c : Option Cmd) : State :=
  let t := s.bindNode slot idx g count c
  if (t.rect? slot).any (fun r => r.state == .armed) && t.allBound slot then t.startRect slot else t

/-- A rectangle takes a binding (R234): it is ARMED or RUNNING. -/
def State.binds (s : State) (slot : Nat) : Bool := (s.rect? slot).any fun r => r.state == .armed || r.state == .running

/-- C.BIND at the head of its node's queue (R234, R335). -/
def State.startBind (s : State) (slot idx : Nat) (n : MemNode) (c : Cmd) : State :=
  let p : Port := .memn slot idx
  if !s.binds slot || n.binding.isSome then s.endBad p c
  else
    let loc := s.engineLoc (some n.die) c.lease (gAddr c.word) false
    if loc = .absent then s.engineWaits p c (gAddr c.word) false (.engineCommandStart p)
    else if agrees (s.nodeFmt slot n) (s.windowFmt c.lease loc) then
      ((s.engineFill n.die c.lease (gAddr c.word)).dropCmd p c).acceptBind slot idx (gAddr c.word) (lineCount c.word) (some c)
    else s.endCmd p c (errorWord 0x0C 0x05)

/-- C.UNBIND at the head of its node's queue (R235). -/
def State.startUnbind (s : State) (slot idx : Nat) (n : MemNode) (c : Cmd) : State :=
  let p : Port := .memn slot idx
  match n.binding with
  | some b =>
    if n.kind = 0 ∧ n.sink = false ∧ n.spent = false ∧ b.unbind = none then
      (s.dropCmd p c).modNode slot idx fun m => { m with binding := some { b with unbind := some c } }
    else s.endBad p c
  | none => s.endBad p c

/-- C.STREAM at the head of its node's queue (R236). -/
def State.startStream (s : State) (slot idx : Nat) (n : MemNode) (c : Cmd) : State :=
  let p : Port := .memn slot idx
  if n.binding.isSome then s.endBad p c
  else
    (s.endCmd p c 0).modNode slot idx fun m =>
      { m with rowLen := (cmdA c.word).toNat, rowStride := (cmdB c.word).toNat }

/-- C.CONV at the head of its node's queue (R237). -/
def State.startConv (s : State) (slot idx : Nat) (n : MemNode) (c : Cmd) : State :=
  let p : Port := .memn slot idx
  if n.binding.isSome then s.endBad p c
  else (s.modCmd p c.id fun k => { k with started := true }).postChunks p c c.bytes

/-- A line of device memory brought into the shared cache; no other line has a place there (R239). -/
def State.touchDev (s : State) (a : Agent) (l : Loc) : State :=
  match l with
  | .dev _ _ => s.touch a l false
  | .carve _ _ | .host _ | .remote _ _ _ => s

/-- The lines of a C.PREF (R239): the state, the lines skipped, and the cause, SUB, address and detail of an error. -/
def State.prefetch (s : State) (a : Agent) (die va : Nat) : Nat → State × Nat × Option (Nat × Nat × Nat × Nat)
  | 0 => (s, 0, none)
  | n + 1 =>
    match s.engineLoc (some die) a.lease va false with
    | .found l =>
      if s.damaged l 128 then (s, 0, some (dataError, 0, va, 0))
      else ((s.engineFill die a.lease va).touchDev a l).prefetch a die (va + 128) n
    | .absent => let (t, k, e) := s.prefetch a die (va + 128) n; (t, k + 1, e)
    | .refused cause sub detail =>
      if cause = 0x04 then (let (t, k, e) := s.prefetch a die (va + 128) n; (t, k + 1, e)) else (s, 0, some (cause, sub, va, detail))

/-- A command of a node begun, and its completion on its way. -/
def State.beginCmd (s : State) (p : Port) (c : Cmd) (list : List Nat) : State :=
  (s.modCmd p c.id fun k => { k with started := true, list := list }).post (s.slotClass (portSlot p))
    (.engineCommandComplete p c.id)

/-- C.PREF at the head of its node's queue (R239). -/
def State.startPref (s : State) (slot idx : Nat) (n : MemNode) (c : Cmd) : State :=
  let p : Port := .memn slot idx
  match s.prefetch c.agent n.die (gAddr c.word) (lineCount c.word) with
  | (t, _, some (cause, sub, va, detail)) => t.endRefused p c cause sub va detail
  | (t, 0, none) => t.beginCmd p c [0]
  | (t, k + 1, none) => (t.modNode slot idx fun m => { m with status := m.status ||| 2#2 }).beginCmd p c [k + 1]

/-- A line of the lease written back, and under INV dropped (R240, R420). -/
def State.flushLine (s : State) (a : Agent) (l : Loc) (inv : Bool) : State :=
  match s.homes.lines.find? fun k => k.loc == l.align 128 with
  | none => s
  | some k =>
    let lines := if inv then s.homes.lines.erase k
      else s.homes.lines.map fun j => if j = k then (⟨k.loc, false⟩ : CacheLine) else j
    let t := { s with homes := { s.homes with lines := lines } }
    if k.dirty then (t.count a.lease 0x022 a.handle 1).count a.lease 0x028 a.handle 1 else t

/-- C.FLUSH at the head of its node's queue (R240). -/
def State.startFlush (s : State) (slot idx : Nat) (n : MemNode) (c : Cmd) : State :=
  let p : Port := .memn slot idx
  match s.access (some n.die) c.lease false ((List.range (lineCount c.word)).map fun i => (i, gAddr c.word + 128 * i, 0)) with
  | .absent va => s.engineWaits p c va false (.engineCommandStart p)
  | .refused cause sub detail va => s.endRefused p c cause sub va detail
  | .ok ps => (ps.foldl (fun t q => t.flushLine c.agent q.2.1 (cflag0 c.word)) s).beginCmd p c []

/-- A memory node starts the command at the head of its queue. -/
def State.startNode (s : State) (slot idx : Nat) (c : Cmd) : State :=
  match s.node? slot idx with
  | none => s
  | some n =>
    match (cmdOp c.word).toNat with
    | 0x06 => s.startConv slot idx n c
    | 0x08 => s.startBind slot idx n c
    | 0x09 => s.startUnbind slot idx n c
    | 0x0A => s.startStream slot idx n c
    | 0x18 => s.startPref slot idx n c
    | _ => s.startFlush slot idx n c

/-! ### C.MMA (R246) -/

/-- SLOT of a matrix command. -/
def slotBit (w : CWord) : Nat := (cmdC w).toNat % 2
/-- ZERO of a C.MMA. -/
def zeroBit (w : CWord) : Bool := (cmdC w).getLsbD 1

/-- An accumulator slot of a row half. -/
def RowHalf.acc (r : RowHalf) (i : Nat) : Option AccSlot := r.slots.getD i none

/-- An accumulator put into a slot: FP64 occupies both (R246). -/
def RowHalf.putAcc (r : RowHalf) (i : Nat) (a : AccSlot) : RowHalf :=
  let wide := a.fmt = .f64 ∨ (r.acc 0).any fun b => b.fmt == .f64
  { r with slots := if wide then [none, none].set i (some a) else r.slots.set i (some a) }

/-- The image binds an operand queue of a matrix node (R246, R319). -/
def State.queueBound (s : State) (p : Port) (t : TileRec) : Bool :=
  let slot := portSlot p
  let node := s.portNode p
  (!t.qa || (s.inChan slot node 0).isSome) && (!t.qb || (s.inChan slot node 1).isSome) && (!t.qc || (s.outChan slot node 0).isSome)

/-- What a C.MMA starts from, or `none` where R246 ends it with BADCMD: its record, SLOT, ZERO, the resident accumulator. -/
def State.mmaStart (s : State) (p : Port) (r : RowHalf) (c : Cmd) (ws : List Nat) : Option AccSlot :=
  let t := parseTile ws
  match tileFmt t.fa t.fb t.fc with
  | none => none
  | some (f, _) =>
    if t.m ≠ 1 ∨ t.n ≠ 1 ∨ t.k = 0 ∨ t.acc ∨ recBad ws (!t.qa) (!t.qb) ∨ (slotBit c.word = 1 ∧ f = .f64) ∨ !s.queueBound p t then
      none
    else if zeroBit c.word then some (.zero f)
    else (r.acc (slotBit c.word)).filter fun a => a.fmt == f

/-- C.MMA at the head of its row half's queue (R246): the record is read there. -/
def State.startMma (s : State) (p : Port) (row : Nat) (r : RowHalf) (c : Cmd) : State :=
  let die := rowDie row
  match s.span (some die) c.lease (gAddr c.word) 64 false with
  | .absent va => s.engineWaits p c va false (.engineCommandStart p)
  | .refused cause sub detail va => s.endRefused p c cause sub va detail
  | .ok ps =>
    let (t, ws) := (s.engineFill die c.lease (gAddr c.word)).readWords c.agent ps
    match t.mmaStart p r c ws with
    | none => t.endBad p c
    | some a =>
      match t.fp4Windows (some die) c.lease (parseTile ws) with
      | .no => t.endCmd p c (errorWord 0 0x05)
      | .absent va => t.engineWaits p c va false (.engineCommandStart p)
      | .yes =>
        let u := t.modCmd p c.id fun k => { k with started := true, list := ws }
        u.setRow row { u.row row with work := some a, blocks := 0, ksteps := [], parts := [] }

/-! ### C.ACCSV and C.ACCLD (R247) -/

/-- The memory format of C.ACCSV and C.ACCLD. -/
def accTy (w : CWord) : Ty := Ty.ofCode (w.extractLsb' 68 4)

/-- A format pair that C.ACCSV allows. -/
def svPair (f : AccFmt) (t : Ty) : Bool :=
  match f with
  | .f32 => narrowOut t
  | .f64 => t == .f64
  | .i32 => t == .s32

/-- The accumulator format that C.ACCLD gives a memory format. -/
def ldFmt (t : Ty) : Option AccFmt :=
  if narrowOut t then some .f32 else if t = .f64 then some .f64 else if t = .s32 then some .i32 else none

/-- C.ACCSV at the head of its queue (R247). -/
def State.startSave (s : State) (p : Port) (row : Nat) (r : RowHalf) (c : Cmd) : State :=
  match (r.acc (slotBit c.word)).filter fun a => svPair a.fmt (accTy c.word) with
  | none => s.endBad p c
  | some a =>
    let t := accTy c.word
    match s.storeBlock c.agent (rowDie row) ((List.range 16).map fun i => (gAddr c.word + i * rowBytes t, a.rowBytes t i)) with
    | (.ok _, u) => u.beginCmd p c []
    | (.absent va, _) => s.engineWaits p c va true (.engineCommandStart p)
    | (.refused cause sub detail va, _) => s.endRefused p c cause sub va detail

/-- C.ACCLD at the head of its queue (R247). -/
def State.startLoad (s : State) (p : Port) (row : Nat) (c : Cmd) : State :=
  let t := accTy c.word
  match (ldFmt t).filter fun f => f != .f64 || slotBit c.word == 0 with
  | none => s.endBad p c
  | some f =>
    match s.loadRows c.agent (rowDie row) (rowBytes t) false (rowAddrs (gAddr c.word) (rowBytes t) 0 0) with
    | .absent va => s.engineWaits p c va false (.engineCommandStart p)
    | .refused cause sub detail va => s.endRefused p c cause sub va detail
    | .got u rows =>
      let a : AccSlot := ⟨f, (rows.flatMap (elemsOf t)).map fun v => BitVec.ofNat 64 (toAcc t f v)⟩
      (u.setRow row ((u.row row).putAcc (slotBit c.word) a)).beginCmd p c []

/-- A bound row half starts the command at the head of its queue. -/
def State.startRow (s : State) (p : Port) (row : Nat) (r : RowHalf) (c : Cmd) : State :=
  match (cmdOp c.word).toNat with
  | 0x11 => s.startMma p row r c
  | 0x12 => s.startSave p row r c
  | _ => s.startLoad p row c

/-- The access table of an engine refuses a command: the island serves no rectangle of its lease, its lease does not hold the row half, or
the node context is another rectangle's (R392). -/
def State.portRefusal (s : State) (p : Port) (c : Cmd) : Option Nat :=
  match p with
  | .strm slot i =>
    if (s.strm? slot i).all fun k => s.strms.any fun q => q.2.island == k.island && (s.rect? q.1.1).any fun r => r.lease == c.lease then none
    else some 0x42
  | .mrow slot i => if (s.boundRow slot i).all fun q => q.2.lease == c.lease then none else some 0x43
  | .memn slot _ => if s.handleOf slot = c.handle then none else some 0x44

/-- An engine starts its next command; a refusal by its access table freezes the issuing rectangle (R193, R392). -/
def State.startCmd (s : State) (p : Port) (c : Cmd) : State :=
  match s.portRefusal p c with
  | some kind => (s.dropCmd p c).refuse (.task c.lease c.handle ((s.ctx? c.src).elim 0xFFFF Ctx.node) c.src.ctx) 0x05 kind 0 kind
  | none =>
    match p with
    | .strm _ _ => s.startStrm p c
    | .memn slot i => s.startNode slot i c
    | .mrow slot i =>
      match s.boundRow slot i with
      | some (row, r) => s.startRow p row r c
      | none => s

/-- ENGINE_COMMAND_START (R222, R348). -/
def execEngineCommandStart (s : State) : Host.Outcome State Fault Refusal :=
  match s.net.hand with
  | some (.engineCommandStart p) =>
    match s.nextCmd p with
    | some c => if s.startDue p then .next (s.startCmd p c) else .fault .notDue
    | none => .fault .notDue
  | _ => .fault .notDue

/-! ### K-steps of a bound row half (R244, R246) -/

/-- The started C.MMA of a bound row half whose block is not complete. -/
def RowHalf.mma (r : RowHalf) : Option Cmd :=
  (r.queue.head?).filter fun c => c.started && cmdOp c.word == 0x11 && r.blocks == 0

/-- The tokens of one sub-block of a format in an operand queue: 256 elements in tokens of 32 bytes (R246). -/
def blockTokens (t : Ty) : Nat := t.width

/-- Whole data tokens at the head of a queue. -/
def Edge.takes (e : Edge) (n : Nat) : Bool :=
  decide (n ≤ e.buf.length) && (e.buf.take n).all fun t => t.committed && !t.isEos

/-- The rows of a sub-block whose lanes came in order. -/
def blockRows (t : Ty) (ls : List Lane) : List (List Lane) :=
  (List.range 16).map fun i => (ls.drop (i * (rowBytes t / 4))).take (rowBytes t / 4)

/-- An operand queue holds its sub-block. -/
def State.queueReady (s : State) (slot node j : Nat) (t : Ty) : Bool :=
  (s.inChan slot node j).any fun p => p.2.takes (blockTokens t)

/-- A sub-block taken from an operand queue: its slots return as credit (R77, R246). -/
def State.takeBlock (s : State) (slot node j : Nat) (t : Ty) : State × List (List Lane) :=
  match s.inChan slot node j with
  | none => (s, [])
  | some (k, e) =>
    let n := blockTokens t
    (((s.setEdge slot k { e with buf := e.buf.drop n }).post (creditClass e.buf) (.creditArrival slot k n)),
      blockRows t (e.tokensAt 0 n))

/-- The operands of the next K-step of a C.MMA that come from queues are there. -/
def State.operandsReady (s : State) (p : Port) (t : TileRec) : Bool :=
  let slot := portSlot p
  let node := s.portNode p
  (!t.qa || s.queueReady slot node 0 t.fa) && (!t.qb || s.queueReady slot node 1 t.fb)

/-- A C.MMA that ends in error on its way (R225): what its slot then holds is open. A refusal that freezes the rectangle leaves it as
it stands. -/
def State.failMma (s : State) (p : Port) (row : Nat) (c : Cmd) (acc : AccSlot) (cause sub va detail : Nat) : State :=
  if freezes cause sub then s.engineFault p cause sub va detail else
  let t := s.endCmd p c (errorWord cause 0)
  let lost := acc.map fun e => (Config.openWord (t.tick + e)).toNat % 2 ^ (if acc.fmt = .f64 then 64 else 32)
  (t.setRow row { (t.row row).putAcc (slotBit c.word) lost with work := none, blocks := 0, ksteps := [], parts := [] }).bump

/-- The block of a C.MMA is complete: written where WRITE is set, and the slot's (R246). -/
def State.finishMma (s : State) (p : Port) (row : Nat) (c : Cmd) (t : TileRec) (acc : AccSlot) : State :=
  let keep := fun (u : State) => u.setRow row { (u.row row).putAcc (slotBit c.word) acc with work := none, blocks := 1 }
  if t.write then
    match s.storeBlock c.agent (rowDie row) (t.outRows acc 0 0) with
    | (.ok _, u) => keep u
    | (.absent va, _) => s.engineWaits p c va true (.rowHalfKstep row)
    | (.refused cause sub detail va, _) => s.failMma p row c acc cause sub va detail
  else keep s

/-- Sub-blocks that come from memory are fetched; those of a queue come later. -/
def State.fetchBlock (s : State) (queued : Bool) (a : Agent) (die base ld : Nat) (t : Ty) (ks : Nat) : Loaded :=
  if queued then .got s []
  else s.loadRows a die (rowBytes t) (t == .fp4b) (rowAddrs base ld 0 (ks * rowBytes t))

/-- A K-step of a C.MMA: the operands of queues come in ascending order, so with one the K-steps are fetched so (R244, R246). -/
def State.mmaStep (s : State) (p : Port) (row : Nat) (c : Cmd) (acc : AccSlot) : State :=
  let r := s.row row
  let t := parseTile c.list
  let die := rowDie row
  let repro := (s.rect? (portSlot p)).any Rect.repro
  let ks := nextK s.tick (repro || t.qa || t.qb) t.k r.ksteps
  let slot := portSlot p
  let node := s.portNode p
  match s.fetchBlock t.qa c.agent die t.aAddr t.lda t.fa ks with
  | .absent va => s.engineWaits p c va false (.rowHalfKstep row)
  | .refused cause sub detail va => s.failMma p row c acc cause sub va detail
  | .got u as =>
    match u.fetchBlock t.qb c.agent die t.bAddr t.ldb t.fb ks with
    | .absent va => u.engineWaits p c va false (.rowHalfKstep row)
    | .refused cause sub detail va => u.failMma p row c acc cause sub va detail
    | .got v bs =>
      let (v1, qa) := if t.qa then v.takeBlock slot node 0 t.fa else (v, as)
      let (v2, qb) := if t.qb then v1.takeBlock slot node 1 t.fb else (v1, bs)
      let (w, next) := v2.applyStep row c.agent t repro acc ks qa qb
      if r.ksteps.length + 1 = t.k then w.finishMma p row c t next else w

/-- A bound row half goes on with its C.MMA. -/
def State.advanceMma (s : State) (slot idx row : Nat) (c : Cmd) : State :=
  let p : Port := .mrow slot idx
  let r := s.row row
  let t := parseTile c.list
  match r.work with
  | some acc => if r.ksteps.length = t.k then s.finishMma p row c t acc else s.mmaStep p row c acc
  | none => s

/-- A row half has a K-step, or the write of a block, to do. -/
def State.kstepDue (s : State) (row : Nat) : Bool :=
  let r := s.row row
  match r.bound with
  | some (slot, idx) =>
    let p : Port := .mrow slot idx
    r.mma.any fun c => s.portWorks p &&
      (r.ksteps.length == (parseTile c.list).k || s.operandsReady p (parseTile c.list))
  | none => s.blocksLeft row

/-- ROW_HALF_KSTEP (R244 to R246). -/
def execRowHalfKstep (s : State) : Host.Outcome State Fault Refusal :=
  match s.net.hand with
  | some (.rowHalfKstep row) =>
    if s.kstepDue row then
      match (s.row row).bound with
      | some (slot, idx) =>
        match (s.row row).mma with
        | some c => .next (s.advanceMma slot idx row c)
        | none => .fault .notDue
      | none =>
        match s.rowTask row with
        | some k => .next (s.advanceTask row k)
        | none => .fault .notDue
    else .fault .notDue
  | _ => .fault .notDue

/-! ### Completion (R224, R240, R246) -/

/-- The result tokens of a C.MMA with QC: 256 elements of its accumulator format (R246). -/
def resultTokens (a : AccSlot) : List (List Lane) :=
  splitTokens (blockTokens a.fmt.ty) ((lanesOfBytes noBand (16 * rowBytes a.fmt.ty / 4) 0 0
    ((List.range 16).flatMap fun i => a.rowBytes a.fmt.ty i)).map Prod.snd)

/-- Result tokens sent into the slots that the output edge holds credit for. -/
def State.sendResult (s : State) (slot k : Nat) (e : Edge) (ts : List (List Lane)) : State :=
  let cls := s.slotClass slot
  ts.foldl (fun t l => t.post cls (.channelTokenArrival slot k (.data l))) (s.setEdge slot k { e with free := e.free - ts.length })
    |>.post cls (.commitMarkArrival slot k ts.length)

/-- A C.MMA with QC goes on: tokens are sent as credit allows, and the command ends with the last of them. -/
def State.sendMma (s : State) (p : Port) (c : Cmd) (a : AccSlot) : State :=
  let slot := portSlot p
  match s.outChan slot (s.portNode p) 0 with
  | none => s.endCmd p c 0
  | some (k, e) =>
    let ts := resultTokens a
    let now := (ts.drop c.sent.length).take e.free
    let t := s.sendResult slot k e now
    if c.sent.length + now.length = ts.length then t.endCmd p c 0
    else t.modCmd p c.id fun d => { d with sent := List.range (c.sent.length + now.length) }

/-- A C.MMA whose block is complete can go on: it sends no result, or its edge holds credit. -/
def State.mmaDue (s : State) (p : Port) (c : Cmd) : Bool :=
  !(parseTile c.list).qc || (s.outChan (portSlot p) (s.portNode p) 0).all fun q => decide (0 < q.2.free)

/-- A bound row half completes a command. -/
def State.completeRow (s : State) (p : Port) (r : RowHalf) (c : Cmd) : State :=
  if cmdOp c.word = 0x11 ∧ (parseTile c.list).qc then
    match r.acc (slotBit c.word) with
    | some a => s.sendMma p c a
    | none => s.endCmd p c 0
  else s.endCmd p c 0

/-- The token value of a memory node's command that completes; C.FLUSH reads the status word, which is then cleared (R239, R240). -/
def State.completeNode (s : State) (slot idx : Nat) (c : Cmd) : State :=
  let p : Port := .memn slot idx
  match (cmdOp c.word).toNat with
  | 0x06 => s.endCmd p c (tileMask c.bytes)
  | 0x18 => s.endCmd p c (BitVec.ofNat 64 (c.list.headD 0))
  | _ =>
    let v := (s.node? slot idx).elim 0 fun n => n.status.setWidth 64
    (s.endCmd p c v).modNode slot idx fun m => { m with status := 0 }

/-- A command in hand completes. -/
def State.completeCmd (s : State) (p : Port) (c : Cmd) : State :=
  match p with
  | .strm _ _ => s.endCmd p c (tileMask c.bytes)
  | .memn slot i => s.completeNode slot i c
  | .mrow slot i =>
    match s.boundRow slot i with
    | some (_, r) => s.completeRow p r c
    | none => s

/-- A command has done its work: chunks and K-steps are complete, and credit is there for what it sends. -/
def State.completeDue (s : State) (p : Port) (c : Cmd) : Bool :=
  match p with
  | .strm _ _ => c.started && decide (chunks c.bytes ≤ c.sent.length)
  | .memn _ _ => c.started && (cmdOp c.word != 0x06 || decide (chunks c.bytes ≤ c.sent.length))
  | .mrow slot i =>
    c.started && (cmdOp c.word != 0x11 || ((s.boundRow slot i).any fun r => r.2.blocks == 1) && s.mmaDue p c)

/-- ENGINE_COMMAND_COMPLETE (R224, R239, R240, R246, R247). -/
def execEngineCommandComplete (s : State) : Host.Outcome State Fault Refusal :=
  match s.net.hand with
  | some (.engineCommandComplete p id) =>
    if (s.cmd? p id).all fun c => s.completeDue p c then withCmd s p id fun c => s.completeCmd p c else .fault .notDue
  | _ => .fault .notDue

end Sys2Proof.Machine
end

