-- ==== Sys2Proof/Machine/Images.lean ====
section
/-! DEFINITION. Graph images: their bytes (R124, R314 to R326) and checks 1 to 8 of a load (R328, R29, R76, R125, R321, R425). -/

namespace Sys2Proof.Machine

/-! ### Bytes -/

/-- The little-endian field of `n` bytes at an offset. -/
def fieldAt (bs : List Byte) (off n : Nat) : Nat := leNat ((bs.drop off).take n)

/-- A byte of a range is not zero. -/
def anyByte (bs : List Byte) (off stop : Nat) : Bool := ((bs.drop off).take (stop - off)).any fun b => b != 0

/-- The verdict of a check: it passes, or fails with a number, where there is one. -/
inductive Check
  | pass
  | fail (number : Option Nat)
deriving DecidableEq, Repr

/-- The first failing number of a table. -/
def failFirst (n : Nat) (bad : Nat → Bool) : Check :=
  match (List.range n).find? bad with
  | some i => .fail (some i)
  | none => .pass

/-- One check after another. -/
def Check.then (a b : Check) : Check :=
  match a with
  | .pass => b
  | .fail n => .fail n

/-! ### Check 1: the header, the tables and the parts (R314, R315) -/

/-- The header of an image (R314). -/
structure Header where
  w : Nat
  h : Nat
  total : Nat
  nn : Nat
  ne : Nat
  nc : Nat
  root : Nat
  nt : Nat
  nr : Nat
  nx : Nat
  nl : Nat
  offs : List Nat

/-- The header that the first 64 bytes hold. -/
def parseHeader (bs : List Byte) : Header :=
  { w := fieldAt bs 6 1, h := fieldAt bs 7 1, total := fieldAt bs 8 4, nn := fieldAt bs 0x0C 2, ne := fieldAt bs 0x0E 2,
    nc := fieldAt bs 0x10 2, root := fieldAt bs 0x12 2, nt := fieldAt bs 0x14 2, nr := fieldAt bs 0x16 2,
    nx := fieldAt bs 0x18 1, nl := fieldAt bs 0x19 1, offs := (List.range 6).map fun i => fieldAt bs (0x1C + 4 * i) 4 }

/-- The entries and the entry sizes of the six tables: nodes, edges, controllers, tasks, regions, exchange areas. -/
def Header.tables (d : Header) : List (Nat × Nat × Nat) :=
  List.zip [d.nn, d.ne, d.nc, d.nt, d.nr, d.nx] (List.zip [16, 16, 48, 4, 16, 4] d.offs)

/-- The offset of a table. -/
def Header.off (d : Header) (i : Nat) : Nat := d.offs.getD i 0

/-- The header breaks R314. -/
def headerBad (bs : List Byte) (d : Header) : Bool :=
  decide (bs.length < 64) || fieldAt bs 0 4 != 0x49474C4B || fieldAt bs 4 2 != 1 || outside d.w 1 128 || outside d.h 1 64 ||
    decide (d.total < 64) || d.total % 16 != 0 || decide (2 ^ 24 < d.total) || d.nn == 0 || decide (256 < d.nc) ||
    (if d.nc = 0 then d.root != 0xFFFF else decide (d.nc ≤ d.root)) || decide (4 * d.w * d.h < d.nt) || decide (1024 < d.nr) ||
    decide (64 < d.nx) || outside d.nl 1 255 || fieldAt bs 0x1A 2 != 0 || anyByte bs 0x34 0x40

/-- A task part as it lies in the image (R124): `stop` is one past its last byte. -/
structure Part where
  off : Nat
  codew : Nat
  cmdw : Nat
  cmdn : Nat
  recs : List DataRec
  stop : Nat

/-- `n` data records from an offset, and one past their last byte; `none` where they reach past the image. -/
def parseRecs (bs : List Byte) (total : Nat) : Nat → Nat → Option (List DataRec × Nat)
  | _, 0 => some ([], 0)
  | p, n + 1 =>
    let word := fieldAt bs (p + 4) 4
    let win := word.testBit 31
    let bytes := word % 2 ^ 31
    let next := p + 8 + (if win then 0 else bytes)
    if total < next then none
    else
      match parseRecs bs total next n with
      | some (rs, q) => some (⟨fieldAt bs p 4, bytes, win, if win then [] else (bs.drop (p + 8)).take bytes⟩ :: rs, max next q)
      | none => none

/-- The task part at an offset, if it lies within the image. -/
def parsePart (bs : List Byte) (total off : Nat) : Option Part :=
  if total < off + 24 then none
  else
    let codew := fieldAt bs (off + 8) 2
    let cmdw := fieldAt bs (off + 0x0C) 2
    let cmdn := fieldAt bs (off + 0x0E) 1
    let start := off + 24 + max (16 * cmdw) (4 * codew) + 16 * cmdn
    if total < start then none
    else
      match parseRecs bs total start (fieldAt bs (off + 0x10) 4) with
      | some (rs, q) => some ⟨off, codew, cmdw, cmdn, rs, max start q⟩
      | none => none

/-- The task parts in directory order (R324). -/
def parseParts (bs : List Byte) (d : Header) : Option (List Part) :=
  (List.range d.nt).mapM fun i => parsePart bs d.total (fieldAt bs (d.off 3 + 4 * i) 4)

/-- A span put in its place by its start. -/
def insertSpan (s : Nat × Nat) : List (Nat × Nat) → List (Nat × Nat)
  | [] => [s]
  | t :: ts => if s.1 < t.1 then s :: t :: ts else t :: insertSpan s ts

/-- Spans that start off a multiple of 16 or overlap, or bytes between them that are not zero (R315). -/
def spansBad (bs : List Byte) (total : Nat) : Nat → List (Nat × Nat) → Bool
  | stop, [] => anyByte bs stop total
  | stop, (a, b) :: ss => a % 16 != 0 || decide (a < stop) || anyByte bs stop a || spansBad bs total b ss

/-- Check 1: the parts of an image that passes it. -/
def check1 (bs : List Byte) (d : Header) : Option (List Part) :=
  if headerBad bs d then none
  else if d.tables.any fun t => (t.1 == 0) != (t.2.2 == 0) || decide (d.total < t.2.2 + t.1 * t.2.1) then none
  else
    match parseParts bs d with
    | none => none
    | some ps =>
      let spans := (0, 64) :: ((d.tables.filter fun t => t.1 != 0).map fun t => (t.2.2, t.2.2 + t.1 * t.2.1)) ++
        ps.map fun p => (p.off, p.stop)
      if spansBad bs d.total 0 (spans.foldl (fun acc s => insertSpan s acc) []) then none else some ps

/-! ### Check 3: nodes (R37, R316, R317, R425) -/

/-- A node entry's fields (R316). -/
structure NodeRaw where
  kind : Nat
  attr : Nat
  col : Nat
  row : Nat
  ref : Nat
  leaf : Nat
  index : Nat
  param : Nat

/-- Node entry `i`. -/
def parseNode (bs : List Byte) (d : Header) (i : Nat) : NodeRaw :=
  let b := d.off 0 + 16 * i
  ⟨fieldAt bs b 1, fieldAt bs (b + 1) 1, fieldAt bs (b + 2) 1, fieldAt bs (b + 3) 1, fieldAt bs (b + 4) 2, fieldAt bs (b + 6) 1,
    fieldAt bs (b + 7) 1, fieldAt bs (b + 8) 8⟩

/-- The node table. -/
def parseNodes (bs : List Byte) (d : Header) : List NodeRaw := (List.range d.nn).map (parseNode bs d)

/-- Columns and rows of a crew of 2^k cells (R37). -/
def crewDims : Nat → Nat × Nat
  | 0 => (1, 1)
  | 1 => (2, 1)
  | 2 => (2, 2)
  | 3 => (4, 2)
  | _ => (4, 4)

/-- An actor. -/
def NodeRaw.actor (n : NodeRaw) : Bool := n.kind == 1 || n.kind == 2
/-- A memory, matrix or streamer node. -/
def NodeRaw.engine (n : NodeRaw) : Bool := n.kind == 3 || n.kind == 4 || n.kind == 5
/-- log2 of the cells of an actor. -/
def NodeRaw.crew (n : NodeRaw) : Nat := if n.kind = 2 then n.attr / 4 % 8 else 0
/-- An actor with a fixed position. -/
def NodeRaw.fixed (n : NodeRaw) : Bool := n.actor && n.col != 0xFF
/-- Two footprints share a cell. -/
def overlaps (c r : Nat) (k : Nat) (c' r' : Nat) (k' : Nat) : Bool :=
  meets c (crewDims k).1 c' (crewDims k').1 && meets r (crewDims k).2 r' (crewDims k').2

/-- Two fixed actors share a cell. -/
def NodeRaw.shares (a b : NodeRaw) : Bool := a.fixed && b.fixed && overlaps a.col a.row a.crew b.col b.row b.crew
/-- Two fixed actors share one footprint (R425). -/
def NodeRaw.sameFoot (a b : NodeRaw) : Bool := a.fixed && b.fixed && a.col == b.col && a.row == b.row && a.crew == b.crew

/-- An actor's entry is wrong in itself. -/
def actorBad (d : Header) (n : NodeRaw) : Bool :=
  let k := n.attr / 4 % 8
  (n.col == 0xFF) != (n.row == 0xFF) || decide (d.nt ≤ n.ref) || decide (d.nl ≤ n.leaf) || n.index != 0xFF || n.param != 0 ||
    (if n.kind = 1 then n.attr / 4 != 0 else outside k 1 4 || n.attr / 32 != 0) ||
    (n.fixed && (n.col % (crewDims n.crew).1 != 0 || n.row % (crewDims n.crew).2 != 0 || decide (d.w < n.col + (crewDims n.crew).1) ||
      decide (d.h < n.row + (crewDims n.crew).2)))

/-- The token size of node `i`: that of its first edge (R317), and 4 bytes without one: DESIGN CHOICE (log entry 123). -/
def tokenSize (es : List EdgeE) (i : Nat) : Nat :=
  match es.find? fun e => e.src == i || e.dst == i with
  | some e => if e.vec then 32 else 4
  | none => 4

/-- An engine node's entry is wrong in itself (R317). -/
def engineBad (d : Header) (n : NodeRaw) (z : Nat) : Bool :=
  let mode := n.attr % 4
  n.col != 0xFF || n.row != 0xFF || n.ref != 0xFFFF || decide (d.nl ≤ n.leaf) || decide (15 < n.index) ||
    (if n.kind = 3 then
      decide (7 < n.attr) || mode == 3 || (mode != 0 && n.attr.testBit 2) ||
        (match mode with
         | 0 => decide (2 ^ 32 ≤ n.param) || n.param % z != 0
         | 1 => n.param != 0
         | _ => decide (7 < n.param) && n.param != 0xA)
     else n.attr != 0 || n.param != 0)

/-- A control node's entry is wrong in itself. -/
def controlBad (d : Header) (n : NodeRaw) : Bool :=
  n.col != 0xFF || n.row != 0xFF || decide (d.nc ≤ n.ref) || n.leaf != 0xFF || n.index != 0xFF || n.attr != 0 || n.param != 0

/-- Node `i` fails check 3, by itself or against an earlier one. -/
def nodeBad (d : Header) (ns : List NodeRaw) (es : List EdgeE) (i : Nat) : Bool :=
  match ns[i]? with
  | none => false
  | some n =>
    let before := ns.take i
    if n.actor then
      actorBad d n || (before.any fun m => m.actor && m.ref == n.ref) || (before.any fun m => m.shares n && !m.sameFoot n) ||
        decide (4 ≤ (before.filter fun m => m.sameFoot n).length)
    else if n.engine then engineBad d n (tokenSize es i) || before.any fun m => m.kind == n.kind && m.index == n.index
    else if n.kind = 6 then controlBad d n || before.any fun m => m.kind == 6 && m.ref == n.ref
    else true

/-! ### Check 4: edges (R29, R76, R318, R320, R321) -/

/-- Edge entry `i` (R320). -/
def parseEdge (bs : List Byte) (d : Header) (i : Nat) : EdgeE :=
  let b := d.off 1 + 16 * i
  let ports := fieldAt bs (b + 6) 1
  let flags := fieldAt bs (b + 7) 1
  { number := fieldAt bs b 2, src := fieldAt bs (b + 2) 2, srcPort := ports / 16 % 8, dst := fieldAt bs (b + 4) 2,
    dstPort := ports % 8, vec := flags.testBit 0, cutPoint := flags.testBit 1, cap := fieldAt bs (b + 8) 2,
    fmtP := fieldAt bs (b + 0x0A) 1, fmtC := fieldAt bs (b + 0x0B) 1, prate := fieldAt bs (b + 0x0C) 2,
    crate := fieldAt bs (b + 0x0E) 2 }

/-- The edge table. -/
def parseEdges (bs : List Byte) (d : Header) : List EdgeE := (List.range d.ne).map (parseEdge bs d)

/-- A zero bit of edge entry `i` is set. -/
def edgeZeros (bs : List Byte) (d : Header) (i : Nat) : Bool :=
  let b := d.off 1 + 16 * i
  fieldAt bs (b + 6) 1 / 8 % 2 != 0 || fieldAt bs (b + 6) 1 / 128 != 0 || fieldAt bs (b + 7) 1 / 4 != 0

/-- A node has the port, and its tokens are of the edge's kind (R318). -/
def portOk (n : NodeRaw) (out : Bool) (port : Nat) (vec : Bool) : Bool :=
  match n.kind with
  | 1 | 2 => true
  | 3 =>
    port == 0 &&
      (match n.attr % 4 with
       | 0 => out != n.attr.testBit 2
       | 1 => out || !vec
       | _ => vec)
  | 4 => vec && (if out then port == 0 else decide (port ≤ 1))
  | _ => false

/-- A port's rate is within bounds (R29, R318). -/
def rateOk (n : NodeRaw) (r : Nat) : Bool := if n.actor then decide (r ≤ 4096) else r == 1

/-- Two nodes bind channels of one cell: one node, or fixed actors of one footprint (R29). -/
def sameHome (ns : List NodeRaw) (a b : Nat) : Bool :=
  a == b || (match ns[a]?, ns[b]? with
    | some n, some m => n.sameFoot m
    | _, _ => false)

/-- The bytes of a channel buffer that an edge takes (R76). -/
def EdgeE.bufBytes (e : EdgeE) : Nat := e.cap * (if e.vec then 32 else 4)

/-- A format field of an edge names no type code. -/
def fmtBad (f : Nat) : Bool := decide (15 < f) && f != 0xFF

/-- Edge `i` fails check 4, by itself or against an earlier one. -/
def edgeBad (bs : List Byte) (d : Header) (ns : List NodeRaw) (es : List EdgeE) (i : Nat) : Bool :=
  match es[i]? with
  | none => false
  | some e =>
    let before := es.take i
    edgeZeros bs d i || decide (65534 < e.number) || (before.any fun f => decide (e.number ≤ f.number)) || outside e.cap 1 8192 ||
      fmtBad e.fmtP || fmtBad e.fmtC || decide (e.cap < e.prate) || decide (e.cap < e.crate) ||
      (match ns[e.src]?, ns[e.dst]? with
       | some p, some c =>
         !portOk p true e.srcPort e.vec || !portOk c false e.dstPort e.vec || !rateOk p e.prate || !rateOk c e.crate ||
           (c.actor && decide (32768 < e.bufBytes +
             ((before.filter fun f => sameHome ns f.dst e.dst).map EdgeE.bufBytes).foldl (· + ·) 0))
       | _, _ => true) ||
      before.any fun f => (sameHome ns f.src e.src && f.srcPort == e.srcPort) || (sameHome ns f.dst e.dst && f.dstPort == e.dstPort)

/-- The nodes that edges lead to from a set, after `n` rounds. -/
def reachable (es : List EdgeE) : Nat → List Nat → List Nat
  | 0, ks => ks
  | n + 1, ks =>
    let more := ((es.filter fun e => ks.contains e.src && !ks.contains e.dst).map EdgeE.dst).eraseDups
    if more.isEmpty then ks else reachable es n (ks ++ more)

/-- An edge lies on a directed cycle (R321). -/
def onCycle (es : List EdgeE) (e : EdgeE) : Bool := (reachable es es.length [e.dst]).contains e.src

/-- Check 4: the failing edge's number. -/
def check4 (bs : List Byte) (d : Header) (ns : List NodeRaw) (es : List EdgeE) : Check :=
  match (List.range d.ne).find? (edgeBad bs d ns es) with
  | some i => .fail ((es[i]?).map EdgeE.number)
  | none =>
    match es.find? (onCycle es) with
    | some e => .fail (some e.number)
    | none => .pass

/-! ### Check 5: leaves and controllers (R322, R323) -/

/-- The labels of nodes after each edge's ends took the lower of their two. -/
def joinLabels (es : List EdgeE) (ls : List Nat) : List Nat :=
  es.foldl (fun acc e =>
    let m := min (acc.getD e.src 0) (acc.getD e.dst 0)
    (acc.set e.src m).set e.dst m) ls

/-- Labels joined until they no longer change. -/
def settleLabels (es : List EdgeE) : Nat → List Nat → List Nat
  | 0, ls => ls
  | n + 1, ls => let ms := joinLabels es ls; if ms = ls then ls else settleLabels es n ms

/-- The lowest node of each node's connected part. -/
def components (ns : List NodeRaw) (es : List EdgeE) : List Nat := settleLabels es ns.length (List.range ns.length)

/-- The lowest nodes of the leaves, rising. -/
def leafHeads (ns : List NodeRaw) (ls : List Nat) : List Nat :=
  (List.range ns.length).filter fun i => ls.getD i 0 == i && (ns[i]?).any fun n => n.kind != 6

/-- Check 5 on leaves: their number, and each node's (R322). -/
def leavesCheck (d : Header) (ns : List NodeRaw) (es : List EdgeE) : Check :=
  let ls := components ns es
  let heads := leafHeads ns ls
  let bad := (List.range ns.length).find? fun i =>
    (ns[i]?).any fun n => n.kind != 6 && (heads.findIdx? fun h => h == ls.getD i 0) != some n.leaf
  match bad with
  | some i => .fail (some i)
  | none => if heads.length ≠ d.nl ∨ (d.nc = 0 ∧ d.nl ≠ 1) then .fail none else .pass

/-- A CHILD entry (R323). -/
def childOf (v : Nat) : Child := if v.testBit 15 then .ctl (v % 2 ^ 15) else .leaf (v % 256)

/-- CHILD entry `k` of controller `i`. -/
def childWord (bs : List Byte) (d : Header) (i k : Nat) : Nat := fieldAt bs (d.off 2 + 48 * i + 16 + 2 * k) 2

/-- Controller entry `i` (R323). -/
def parseCtl (bs : List Byte) (d : Header) (i : Nat) : CtlE :=
  let b := d.off 2 + 48 * i
  { mode := fieldAt bs b 1, children := (List.range (min 16 (fieldAt bs (b + 1) 1))).map fun k => childOf (childWord bs d i k),
    depth := fieldAt bs (b + 2) 1, operand := fieldAt bs (b + 3) 1 == 1, runs := fieldAt bs (b + 4) 4, node := fieldAt bs (b + 8) 2 }

/-- A CHILD entry in use is wrong in itself. -/
def childBad (d : Header) (v : Nat) : Bool :=
  if v.testBit 15 then decide (d.nc ≤ v % 2 ^ 15) else decide (d.nl ≤ v)

/-- Controller entry `i` is wrong in itself (R323). -/
def ctlBad (bs : List Byte) (d : Header) (ns : List NodeRaw) (i : Nat) : Bool :=
  let b := d.off 2 + 48 * i
  let e := parseCtl bs d i
  let kids := fieldAt bs (b + 1) 1
  decide (2 < e.mode) || outside kids 1 16 || (if e.mode = 1 then outside e.depth 2 8 else e.depth != 0) ||
    decide (1 < fieldAt bs (b + 3) 1) || (if e.operand then e.runs != 0 else e.runs == 0) || anyByte bs (b + 10) (b + 16) ||
    ((List.range 16).any fun k => if k < kids then childBad d (childWord bs d i k) else childWord bs d i k != 0xFFFF) ||
    !(ns[e.node]?).any fun n => n.kind == 6 && n.ref == i

/-- A controller names the root, or a child that an earlier entry names. -/
def childTwice (root : Nat) (cs : List CtlE) (i : Nat) : Bool :=
  let all := fun (n : Nat) => (cs.take n).flatMap CtlE.children
  let mine := ((cs[i]?).map CtlE.children).getD []
  mine.any fun c => c == .ctl root || decide (1 < (all (i + 1)).count c)

/-- The controllers on a level of the tree. -/
def levelBelow (cs : List CtlE) (ks : List Nat) : List Nat :=
  ks.flatMap fun i => ((cs[i]?).map CtlE.children).getD [] |>.filterMap fun c => match c with
    | .ctl n => some n
    | .leaf _ => none

/-- The controllers of the first `n` levels, and those of the level after. -/
def levels (cs : List CtlE) : Nat → List Nat → List Nat × List Nat
  | 0, ks => ([], ks)
  | n + 1, ks => let (up, rest) := levels cs n (levelBelow cs ks); (ks ++ up, rest)

/-- The tree of controllers is not one (R323). -/
def treeCheck (d : Header) (cs : List CtlE) : Check :=
  let (tree, deep) := levels cs 16 [d.root]
  (failFirst d.nc (childTwice d.root cs)).then
    (match deep with
     | i :: _ => .fail (some i)
     | [] =>
       (failFirst d.nc fun i => !tree.contains i).then
         (if (List.range d.nl).any fun n => !(cs.flatMap CtlE.children).contains (.leaf n) then .fail none else .pass))

/-- Check 5. -/
def check5 (bs : List Byte) (d : Header) (ns : List NodeRaw) (es : List EdgeE) (cs : List CtlE) : Check :=
  (leavesCheck d ns es).then ((failFirst d.nc (ctlBad bs d ns)).then (if d.nc = 0 then .pass else treeCheck d cs))

/-! ### Check 6: tasks (R124, R125, R324) -/

/-- Words of four bytes. -/
def codeWords (n : Nat) (bs : List Byte) : List IWord := (wordsOf 4 n bs).map fun v => BitVec.ofNat 32 v

/-- A task part's contents (R124): its window is its code, the padding and the command table (R125). -/
def taskOf (bs : List Byte) (p : Part) : TaskE :=
  { actor := fieldAt bs p.off 2, cls := fieldAt bs (p.off + 2) 1, crew := fieldAt bs (p.off + 3) 1, budget := fieldAt bs (p.off + 4) 4,
    codew := p.codew, entry := fieldAt bs (p.off + 10) 2, cmdw := p.cmdw, cmdn := p.cmdn,
    window := codeWords (4 * (p.cmdw + p.cmdn)) (bs.drop (p.off + 24)), data := p.recs }

/-- Bytes of a code window (R125). -/
def TaskE.windowBytes (t : TaskE) : Nat := 16 * (t.cmdw + t.cmdn)

/-- The offsets that a task's data records cover. -/
def TaskE.spans (t : TaskE) : List (Nat × Nat) := (t.data.filter fun r => r.bytes != 0).map fun r => (r.off, r.bytes)

/-- Two spans of a list share an offset. -/
def anyMeet : List (Nat × Nat) → Bool
  | [] => false
  | s :: ss => (ss.any fun t => meets s.1 s.2 t.1 t.2) || anyMeet ss

/-- The actor of a task. -/
def actorOf (ns : List NodeRaw) (i : Nat) : Option (Nat × NodeRaw) :=
  ((List.range ns.length).filterMap fun k => (ns[k]?).map fun n => (k, n)).find? fun p => p.2.actor && p.2.ref == i

/-- A task part is wrong in itself (R124, R324). -/
def partBad (bs : List Byte) (ns : List NodeRaw) (t : TaskE) (p : Part) (i : Nat) : Bool :=
  match actorOf ns i with
  | none => true
  | some (k, n) =>
    t.actor != k || t.cls != n.attr % 4 || t.crew != n.crew || outside t.budget 1 (2 ^ 24) || outside t.codew 1 4096 ||
      decide (t.codew ≤ t.entry) || t.cmdw != (t.codew * 4 + 15) / 16 || decide (16 < t.cmdn) || fieldAt bs (p.off + 0x0F) 1 != 0 ||
      fieldAt bs (p.off + 0x14) 4 != 0 || anyByte bs (p.off + 24 + 4 * t.codew) (p.off + 24 + 16 * t.cmdw) ||
      (t.data.any fun r => r.off % 8 != 0 || r.bytes % 8 != 0 || decide (Config.padBytes < r.off + r.bytes)) || anyMeet t.spans

/-- The tasks of earlier entries whose actors share a fixed footprint with task `i`'s, its own included. -/
def tasksHere (ns : List NodeRaw) (ts : List TaskE) (i : Nat) : List TaskE :=
  match actorOf ns i with
  | none => []
  | some (_, n) =>
    ((List.range (i + 1)).filter fun j => (actorOf ns j).any fun q => q.2.sameFoot n).filterMap fun j => ts[j]?

/-- The windows or the data records of a fixed cell's tasks do not fit together (R125, R324). -/
def cellBad (ns : List NodeRaw) (ts : List TaskE) (i : Nat) : Bool :=
  let here := tasksHere ns ts i
  decide (16384 < (here.map TaskE.windowBytes).foldl (· + ·) 0) || anyMeet (here.flatMap TaskE.spans)

/-- Check 6. -/
def check6 (bs : List Byte) (d : Header) (ns : List NodeRaw) (ps : List Part) (ts : List TaskE) : Check :=
  failFirst d.nt fun i =>
    match ts[i]?, ps[i]? with
    | some t, some p => partBad bs ns t p i || cellBad ns ts i
    | _, _ => true

/-! ### Checks 7 and 8: regions and exchange areas (R325, R326) -/

/-- Region record `i`: slot and bytes (R325). -/
def parseRegion (bs : List Byte) (d : Header) (i : Nat) : Nat × Nat :=
  (fieldAt bs (d.off 4 + 16 * i) 2, fieldAt bs (d.off 4 + 16 * i + 8) 8)

/-- Region record `i` is wrong in itself. -/
def regionBad (bs : List Byte) (d : Header) (i : Nat) : Bool :=
  let r := parseRegion bs d i
  decide (1023 < r.1) || anyByte bs (d.off 4 + 16 * i + 2) (d.off 4 + 16 * i + 8) || outside r.2 1 (2 ^ 50)

/-- Exchange area `i` (R326). -/
def parseArea (bs : List Byte) (d : Header) (i : Nat) : Nat × Nat × Nat × Nat :=
  let b := d.off 5 + 4 * i
  (fieldAt bs b 1, fieldAt bs (b + 1) 1, fieldAt bs (b + 2) 1, fieldAt bs (b + 3) 1)

/-- Exchange area `i` leaves the rectangle or is empty. -/
def areaBad (bs : List Byte) (d : Header) (i : Nat) : Bool :=
  let (c, r, w, h) := parseArea bs d i
  w == 0 || h == 0 || decide (d.w < c + w) || decide (d.h < r + h)

/-- A cell lies in an exchange area. -/
def inAreas (xs : List (Nat × Nat × Nat × Nat)) (col row : Nat) : Bool :=
  xs.any fun a => decide (a.1 ≤ col) && decide (col < a.1 + a.2.2.1) && decide (a.2.1 ≤ row) && decide (row < a.2.1 + a.2.2.2)

/-- A task's records reach past the half of an exchange-mode cell (R70). -/
def TaskE.pastHalf (t : TaskE) : Bool := t.data.any fun r => decide (Config.halfBytes < r.off + r.bytes)

/-- Check 8, for actors with a fixed position. -/
def check8 (d : Header) (ns : List NodeRaw) (ts : List TaskE) (xs : List (Nat × Nat × Nat × Nat)) : Check :=
  failFirst d.nt fun i =>
    match actorOf ns i, ts[i]? with
    | some (_, n), some t => n.fixed && inAreas xs n.col n.row && t.pastHalf
    | _, _ => false

/-! ### The image that passed (R313) -/

/-- A node as Wyell holds it. -/
def NodeRaw.node (n : NodeRaw) : NodeE :=
  { kind := (match n.kind with
      | 1 => .cell
      | 2 => .crew
      | 3 => .mem
      | 4 => .mat
      | 5 => .strm
      | _ => .ctl),
    cls := n.attr % 4, crew := n.crew, memKind := n.attr % 4, sink := n.kind == 3 && n.attr.testBit 2,
    pos := if n.fixed then some (n.col, n.row) else none, ref := n.ref, leaf := n.leaf, index := n.index,
    stride := if n.kind = 3 ∧ n.attr % 4 = 0 then n.param else 0, fn := if n.kind = 3 ∧ n.attr % 4 = 2 then n.param else 0 }

/-- The checks of R328 but for the placement: the failing check and its number, or the image. `shape` is the shape that a launch
names, and `regions` the part of check 7 that depends on the lease's region table. -/
def readImage (bs : List Byte) (shape : Option (Nat × Nat)) (regions : List (Nat × Nat) → Check) :
    Except (Nat × Option Nat) Image :=
  let d := parseHeader bs
  match check1 bs d with
  | none => .error (1, none)
  | some ps =>
    let ns := parseNodes bs d
    let es := parseEdges bs d
    let cs := (List.range d.nc).map (parseCtl bs d)
    let ts := ps.map (taskOf bs)
    let rs := (List.range d.nr).map (parseRegion bs d)
    let xs := (List.range d.nx).map (parseArea bs d)
    let wrong := fun (k : Nat) (c : Check) (next : Except (Nat × Option Nat) Image) => match c with
      | .fail n => Except.error (k, n)
      | .pass => next
    wrong 2 (if shape.all fun p => p == (d.w, d.h) then .pass else .fail none) <|
    wrong 3 (failFirst d.nn (nodeBad d ns es)) <|
    wrong 4 (check4 bs d ns es) <|
    wrong 5 (check5 bs d ns es cs) <|
    wrong 6 (check6 bs d ns ps ts) <|
    wrong 7 ((failFirst d.nr (regionBad bs d)).then ((regions rs).then (failFirst d.nx (areaBad bs d)))) <|
    wrong 8 (check8 d ns ts xs) <|
    .ok { w := d.w, h := d.h, total := d.total, nodes := ns.map NodeRaw.node, edges := es, ctls := cs,
          root := if d.nc = 0 then none else some d.root, tasks := ts, regions := rs, xch := xs, nleaf := d.nl,
          digest := sha384 (bs.take d.total) }

/-- The memory nodes' own end of an edge: the token size of node `i` (R234, R319), and the format of its data (R335). -/
def Image.memEdge (im : Image) (i : Nat) : Option EdgeE :=
  match im.nodes[i]? with
  | none => none
  | some n => if n.sink then im.edges.find? fun e => e.dst == i && e.dstPort == 0 else im.edges.find? fun e => e.src == i && e.srcPort == 0

end Sys2Proof.Machine
end

