-- ==== Sys2Proof/Machine/Mapper.lean ====
section
/-! DEFINITION. The Wyell mapper (R331 to R333, R337): areas, placements, engine bindings, drain bounds and the placement cache; the
region table of a lease (R297, R325); the units of a rectangle as a load writes them (R61, R70, R71, R77, R316 to R326). -/

namespace Sys2Proof.Machine

/-! ### Placement (R29, R37, R76, R125, R324, R331, R425) -/

/-- A list turned so that entry `n` comes first. -/
def turned {α : Type} (n : Nat) (l : List α) : List α := l.drop (n % l.length) ++ l.take (n % l.length)

/-- An actor or a control node to be placed: its crew (none for a control node), its fixed position and context number, what its
task takes of a cell. -/
structure Job where
  node : Nat
  crew : Option Nat
  pos : Option (Nat × Nat)
  ctx : Option Nat
  window : Nat
  spans : List (Nat × Nat)
  ports : List (Bool × Nat)
  buf : Nat
  pastHalf : Bool

/-- A job placed: column, row and context. -/
structure Put where
  col : Nat
  row : Nat
  ctx : Nat
  job : Job

/-- The ports that a node's edges bind at its cell: output ports and input ports (R29). -/
def Image.portsOf (im : Image) (i : Nat) : List (Bool × Nat) :=
  ((im.edges.filter fun e => e.src == i).map fun e => (true, e.srcPort)) ++
    (im.edges.filter fun e => e.dst == i).map fun e => (false, e.dstPort)

/-- The bytes of channel buffers that a node's input edges take (R76). -/
def Image.bufOf (im : Image) (i : Nat) : Nat := ((im.edges.filter fun e => e.dst == i).map EdgeE.bufBytes).foldl (· + ·) 0

/-- The task of an actor. -/
def Image.taskOf (im : Image) (i : Nat) : Option TaskE :=
  (im.nodes[i]?).bind fun n => if n.kind = .cell ∨ n.kind = .crew then im.tasks[n.ref]? else none

/-- What has to be placed of node `i`; `ctx` fixes a context number (R336). -/
def Image.job (im : Image) (ctx : Nat → Option Nat) (i : Nat) : Option Job :=
  (im.nodes[i]?).bind fun n =>
    match n.kind with
    | .cell | .crew =>
      (im.taskOf i).map fun t => ⟨i, some n.crew, n.pos, ctx i, t.windowBytes, t.spans, im.portsOf i, im.bufOf i, t.pastHalf⟩
    | .ctl => some ⟨i, none, none, ctx i, 0, [], [], 0, false⟩
    | .mem | .mat | .strm => none

/-- Everything that has to be placed: actors with a fixed position first. -/
def Image.jobs (im : Image) (ctx : Nat → Option Nat) : List Job :=
  let js := (List.range im.nodes.length).filterMap (im.job ctx)
  js.filter (fun j => j.pos.isSome) ++ js.filter fun j => j.pos.isNone

/-- The shape of a job. -/
def Job.dims (j : Job) : Nat × Nat := crewDims (j.crew.getD 0)

/-- The places that a job may take: cells that its shape is aligned to, within the rectangle, and context numbers. -/
def Image.sites (im : Image) (j : Job) : List (Nat × Nat × Nat) :=
  let (w, h) := j.dims
  let cells := match j.pos with
    | some p => [p]
    | none => (List.range (im.h / h)).flatMap fun r => (List.range (im.w / w)).map fun c => (c * w, r * h)
  cells.flatMap fun p => (match j.ctx with
    | some k => [k]
    | none => List.range 4).map fun k => (p.1, p.2, k)

/-- A cell lies in a placed footprint away from its lead. -/
def Put.memberAt (p : Put) (c r : Nat) : Bool :=
  p.job.crew.isSome && overlaps c r 0 p.col p.row (p.job.crew.getD 0) && !(p.col == c && p.row == r)

/-- Two jobs may both stand where they are put (R29, R38, R76, R125, R324, R425). -/
def Put.together (a b : Put) : Bool :=
  !a.memberAt b.col b.row && !b.memberAt a.col a.row &&
    (match a.job.crew, b.job.crew with
     | some k, some l => !overlaps a.col a.row k b.col b.row l || (a.col == b.col && a.row == b.row && k == l)
     | _, _ => true) &&
    (a.col != b.col || a.row != b.row ||
      (a.ctx != b.ctx && !(a.job.spans.any fun s => b.job.spans.any fun t => meets s.1 s.2 t.1 t.2) &&
        !a.job.ports.any fun q => b.job.ports.contains q))

/-- A job fits where it is put, beside those placed before it. -/
def Image.fits (im : Image) (ps : List Put) (p : Put) : Bool :=
  let mates := p :: ps.filter fun q => q.col == p.col && q.row == p.row
  ps.all (fun q => p.together q) && !anyMeet p.job.spans && decide ((mates.map fun q => q.job.window).foldl (· + ·) 0 ≤ 16384) &&
    decide ((mates.map fun q => q.job.buf).foldl (· + ·) 0 ≤ 32768) && !(p.job.pastHalf && inAreas im.xch p.col p.row)

/-- A placement of all jobs, if one exists: each job takes the first site, in an order of the mapper's own under the key, that leaves
sites for those after it (R331). -/
def Image.placeAll (im : Image) (key : List Byte) : List Job → List Put → Option (List Put)
  | [], ps => some ps
  | j :: js, ps =>
    (turned (Config.place key j.node) (im.sites j)).findSome? fun c =>
      let p : Put := ⟨c.1, c.2.1, c.2.2, j⟩
      if im.fits ps p then im.placeAll key js (ps ++ [p]) else none

/-- The shape class of a rectangle at a position: its shape, and the relative column and row at which it crosses a seam (R332). -/
def Image.shapeClass (im : Image) (col row : Nat) : Nat × Nat × Nat × Nat :=
  (im.w, im.h, if col < 64 ∧ 64 < col + im.w then 64 - col else 0, if row < 32 ∧ 32 < row + im.h then 32 - row else 0)

/-- What a placement depends on: the image's bytes, by their digest, and the shape class (R331). -/
def Image.placeKey (im : Image) (col row : Nat) : List Byte :=
  let (w, h, sx, sy) := im.shapeClass col row
  im.digest ++ [w, h, sx, sy].map fun v => BitVec.ofNat 8 v

/-- The placement of an image at a position. -/
def Image.plan (im : Image) (ctx : Nat → Option Nat) (col row : Nat) : Option (List Put) :=
  im.placeAll (im.placeKey col row) (im.jobs ctx) []

/-- A placement by the image's bytes alone; none where no placement of the image exists, in any shape class (R328). -/
def Image.basis (im : Image) : Option (List Put) := im.placeAll im.digest (im.jobs fun _ => none) []

/-- A placement of the image exists (R328). -/
def Image.placeable (im : Image) : Bool := im.basis.isSome

/-- The context number of an actor or control node: one for all shape classes, since a restore in another class keeps it beside the
placement of that class (R331, R336, R360). -/
def Image.ctxNo (im : Image) (i : Nat) : Option Nat := (im.basis.bind fun ps => ps.find? fun p => p.job.node == i).map Put.ctx

/-! ### The placement cache (R332) -/

/-- The cache of a lease after a placement was used: the latest first, at most 64. -/
def Lease.usePlacement (l : Lease) (key : List Byte × Nat × Nat × Nat × Nat) : Lease :=
  { l with placed := (key :: l.placed.filter fun k => k != key).take Config.placementCache }

/-! ### Areas (R331, R351, R360) -/

/-- Two blocks of cells share a cell. -/
def blocksMeet (a b : Nat × Nat × Nat × Nat) : Bool := meets a.1 a.2.2.1 b.1 b.2.2.1 && meets a.2.1 a.2.2.2 b.2.1 b.2.2.2

/-- The blocks that a rectangle holds: its area unless it is SAVED, and the target of its move. -/
def Rect.blocks (r : Rect) : List (Nat × Nat × Nat × Nat) :=
  (if r.state = .saved then [] else [(r.col0, r.row0, r.image.w, r.image.h)]) ++
    r.move.toList.map fun p => (p.col, p.row, r.image.w, r.image.h)

/-- The blocks held on the device, but for those of some slots. -/
def State.heldBlocks (s : State) (without : List Nat) : List (Nat × Nat × Nat × Nat) :=
  s.rects.flatMap fun p => if without.contains p.1 then [] else p.2.rect.elim [] Rect.blocks

/-- A block is free. -/
def blockFree (held : List (Nat × Nat × Nat × Nat)) (b : Nat × Nat × Nat × Nat) : Bool :=
  decide (b.1 + b.2.2.1 ≤ 128) && decide (b.2.1 + b.2.2.2 ≤ 64) && !held.any (blocksMeet b)

/-- The positions at which a shape is free. -/
def freePlaces (held : List (Nat × Nat × Nat × Nat)) (w h : Nat) : List (Nat × Nat) :=
  ((List.range (65 - h)).flatMap fun r => (List.range (129 - w)).map fun c => (c, r)).filter fun p => blockFree held (p.1, p.2, w, h)

/-- The load for which a lease's rectangles are cut (R351). -/
def Lease.slicing (l : Lease) : Option Event := (l.loads.find? fun k => k.item.isSome).map LoadCopy.ev

/-- The load for which rectangles are cut: no other load, restore or move takes area meanwhile (R331, R351). -/
def State.slicing (s : State) : Option Event := s.leases.findSome? fun p => p.2.slicing

/-- The area that Wyell picks among the free ones of a shape (R331). -/
def State.pickArea (s : State) (w h : Nat) (without : List Nat) : Option (Nat × Nat) :=
  (turned (Config.area s.tick) (freePlaces (s.heldBlocks without) w h)).head?

/-! ### The places of nodes -/

/-- The places of a rectangle's nodes. -/
def placesOf (slot : Nat) (ps : List Put) : List (Nat × CtxId) := ps.map fun p => (p.job.node, ⟨slot, p.col, p.row, p.ctx⟩)

/-! ### Engines (R42, R318, R331, R360) -/

/-- The number of no memory-node context. -/
def noContext : Nat := 256
/-- The number of no streamer island. -/
def noIsland : Nat := 64

/-- The dies that a block of cells covers (R2). -/
def diesUnder (col row w h : Nat) : List Nat :=
  ([col, col + w - 1].flatMap fun x => [row, row + h - 1].map fun y => dieAt x y).eraseDups

/-- The memory-node contexts that no rectangle holds: 64 on each die. -/
def State.freeContexts (s : State) : List Nat :=
  (List.range 256).filter fun n => !(s.nodes.any fun p => p.2.context == n) && !s.isReserved .mem n

/-- The free row halves of a lease. -/
def State.freeRows (s : State) (lease : Nat) : List Nat := (s.rowsOf lease).filter s.rowFree

/-- The rectangles that a streamer island serves. -/
def State.served (s : State) (n : Nat) : List Nat :=
  (((s.strms.filter fun p => p.2.island == n).map fun p => p.1.1) ++
    ((s.reserved.filter fun p => p.2.kind == .strm && p.2.engine == n).map Prod.fst)).eraseDups

/-- The streamer islands that serve fewer than 16 rectangles: 16 on each die. -/
def State.freeIslands (s : State) : List Nat := (List.range 64).filter fun n => decide ((s.served n).length < 16)

/-- The free engines of a class for a lease, but for those already picked: one streamer island serves several nodes. -/
def State.freeEngines (s : State) (lease : Nat) (taken : List EnginePick) (k : NodeKind) : List Nat :=
  let open' := fun (n : Nat) => !taken.any fun p => p.kind == k && p.engine == n
  match k with
  | .mem => s.freeContexts.filter open'
  | .mat => (s.freeRows lease).filter open'
  | .strm => s.freeIslands
  | .cell | .crew | .ctl => []

/-- The die that an engine of a class stands on (R2, R331). -/
def NodeKind.dieOf : NodeKind → Nat → Nat
  | .mat => rowDie
  | .strm => (· / 16)
  | .mem | .cell | .crew | .ctl => (· / 64)

/-- The engine that Wyell picks for a rectangle: on a die that it covers, where one is free there, the nearest first (R331). -/
def pickEngine (turn : Nat) (dies : List Nat) (k : NodeKind) (place : Nat × Nat) (free : List Nat) : Option Nat :=
  let near := free.filter fun n => dies.contains (k.dieOf n)
  leastBy (fun n => Config.engineDistance k.ctorIdx n place) (turned turn (if near.isEmpty then free else near))

/-- A node that an engine is bound to. -/
def NodeKind.isEngine (k : NodeKind) : Bool := k == .mem || k == .mat || k == .strm

/-- An engine picked for each engine node of an image at an area, or none where some class has no free engine (R331, R337). -/
def State.pickEngines (s : State) (lease : Nat) (dies : List Nat) (place : Nat × Nat) :
    List NodeE → List EnginePick → Option (List EnginePick)
  | [], ks => some ks
  | n :: ns, ks =>
    if n.kind.isEngine then
      match pickEngine (Config.engine s.tick ks.length) dies n.kind place (s.freeEngines lease ks n.kind) with
      | some k => s.pickEngines lease dies place ns (ks ++ [⟨n.kind, n.index, k⟩])
      | none => none
    else s.pickEngines lease dies place ns ks

/-- The number under which a row half's state stands while no row half holds it: the lease of such an entry is 0. -/
def parkedRow (slot idx : Nat) : Nat := 256 + 16 * slot + idx

/-- A row half without a rectangle. -/
def RowHalf.idle (lease : Nat) : RowHalf :=
  { lease := lease, bound := none, queue := [], task := none, slots := firstSlots, blocks := 0, ksteps := [], work := none, parts := [],
    faulted := false }

/-- The row halves of a slot returned to their lease, their state kept (R226, R395). -/
def State.parkRows (s : State) (slot : Nat) : State :=
  (s.rows.filter fun p => (p.2.bound.map Prod.fst) == some slot).foldl (fun t p =>
    ((t.unwaitRow p.1).setRow p.1 (.idle p.2.lease)).setRow (parkedRow slot ((p.2.bound.map Prod.snd).getD 0)) { p.2 with lease := 0 }) s

/-- The engines of a slot returned: its nodes and row halves keep their state (R226, R395). -/
def State.releaseEngines (s : State) (slot : Nat) : State :=
  let t := s.parkRows slot
  { t with
    nodes := t.nodes.map fun p => if p.1.1 = slot then (p.1, { p.2 with context := noContext }) else p,
    strms := t.strms.map fun p => if p.1.1 = slot then (p.1, { p.2 with island := noIsland }) else p }

/-! ### The drain bound (R333, R352) -/

/-- The stop bound of a node's class. -/
def NodeE.stopBound (n : NodeE) : Nat :=
  match n.kind with
  | .mem => 2048
  | .mat => 512
  | .strm => 256
  | .cell | .crew | .ctl => 96

/-- The stop-bound term S. -/
def Image.stopTerm (im : Image) : Nat := (im.nodes.map NodeE.stopBound).foldl max 96

/-- The edges at which a cut is injected: those with a CUT bit, or, without one, those of memory-node producers (R327). -/
def Image.cutEdges (im : Image) : List EdgeE :=
  let marked := im.edges.filter EdgeE.cutPoint
  if marked.isEmpty then im.edges.filter fun e => (im.nodes[e.src]?).any fun n => n.kind == .mem else marked

/-- The nodes to which the director sends a cut token (R327). -/
def Image.cutTargets (im : Image) : List Nat :=
  let heads := im.cutEdges.map EdgeE.src
  (List.range im.nodes.length).filter fun i => heads.contains i || !im.edges.any fun e => e.dst == i

/-- The steps from one coordinate to another. -/
def axis (a b : Nat) : List Nat :=
  if a ≤ b then (List.range (b - a)).map (a + 1 + ·) else (List.range (a - b)).map (a - 1 - ·)

/-- The cells from one cell to another, along a row and then along a column. -/
def leg (p q : Nat × Nat) : List (Nat × Nat) := (axis p.1 q.1).map (fun c => (c, p.2)) ++ (axis p.2 q.2).map fun r => (q.1, r)

/-- The cells from one cell on by way of others. -/
def legs (p : Nat × Nat) : List (Nat × Nat) → List (Nat × Nat)
  | [] => []
  | q :: qs => leg p q ++ legs q qs

/-- A way inside a rectangle from one of its cells to another: every such way goes by some cells of it (R331). -/
def Image.way (im : Image) (key : List Byte) (edge : Nat) (p q : Nat × Nat) : List (Nat × Nat) :=
  p :: legs p ((Config.waypoints key edge).map (fun v => (v.1 % im.w, v.2 % im.h)) ++ [q])

/-- The seams that a way crosses, its rectangle standing at a column and a row. -/
def seamsOn (col row : Nat) (ps : List (Nat × Nat)) : Nat :=
  ((ps.zip ps.tail).filter fun p => dieAt (col + p.1.1) (row + p.1.2) != dieAt (col + p.2.1) (row + p.2.2)).length

/-- The cells at the border of a rectangle. -/
def Image.border (im : Image) : List (Nat × Nat) :=
  ((List.range im.h).flatMap fun r => (List.range im.w).map fun c => (c, r)).filter fun p =>
    p.1 == 0 || p.1 + 1 == im.w || p.2 == 0 || p.2 + 1 == im.h

/-- The border cell at which an edge goes over to its engine lane. -/
def Image.exit (im : Image) (tick edge : Nat) : Nat × Nat :=
  ((turned (Config.borderExit tick edge) im.border).head?).getD (0, 0)

/-- The switch of a cell. -/
def cellSwitch (p : Nat × Nat) : Nat := p.1 + 128 * p.2

/-- The route of an edge: inside the rectangle between two actors, over an engine lane from or to an engine (R331). -/
def Image.route (im : Image) (tick col row : Nat) (place : Nat → Option (Nat × Nat)) (e : EdgeE) : Route :=
  let key := im.placeKey col row
  let (lane, crossed) := Config.lane tick e.number
  let out := lane.map (8192 + ·)
  let x := im.exit tick e.number
  match place e.src, place e.dst with
  | some p, some q => let ps := im.way key e.number p q; ⟨e.number, ps.map cellSwitch, seamsOn col row ps⟩
  | some p, none => let ps := im.way key e.number p x; ⟨e.number, ps.map cellSwitch ++ out, seamsOn col row ps + crossed⟩
  | none, some q => let ps := im.way key e.number x q; ⟨e.number, out ++ ps.map cellSwitch, seamsOn col row ps + crossed⟩
  | none, none => ⟨e.number, out, crossed⟩

/-- The routes of an image's edges under a placement. -/
def Image.routesAt (im : Image) (tick col row : Nat) (ps : List (Nat × CtxId)) : List Route :=
  im.edges.map (im.route tick col row fun i => (ps.find? fun p => p.1 == i).map fun p => (p.2.col, p.2.row))

/-- The links of a route, from switch to switch. -/
def Route.links (r : Route) : List (Nat × Nat) := r.switches.zip r.switches.tail

/-- The cycles of a cut token on a route: 2 for each hop, 12 for each seam (R333). -/
def Route.cycles (r : Route) : Nat := 2 * r.links.length + 12 * r.seams

/-- The route of an edge, among several. -/
def routeOf (rs : List Route) (n : Nat) : Route := (rs.find? fun r => r.edge == n).getD ⟨n, [], 0⟩

/-- An exit port: the input of a STREAMING sink, of a matrix node, or of a node that another token may have stopped before (R327). -/
def Image.exitPort (im : Image) (e : EdgeE) : Bool :=
  ((im.nodes[e.dst]?).any fun n => n.kind == .mat || (n.kind == .mem && n.sink)) || im.cutTargets.contains e.dst ||
    decide (1 < (im.edges.filter fun d => d.dst == e.dst).length)

/-- One pass over the edges: the greatest total at which each node is reached, plus 1; 0 for a node not reached. -/
def Image.spread (im : Image) (rs : List Route) (far : List Nat) : List Nat :=
  im.edges.foldl (fun d e => if d.getD e.src 0 = 0 then d
    else d.modify e.dst fun k => max k (d.getD e.src 0 + (routeOf rs e.number).cycles)) far

/-- The route term L: the greatest total over the paths from an injection point to an exit port (R327, R333). -/
def Image.routeTerm (im : Image) (rs : List Route) : Nat :=
  let ts := im.cutTargets
  let start := (List.range im.nodes.length).map fun i => if ts.contains i then 1 else 0
  let far := im.nodes.foldl (fun d _ => im.spread rs d) start
  (im.edges.filter im.exitPort).foldl (fun m e =>
    if far.getD e.src 0 = 0 then m else max m (far.getD e.src 0 - 1 + (routeOf rs e.number).cycles)) 0

/-- The link term Q: the greatest total, over the links, of the CAP of the edges that a link carries (R333). -/
def Image.linkTerm (im : Image) (rs : List Route) : Nat :=
  ((rs.flatMap Route.links).eraseDups.map fun k =>
    ((im.edges.filter fun e => (routeOf rs e.number).links.contains k).map EdgeE.cap).foldl (· + ·) 0).foldl max 0

/-- The whole-drain bound D = S + L + Q (R333). -/
def Image.drainBound (im : Image) (rs : List Route) : Nat := im.stopTerm + im.routeTerm rs + im.linkTerm rs

/-- The longest drain bound, 20 µs in cycles (R56). -/
def drainLimit : Nat := 80000

/-- How an image stands at an area: none where no placement is there, a class has no free engine, or the drain bound is too long.
Without engines it is placed alone (R331, R333, R337). -/
def State.fit (s : State) (slot lease : Nat) (im : Image) (ctx : Nat → Option Nat) (col row : Nat) (bare : Bool) : Option Fit :=
  (im.plan ctx col row).bind fun ps =>
    let places := placesOf slot ps
    let rs := im.routesAt s.tick col row places
    let d := im.drainBound rs
    if bare then some ⟨places, [], rs, d⟩
    else
      (s.pickEngines lease (diesUnder col row im.w im.h) (col, row) im.nodes []).bind fun ks =>
        if drainLimit < d then none else some ⟨places, ks, rs, d⟩

/-- An engine bound to its node; what the slot's tables hold for the node stays. -/
def State.bindEngine (s : State) (slot lease : Nat) (k : EnginePick) : State :=
  match k.kind with
  | .mem => (s.node? slot k.index).elim s fun m => s.setNode slot k.index { m with context := k.engine }
  | .strm => (s.strm? slot k.index).elim s fun m => s.setStrm slot k.index { m with island := k.engine }
  | .mat => (s.boundRow slot k.index).elim s fun p => { s with rows := Tab.drop s.rows p.1 }.setRow k.engine { p.2 with lease := lease }
  | .cell | .crew | .ctl => s

/-- The engines of a rectangle bound to its nodes. -/
def State.bindEngines (s : State) (slot lease : Nat) (ks : List EnginePick) : State :=
  ks.foldl (fun t k => t.bindEngine slot lease k) s

/-! ### The region table (R297, R325) -/

/-- Some context of a lease holds the object at an address. -/
def State.heldObject (s : State) (lease va : Nat) : Bool :=
  match s.engineLoc none lease va false with
  | .found l => s.homes.holds.any fun h => h.lease == lease && h.loc == l
  | .absent | .refused _ _ _ => false

/-- Two regions overlap. -/
def Region.overlap (a b : Region) : Bool := decide (a.base < b.limit) && decide (b.base < a.limit)

/-- The hub refuses a region-table entry (R297). -/
def State.regionRefused (s : State) (lease slot : Nat) (e : Region) : Bool :=
  let rs := (s.lease lease).regions
  decide (e.limit ≤ e.base) || (e.valid && rs.any fun p => p.1 != slot && p.2.valid && e.overlap p.2) ||
    s.heldObject lease e.sync || (Tab.get? rs slot).any fun old => s.heldObject lease old.sync

/-- A region-table entry written. -/
def State.putRegion (s : State) (lease slot : Nat) (e : Region) : State :=
  s.modLease lease fun l => { l with regions := Tab.put l.regions slot e }

/-- A region record of an image applied (R325); `none` where the load is refused. -/
def State.loadRegion (s : State) (lease slot bytes : Nat) : Option State :=
  match Tab.get? (s.lease lease).regions slot with
  | none => none
  | some e =>
    let f := { e with limit := e.base + (bytes + 127) / 128 * 128, valid := true }
    if e.base = 0 ∨ e.sync = 0 ∨ 2 ^ 57 ≤ f.limit ∨ s.regionRefused lease slot f then none else some (s.putRegion lease slot f)

/-- The region records from number `i` on: the first that is refused, or the state with all of them written. -/
def State.loadRegions (s : State) (lease i : Nat) : List (Nat × Nat) → Except Nat State
  | [] => .ok s
  | r :: rs =>
    match s.loadRegion lease r.1 r.2 with
    | some t => t.loadRegions lease (i + 1) rs
    | none => .error i

/-- The part of check 7 that reads the lease's region table. -/
def State.regionCheck (s : State) (lease : Nat) (rs : List (Nat × Nat)) : Check :=
  match s.loadRegions lease 0 rs with
  | .ok _ => .pass
  | .error i => .fail (some i)

/-! ### The units of a rectangle (R61, R70, R71, R77, R205, R219) -/

/-- The full/empty bits of scalar registers at arming: the operand registers are empty (R61). -/
def armedSfe : BitVec 64 := BitVec.ofNat 64 (2 ^ 64 - 1 - (2 ^ 60 - 2 ^ 48))
/-- The full/empty bits of vector registers at arming. -/
def armedVfe : BitVec 32 := BitVec.ofNat 32 (2 ^ 32 - 1 - (2 ^ 30 - 2 ^ 24))

/-- A task's code holds a word that decodes so (R205, R219). -/
def TaskE.holds (t : TaskE) (p : Instr → Bool) : Bool := (t.window.take t.codew).any fun w => (decode w).toOption.any p

/-- A context as a load writes it (R61, R79, R80). -/
def TaskE.context (t : TaskE) (handle lease : Nat) (repro : Bool) : Ctx :=
  let width := 8 * 2 ^ t.crew
  { handle := handle, lease := lease, node := t.actor, width := width, cls := BitVec.ofNat 2 t.cls, demoted := false,
    budget := t.budget, entry := BitVec.ofNat 12 t.entry, window := t.window,
    xbarCrew := t.holds (· == .xbar false), xbarRect := t.holds (· == .xbar true),
    barCrew := t.holds (· == .bar false), barRect := t.holds (· == .bar true), repro := repro, pc := BitVec.ofNat 12 t.entry,
    sreg := Vector.replicate 64 0, sfe := armedSfe, vreg := Vector.replicate 32 (List.replicate width (.plain 0)), vfe := armedVfe,
    mreg := Vector.replicate 8 (BitVec.ofNat 128 (2 ^ width - 1)), fstat := 0, srseed := 0, cmdbase := BitVec.ofNat 11 t.cmdw,
    loop0 := ⟨0, 0, 0⟩, loop1 := ⟨0, 0, 0⟩, trapEn := false, trapBase := 0, act := false, sub := 0, cause := 0, trapPc := 0,
    trapAddr := 0, rq := [], rqsel := 0, snapL := [], snapV := [], cut := none, inject := [], injecting := none,
    injectBy := .restore, halted := false, stopped := false, firing := false, fireCnt := 0, overran := false, hold := .free,
    runnableSince := none, lastStart := none, sourceDue := false, ended := false, eosOwed := [], pend := [], tags := [], seq := 0,
    tokens := [], fenced := false, tcache := [], walk := .none }

/-- The scratchpad words of a record, from their first. -/
def DataRec.words (r : DataRec) : List Nat := (List.range (r.bytes / 8)).map fun i => r.off / 8 + i

/-- The data records of the tasks whose lead stands at a cell. -/
def Image.recsAt (im : Image) (ps : List Put) (col row : Nat) : List DataRec :=
  (ps.filter fun p => p.col == col && p.row == row).flatMap fun p => ((im.taskOf p.job.node).map TaskE.data).getD []

/-- A cell as a load writes it (R70, R71, R326): data records written, stream windows empty. -/
def Image.cellAt (im : Image) (ps : List Put) (col row : Nat) : Cell :=
  let rs := im.recsAt ps col row
  { pad := rs.foldl (fun m r => m.writeAt (fun i => r.off + i) 0 r.body) [],
    empties := (rs.filter DataRec.win).flatMap DataRec.words, xch := inAreas im.xch col row, front := false, parked := [], rr := 0,
    holder := none, permits := [], gated := false, port := (0, 0) }

/-- The cells of a rectangle. -/
def Image.cellTable (im : Image) (slot : Nat) (ps : List Put) : Tab CellId Cell :=
  (List.range im.h).flatMap fun r => (List.range im.w).map fun c => ((⟨slot, c, r⟩ : CellId), im.cellAt ps c r)

/-- The contexts of a rectangle. -/
def Image.ctxTable (im : Image) (slot handle lease : Nat) (repro : Bool) (ps : List Put) : Tab CtxId Ctx :=
  ps.filterMap fun p => (im.taskOf p.job.node).map fun t =>
    ((⟨slot, p.col, p.row, p.ctx⟩ : CtxId), t.context handle lease repro)

/-- An edge as a load writes it (R77). -/
def EdgeE.edge (e : EdgeE) : Edge :=
  { src := e.src, srcPort := e.srcPort, dst := e.dst, dstPort := e.dstPort, vec := e.vec, cap := e.cap,
    fmtP := e.fmtP, fmtC := e.fmtC, prate := e.prate, crate := e.crate, free := e.cap, pclaim := 0, pused := 0, eosOut := false,
    buf := [], cclaim := 0, cused := 0 }

/-- The engine nodes of a class with their node numbers. -/
def Image.engines (im : Image) (k : NodeKind) : List (Nat × NodeE) :=
  ((List.range im.nodes.length).filterMap fun i => (im.nodes[i]?).map fun n => (i, n)).filter fun p => p.2.kind == k

/-- A memory node as a load writes it (R236, R240). -/
def memNodeOf (i : Nat) (n : NodeE) : MemNode :=
  { node := i, kind := n.memKind, sink := n.sink, stride := n.stride, fn := n.fn, context := noContext, rowLen := 0, rowStride := 0,
    binding := none, tags := [], nextTag := 0, seq := 0, status := 0, queue := [], eosSeen := false, spent := false,
    faulted := false, held := false }

/-- The tables of a slot as a load writes them; engines are bound afterwards. -/
def State.writeUnits (s : State) (slot handle lease : Nat) (repro : Bool) (im : Image) (ps : List Put) : State :=
  { s with
    ctxs := s.ctxs ++ im.ctxTable slot handle lease repro ps,
    cells := s.cells ++ im.cellTable slot ps,
    edges := s.edges ++ im.edges.map fun e => ((slot, e.number), e.edge),
    nodes := s.nodes ++ (im.engines .mem).map fun p => ((slot, p.2.index), memNodeOf p.1 p.2),
    strms := s.strms ++ (im.engines .strm).map fun p => ((slot, p.2.index), (⟨noIsland, [], false⟩ : Streamer)),
    rows := s.rows ++ (im.engines .mat).map fun p =>
      (parkedRow slot p.2.index, { RowHalf.idle 0 with bound := some (slot, p.2.index) }) }

end Sys2Proof.Machine
end

