-- ==== Sys2Proof/Machine/Launch.lean ====
section
/-! DEFINITION. Launches: the read of an image (R313), the checks and the admission of a launch (R43 to R45, R248, R249, R328, R335,
R341 to R344), its placement (R20, R331, R351), and the commands C.LAUNCH, C.JOIN and C.FREE (R46 to R48, R248 to R252). -/

namespace Sys2Proof.Machine

/-! ### Requests -/

/-- Binding entry `i` of a table of bytes. -/
def parseBind (bs : List Byte) (i : Nat) : RawBind :=
  ⟨fieldAt bs (16 * i) 8, fieldAt bs (16 * i + 8) 4, fieldAt bs (16 * i + 12) 2, fieldAt bs (16 * i + 14) 2⟩

/-- The binding entries of a table. -/
def parseBinds (bs : List Byte) (n : Nat) : List RawBind := (List.range n).map (parseBind bs)

/-- Who refused a launch: a check of R328, a binding's fields, a binding's format, the admission unit, or the access table of a target
that holds bytes of a C.LAUNCH's image (R392). -/
inductive Stage
  | image (check : Nat) (number : Option Nat) (unmapped : Bool)
  | fields
  | format
  | admission (code : Nat)
  | table (sub detail : Nat)
deriving DecidableEq, Repr

/-- What a launch comes to: it waits for a page or for area, it is refused, or its rectangle is LOADING. -/
inductive LaunchEnd
  | waits (s : State) (va : Nat)
  | slices (s : State)
  | refused (s : State) (why : Stage)
  | accepted (s : State) (slot : Nat)

/-! ### The image (R313) -/

/-- The bytes of an image, or why they cannot be read. -/
inductive ImageBytes
  | got (s : State) (bs : List Byte)
  | absent (va : Nat)
  | refused (cause sub detail : Nat)

/-- The bytes of a span of a lease, read at their homes by the hub. -/
def State.hubBytes (s : State) (lease va n : Nat) : ImageBytes :=
  match s.span none lease va n false with
  | .absent a => .absent a
  | .refused cause sub detail _ => .refused cause sub detail
  | .ok ps => let (t, bs) := s.pull noAgent ps; .got t bs

/-- Wyell reads an image (R313): its header, then the bytes that its TOTAL names. -/
def State.imageBytes (s : State) (lease va : Nat) : ImageBytes :=
  match s.hubBytes lease va 64 with
  | .got t head =>
    let total := fieldAt head 8 4
    if total < 64 ∨ 2 ^ 24 < total then .got t head else t.hubBytes lease va total
  | e => e

/-! ### Bindings (R234, R248, R249, R335, R372) -/

/-- The memory node of an index. -/
def Image.memAt (im : Image) (idx : Nat) : Option (Nat × NodeE) := (im.engines .mem).find? fun p => p.2.index == idx

/-- The token size of a memory node of an image. -/
def Image.memToken (im : Image) (p : Nat × NodeE) : Nat :=
  if p.2.memKind = 2 then 32 else (im.memEdge p.1).elim 4 fun e => if e.vec then 32 else 4

/-- The data format of a memory node of an image (R335). -/
def Image.memFmt (im : Image) (p : Nat × NodeE) : Nat :=
  (im.memEdge p.1).elim 0xFF fun e => if p.2.sink then e.fmtC else e.fmtP

/-- A binding entry fails a check that does not depend on the rectangle's state. -/
def Image.bindBad (im : Image) (b : RawBind) : Bool :=
  decide (2 ^ 57 ≤ b.g) || b.tokens == 0 || b.zero != 0 ||
    (match im.memAt b.index with
     | none => true
     | some p => b.g % im.memToken p != 0)

/-- The verdict on the binding entries of a launch. -/
inductive BindVerdict
  | ok
  | absent (va : Nat)
  | fields
  | format
deriving DecidableEq, Repr

/-- The format agreement of binding entries, in order (R335). -/
def State.bindFormats (s : State) (lease : Nat) (im : Image) : List RawBind → BindVerdict
  | [] => .ok
  | b :: bs =>
    let loc := s.engineLoc none lease b.g false
    if loc = .absent then .absent b.g
    else if agrees ((im.memAt b.index).elim 0xFF im.memFmt) (s.windowFmt lease loc) then s.bindFormats lease im bs
    else .format

/-- The checks of the binding entries: every entry's fields, then the formats. -/
def State.bindCheck (s : State) (lease : Nat) (im : Image) (bs : List RawBind) : BindVerdict :=
  if bs.any im.bindBad then .fields else s.bindFormats lease im bs

/-! ### Admission (R45, R341 to R344) -/

/-- Engine nodes of a class in an image. -/
def Image.countOf (im : Image) (k : NodeKind) : Nat := (im.engines k).length

/-- The period of a launch (R341). -/
def LaunchReq.period (q : LaunchReq) (t : Nat) : Nat :=
  if q.retain then 4 * (q.deadline - t) else oneShotPeriod q.deadline t

/-- The demand of a launch (R341). -/
def LaunchReq.demand (q : LaunchReq) (im : Image) (t : Nat) : Demand :=
  ⟨q.budget * (im.w * im.h), q.budget * im.countOf .mat, q.budget * im.countOf .strm, q.period t⟩

/-- A limit of R45: a parent holds 16 children neither joined nor freed, or launches would nest more than 8 deep. -/
def State.familyFull (s : State) (q : LaunchReq) : Bool :=
  decide (8 < q.depth) ||
    ((q.parent.bind s.live?).bind s.rect?).any fun r => decide (16 ≤ (r.children.filter fun k => !k.joined).length)

/-- Steps 1 to 6 of R344: the code of the first that refuses, 0 where all pass. -/
def State.admission (s : State) (q : LaunchReq) (im : Image) : Nat :=
  if (s.lease q.lease).suspended then 0x09
  else if q.deadline ≤ s.dtime then 0x02
  else if q.budget < im.stopTerm then 0x07
  else if 256 ≤ (s.rectsOf q.lease).length ∨ s.familyFull q then 0x06
  else s.shareTest q.lease (q.demand im s.dtime)

/-- The item of an admitted launch. -/
def LaunchReq.item (q : LaunchReq) (im : Image) (t admitted : Nat) : Item :=
  { budget := q.budget, deadline := q.deadline, period := q.period t, rows := im.countOf .mat, strms := im.countOf .strm,
    chargedCell := 0, chargedRow := 0, chargedStrm := 0, admittedAt := t, admitted := admitted, counted := true, demoted := false,
    demotePolicy := q.demote }

/-! ### Placement (R20, R331, R351) -/

/-- A rectangle as its load is admitted. -/
def LaunchReq.rect (q : LaunchReq) (im : Image) (col row : Nat) (f : Fit) (item : Item) : Rect :=
  { lease := q.lease, state := .loading, col0 := col, row0 := row, image := im, places := f.places, retain := q.retain,
    repro := q.repro, preemptOk := q.preemptOk, parent := q.parent, depth := q.depth, sigAddr := q.sigAddr, sigVal := q.sigVal,
    stAddr := q.stAddr, iter := q.iter, binds := q.binds.map fun b => ⟨b.g, b.tokens, b.index⟩, item := item, routes := f.routes, drain := f.drain,
    ctls := im.ctls.map fun _ => ⟨false, 0, [], []⟩, leaves := List.replicate im.nleaf ⟨0, false, false⟩, children := [], joins := [],
    count := 0, overran := false, outcome := none, first := none, faults := 0, collector := none, cutDeferred := none,
    startHeld := none, reel := none, wasRunning := false, stoppedAt := 0, restoring := false, move := none, sliced := false, completing := 0,
    arrived := [], stopCounts := [], overdue := false }

/-- The rectangles of a lease that time slicing may cut for an item, the latest deadline first (R351). -/
def State.sliceable (s : State) (lease deadline : Nat) : List (Nat × Rect) :=
  let rs := (s.rectsOf lease).filter fun p =>
    p.2.state == .running && p.2.collector.isNone && p.2.completing == 0 && p.2.preemptOk &&
      decide (4 * deadline + 2 * p.2.drain ≤ 4 * p.2.item.deadline)
  let insert := fun (p : Nat × Rect) (l : List (Nat × Rect)) =>
    (l.takeWhile fun q => decide (p.2.item.deadline ≤ q.2.item.deadline)) ++ p ::
      l.dropWhile fun q => decide (p.2.item.deadline ≤ q.2.item.deadline)
  rs.foldl (fun acc p => insert p acc) []

/-- The fewest of a list of rectangles, from its front, whose areas make room for a shape: whether engines are free, and the drain bound,
are found when the load goes on (R351): DESIGN CHOICE (log entry 126). -/
def State.victims (s : State) (w h : Nat) (l : List (Nat × Rect)) : Option (List Nat) :=
  ((List.range l.length).map fun n => (l.take (n + 1)).map Prod.fst).find? fun slots =>
    !(freePlaces (s.heldBlocks slots) w h).isEmpty

/-- The rectangles that are cut for a load are marked and cut (R351). -/
def State.sliceAll (s : State) (slots : List Nat) : State :=
  slots.foldl (fun t n => (t.modRect n fun r => { r with sliced := true }).post 3 (.cutRequest n .slice)) s

/-- A copy of an image kept with the load that waits. -/
def State.keepCopy (s : State) (lease : Nat) (k : LoadCopy) : State := s.modLease lease fun l => { l with loads := l.loads ++ [k] }

/-- A load that finds no area: time slicing, where Wyell makes area so, else NO_AREA. The admitted item counts meanwhile
(R331, R343, R351). -/
def State.noArea (s : State) (q : LaunchReq) (im : Image) (k : LoadCopy) : LaunchEnd :=
  match if Config.slice s.tick && im.placeable then s.victims im.w im.h (s.sliceable q.lease q.deadline) else none with
  | some slots => .slices ((s.bump.fresh.sliceAll slots).keepCopy q.lease k)
  | none => .refused s.bump (.admission 0x08)

/-- A slot that passed through LOADING to EMPTY: its generation rises (R17, R20). -/
def State.retireSlot (s : State) (slot : Nat) : State :=
  { s with rects := Tab.put s.rects slot { gen := ((s.slot slot).gen + 1) % 256, purges := [], rect := none } }

/-- A rectangle loaded at an area, as it was found to stand there: its units and its engines (R331, R333, R344). -/
def State.loadAt (s : State) (q : LaunchReq) (im : Image) (it : Item) (slot col row : Nat) (ps : List Put) (f : Fit) : LaunchEnd :=
  let handle := q.lease * 16777216 + (s.slot slot).gen * 65536 + slot
  let t := (s.setRect slot (q.rect im col row f it)).fresh.writeUnits slot handle q.lease q.repro im ps
  let gone := s.bump.retireSlot slot
  if q.budget < f.drain then .refused gone (.admission 0x07)
  else
    match (t.bump.bindEngines slot q.lease f.engines).loadRegions q.lease 0 im.regions with
    | .error _ => .refused gone (.admission 0x08)
    | .ok v =>
      .accepted ((v.modLease q.lease fun l => l.usePlacement (im.digest, im.shapeClass col row)).post 3 (.configWritten slot)) slot

/-- Step 7 of R344, for an item that counts: the area comes first (R331), and a load that fails after it leaves LOADING for EMPTY
(R20). -/
def State.place (s : State) (q : LaunchReq) (im : Image) (k : LoadCopy) (it : Item) : LaunchEnd :=
  match s.freeSlot with
  | none => .refused s (.admission 0x08)
  | some slot =>
    match s.pickArea im.w im.h [] with
    | none => s.noArea q im { k with item := some it }
    | some (col, row) =>
      match im.plan im.ctxNo col row, s.fit slot q.lease im im.ctxNo col row false with
      | some ps, some f => s.bump.loadAt q im it slot col row ps f
      | _, _ => .refused (s.bump.retireSlot slot) (.admission 0x08)

/-- Binding checks, admission and placement of a launch whose image passed. -/
def State.admitLaunch (s : State) (q : LaunchReq) (im : Image) (k : LoadCopy) : LaunchEnd :=
  match s.bindCheck q.lease im q.binds with
  | .absent va => .waits (s.keepCopy q.lease k) va
  | .fields => .refused s .fields
  | .format => .refused s .format
  | .ok =>
    match s.admission q im with
    | 0 => s.place q im k (q.item im s.dtime s.admitNo)
    | c => .refused s (.admission c)

/-- The image stands nowhere, or its drain bound at the area that Wyell picks is too long: check 9 (R328). -/
def State.unplaced (s : State) (q : LaunchReq) (im : Image) : Bool :=
  !im.placeable ||
    (match s.pickArea im.w im.h [] with
     | some (col, row) => (s.fit 0 q.lease im im.ctxNo col row true).any fun f => decide (drainLimit < f.drain)
     | none => false)

/-- A launch with its image read: a launch record makes check 9 beside the other checks of R328 (R372), a C.LAUNCH in its place among
the admission steps (R249). -/
def State.launchImage (s : State) (q : LaunchReq) (ev : Event) (bs : List Byte) : LaunchEnd :=
  match readImage bs q.shape (s.regionCheck q.lease) with
  | .error e => .refused s (.image e.1 e.2 false)
  | .ok im =>
    if q.parent.isNone && s.unplaced q im then .refused s (.image 9 none false)
    else s.admitLaunch q im ⟨ev, q, bs, none, im.w * im.h, q.retain⟩

/-- A launch whose item waited for area: it goes on at step 7 (R343, R351). -/
def State.launchAgain (s : State) (q : LaunchReq) (k : LoadCopy) (it : Item) : LaunchEnd :=
  match readImage k.bytes q.shape (fun _ => .pass) with
  | .error e => .refused s (.image e.1 e.2 false)
  | .ok im => s.place q im k it

/-- The copy of a load that waits, by its event. -/
def State.loadOf (s : State) (lease : Nat) (ev : Event) : Option LoadCopy := (s.lease lease).loads.find? fun k => k.ev == ev

/-- A load waits no more: its copy is gone (R313). -/
def State.dropLoad (s : State) (lease : Nat) (ev : Event) : State :=
  s.modLease lease fun l => { l with loads := l.loads.filter fun j => j.ev != ev }

/-- A launch, by the event that brings it: its image, and what it asks for, are read once (R313). -/
def State.launch (s : State) (q : LaunchReq) (ev : Event) : LaunchEnd :=
  match s.loadOf q.lease ev with
  | some k =>
    let t := s.dropLoad q.lease ev
    match k.item with
    | some it => t.launchAgain k.req k it
    | none => t.launchImage k.req ev k.bytes
  | none =>
    match s.imageBytes q.lease q.va with
    | .absent va => .waits s va
    | .refused cause sub detail =>
      .refused s (if freezes cause sub && q.parent.isSome then .table sub detail else .image 1 none (cause == 0x04))
    | .got u bs => if q.va % 16 ≠ 0 then .refused u (.image 1 none false) else u.launchImage q ev bs

/-! ### C.LAUNCH (R43, R248, R249) -/

/-- The launch of a descriptor's bytes by a rectangle (R248, R284, R346, R351): the child takes the parent's REPRO bit, its overrun
policy and its leave to be cut. -/
def descRequest (r : Rect) (handle : Nat) (bs : List Byte) (binds : List RawBind) : LaunchReq :=
  { lease := r.lease, va := fieldAt bs 0 8, shape := none, retain := false, repro := r.repro, preemptOk := r.preemptOk,
    demote := r.item.demotePolicy, parent := some handle, depth := r.depth + 1, deadline := fieldAt bs 8 8,
    budget := fieldAt bs 0x10 4, iter := fieldAt bs 0x14 4, sigAddr := fieldAt bs 0x18 8,
    sigVal := BitVec.ofNat 64 (fieldAt bs 0x20 8), stAddr := 0, binds := binds }

/-- A field of a launch descriptor is malformed (R248). -/
def descBad (bs : List Byte) : Bool :=
  let n := fieldAt bs 0x30 2
  let table := fieldAt bs 0x28 8
  decide (2 ^ 57 ≤ fieldAt bs 0 8) || fieldAt bs 0x10 4 == 0 || decide (2 ^ 57 ≤ fieldAt bs 0x18 8) || fieldAt bs 0x18 8 % 8 != 0 ||
    decide (16 < n) || table % 16 != 0 || decide (2 ^ 57 ≤ table) || (n == 0 && table != 0) || anyByte bs 0x32 0x40

/-- The LOAD record of a refusal (R328, R388): a check without a number leaves the number open. -/
def State.loadRecord (s : State) (lease handle check : Nat) (number : Option Nat) (detail : Nat) : State :=
  (s.postRecord lease
    (s.record 0x04 0 0 0 handle 0xFFFF none 0 check (number.getD (Config.openWord s.tick).toNat) detail)).bump

/-- The token of a refused C.LAUNCH, and its LOAD record where a check of R328 refused it (R249, R328). -/
def State.refuseLaunch (s : State) (src : CtxId) (x : Ctx) (w : CWord) (why : Stage) : State :=
  match why with
  | .image k n unmapped => (s.loadRecord x.lease x.handle k n 0).refuseCmd src x w (if unmapped then 0x04 else 0x07) 0
  | .fields => s.badCmd src x w
  | .format => s.refuseCmd src x w 0x0C 0x05
  | .admission c =>
    (if c = 0x08 then s.loadRecord x.lease x.handle 9 none 0 else s).refuseCmd src x w 0 c
  | .table sub detail => s.refusedRead src x w 0x05 sub detail

/-- A C.LAUNCH whose descriptor and binding table are read. -/
def State.childLaunch (s : State) (src : CtxId) (x : Ctx) (w : CWord) (q : LaunchReq) : State :=
  match s.launch q (.command src w) with
  | .waits t va => t.commandWaits src x w va
  | .slices t => t.post (s.ctxClass x) (.command src w)
  | .refused t why => t.refuseLaunch src x w why
  | .accepted t slot =>
    (t.modRect src.slot fun r => { r with children := r.children ++ [⟨t.handleOf slot, none, false⟩] }).fillToken src x.handle
      (cmdToken w) (BitVec.ofNat 64 (t.handleOf slot))

/-- A C.LAUNCH with a malformed field: an image without a mapping comes first (R249, R313). -/
def State.malformedLaunch (s : State) (src : CtxId) (x : Ctx) (w : CWord) (bs : List Byte) : State :=
  match s.imageBytes x.lease (fieldAt bs 0 8) with
  | .absent va => s.commandWaits src x w va
  | .refused cause sub detail =>
    if freezes cause sub then s.refusedRead src x w cause sub detail
    else if cause = 0x04 then s.refuseLaunch src x w (.image 1 none true) else s.badCmd src x w
  | .got t _ => t.badCmd src x w

/-- A C.LAUNCH whose descriptor and binding table are read: mappings come before fields (R249). -/
def State.takeLaunch (s : State) (src : CtxId) (x : Ctx) (w : CWord) (r : Rect) (bs table : List Byte) : State :=
  if descBad bs then s.malformedLaunch src x w bs
  else s.childLaunch src x w (descRequest r x.handle bs (parseBinds table (fieldAt bs 0x30 2)))

/-- The binding table of a descriptor, where it names one of 16 entries or fewer. -/
def State.tableBytes (s : State) (lease : Nat) (bs : List Byte) : ImageBytes :=
  let n := fieldAt bs 0x30 2
  if n = 0 ∨ 16 < n then .got s [] else s.hubBytes lease (fieldAt bs 0x28 8) (16 * n)

/-- A C.LAUNCH whose descriptor has not been read (R248, R249). -/
def State.readLaunch (s : State) (src : CtxId) (x : Ctx) (w : CWord) : State :=
  match s.hubBytes x.lease (gAddr w) 64, s.rect? src.slot with
  | .absent va, _ => s.commandWaits src x w va
  | .refused cause sub detail, _ => s.refusedRead src x w cause sub detail
  | .got t bs, some r =>
    match t.tableBytes x.lease bs with
    | .absent va => t.commandWaits src x w va
    | .refused cause sub detail =>
      if freezes cause sub || cause == 0x04 then t.refusedRead src x w cause sub detail else t.malformedLaunch src x w bs
    | .got u table => u.takeLaunch src x w r bs table
  | .got t _, none => t

/-- C.LAUNCH at its director (R43, R248, R249): one whose load waits goes on with what was read (R252, R313). -/
def execCLaunch (src : CtxId) (w : CWord) (s : State) : Host.Outcome State Fault Refusal :=
  atPort src w 0 0 s fun x =>
    if highBits w || gAddr w % 64 != 0 || cmdC w != 0 then s.badCmd src x w
    else
      match s.loadOf x.lease (.command src w) with
      | some k => s.childLaunch src x w k.req
      | none => s.readLaunch src x w

/-! ### C.JOIN and C.FREE (R46 to R48, R250, R251) -/

/-- C.JOIN at its director: it waits for the child's outcome, or is answered at once (R46, R250). -/
def execCJoin (src : CtxId) (w : CWord) (s : State) : Host.Outcome State Fault Refusal :=
  atPort src w 0 0 s fun x =>
    if cmdB w != 0 || cmdC w != 0 then s.badCmd src x w
    else
      (s.fresh.modRect src.slot fun r =>
        { r with joins := r.joins ++ [⟨s.cmdEntry src x w [], (cmdA w).toNat⟩] }).answerJoins src.slot

/-- A child of a rectangle freed, and its record released (R47, R48). -/
def State.freeChild (s : State) (slot child : Nat) : State :=
  let t := match s.live? child with
    | some n => s.freeRect n
    | none => s
  (t.modRect slot fun r => { r with children := r.children.filter fun k => k.handle != child }).answerJoins slot

/-- C.FREE at its director (R48, R251). -/
def execCFree (src : CtxId) (w : CWord) (s : State) : Host.Outcome State Fault Refusal :=
  atPort src w 0 0 s fun x =>
    if cmdB w != 0 || cmdC w != 0 then s.badCmd src x w
    else if (s.rect? src.slot).any fun r => (r.childRec? (cmdA w).toNat).isSome then
      (s.freeChild src.slot (cmdA w).toNat).fillToken src x.handle (cmdToken w) 0
    else s.fillToken src x.handle (cmdToken w) 3

end Sys2Proof.Machine
end

