-- ==== Sys2Proof/Machine/Cuts.lean ====
section
/-! DEFINITION. The configuration and the arming of a rectangle (R20, R61, R273, R278), cuts and freezes (R20, R21, R26, R90, R327,
R394), reels (R395, R396), moves (R23, R360) and restores (R336, R337, R351, R371). -/

namespace Sys2Proof

/-- An event that a node's outstanding read or atomic will bring it (R299, R300). -/
def Event.forNode (slot idx : Nat) : Event → Bool
  | .nodeReadResponse n i _ | .evictionResend (.node n i _ _) => n == slot && i == idx
  | .replyArrival (.node n i _ _) _ => n == slot && i == idx
  | .homeAtomic r | .combineWaitExpiry r | .retryResend (.amo r) | .evictionResend (.amo r) | .linkRetransmission (.amo r) =>
    match r.reply with
    | .node n i _ _ => n == slot && i == idx
    | _ => false
  | _ => false

/-- The edge on whose forward way a token or mark travels. -/
def Event.onEdge? : Event → Option (Nat × Nat)
  | .channelTokenArrival slot n _ | .commitMarkArrival slot n _ => some (slot, n)
  | _ => none

/-- The edge on which a token, a mark or a credit travels. -/
def Event.rides? : Event → Option (Nat × Nat)
  | .creditArrival slot n _ => some (slot, n)
  | e => e.onEdge?

/-- A command's way after its context moved (R336). -/
def Event.rekey (f : CtxId → CtxId) : Event → Event
  | .command src w => .command (f src) w
  | e => e

end Sys2Proof

namespace Sys2Proof.Machine

/-! ### Arming (R20, R61, R273, R278) -/

/-- CONFIG_WRITTEN of a fresh load: UNARMED, and the director checks. -/
def State.unarm (s : State) (slot : Nat) : State :=
  (s.modRect slot fun r => { r with state := .unarmed }).post 3 (.armCheck slot)

/-- The REEL record of a restore that failed its checks (R388, R396). -/
def State.reelRecord (s : State) (lease slot off code : Nat) : State :=
  s.postRecord lease (s.record 0x09 0x0B 0 0 (s.handleOf slot) 0xFFFF none 0 off code 0)

/-- A restore that fails its reel checks: FAULTED with REEL_CORRUPT, and EMPTY (R20, R47, R396). -/
def State.reelCorrupt (s : State) (slot : Nat) (r : Rect) (off code : Nat) : State :=
  (((s.reelRecord r.lease slot off code).report slot ⟨.faulted, 0x0B, 0xFFFF⟩).toEmpty slot).tellParent r.parent

/-- CONFIG_WRITTEN (R20, R396): a restore checks its reel before any cell is armed. -/
def execConfigWritten (s : State) : Host.Outcome State Fault Refusal :=
  match s.net.hand with
  | some (.configWritten slot) =>
    match s.rect? slot with
    | none => .next s
    | some r =>
      if r.state ≠ .loading then .next s
      else
        match if r.restoring then r.reel.bind Reel.damage else none with
        | some (off, code) => .next (s.reelCorrupt slot r off code)
        | none => .next (s.unarm slot)
  | _ => .fault .notDue

/-- The two ends of an edge declare different formats (R273). -/
def EdgeE.disagrees (e : EdgeE) : Bool := e.fmtP != 0xFF && e.fmtC != 0xFF && e.fmtP != e.fmtC

/-- The FORMAT record of an edge (R20, R388): DETAIL1 holds FMTP above FMTC. -/
def State.formatRecord (s : State) (lease slot : Nat) (e : EdgeE) : State :=
  s.postRecord lease (s.record 0x0A 0x0C 0 0 (s.handleOf slot) e.number none 0 e.number (e.fmtP * 256 + e.fmtC) 0)

/-- The seed of a context's generator under REPRO (R278): the image's digest over its place in the rectangle. -/
def reproSeed (digest : List Byte) (c : CtxId) (x : Ctx) : BitVec 32 :=
  BitVec.ofNat 32 (leNat (digest.take 4)) ^^^
    BitVec.ofNat 32 (c.col % 256 * 2 ^ 24 + c.row % 256 * 2 ^ 16 + c.ctx % 256 * 2 ^ 8 + (x.width / 8).log2)

/-- A context's generator seeded at arming (R278). -/
def State.seedCtx (s : State) (r : Rect) (c : CtxId) : State :=
  (s.modCtx c fun x =>
    { x with srseed := srSeed (if x.repro then reproSeed r.image.digest c x else Config.random s.tick) }).bump

/-- A launch starts its rectangle, or binds nothing and only arms it (R20, R234, R370). -/
def Rect.startsNow (r : Rect) : Bool := !(r.retain && r.binds.isEmpty)

/-! ### The beginning of a cut (R20, R21, R327) -/

/-- A rectangle as it begins to drain: one that is cut before its restore has brought it back to RUNNING goes on as one (R20, R21), and
a reservation for a move stays only where this is the move's cut (R360). -/
def Rect.drainFor (r : Rect) (why : CutWhy) (now : Nat) : Rect :=
  { r with state := .draining, wasRunning := r.state == .running || r.restoring, restoring := false, move := if why = .move then r.move else none,
           collector := some ⟨false, r.units, [], [], [], now, none, why, []⟩ }

/-- A cut begins: the director sends the cut tokens (R20, R327). -/
def State.beginCut (s : State) (slot : Nat) (r : Rect) (why : CutWhy) : State :=
  (s.setRect slot (r.drainFor why s.clock.cycles)).postAll 3 (r.image.cutTargets.map fun n => .cutTokenArrival slot n)

/-- An ARMED or RUNNING rectangle takes a cut request that was deferred (R21). -/
def State.deferredCut (s : State) (slot : Nat) (why : CutWhy) : State :=
  match s.rect? slot with
  | some r => s.beginCut slot { r with cutDeferred := none } why
  | none => s

/-- A cut request that has to wait: the rectangle is not armed yet, or completes first (R21). -/
def Rect.defersCut (r : Rect) : Bool :=
  r.state == .loading || r.state == .unarmed || ((r.state == .armed || r.state == .running) && r.completing != 0)

/-- CUT_REQUEST (R20, R21, R327): a freeze absorbs it, and a state without a row ignores it. -/
def execCutRequest (s : State) : Host.Outcome State Fault Refusal :=
  match s.net.hand with
  | some (.cutRequest slot why) =>
    match s.rect? slot with
    | none => .next s
    | some r =>
      if r.collector.isSome then .next s
      else if r.defersCut then .next (s.setRect slot { r with cutDeferred := some (r.cutDeferred.getD why) })
      else if r.state = .armed ∨ r.state = .running then .next (s.beginCut slot r why)
      else .next s
  | _ => .fault .notDue

/-! ### After the arm check (R20, R21) -/

/-- What comes to a rectangle that has armed: a cut that waited, else its start or its return to RUNNING, which reaches the director in
a step of its own (R20, R21, R23). -/
def State.afterArming (s : State) (slot : Nat) (r : Rect) : State :=
  match r.cutDeferred with
  | some why => s.deferredCut slot why
  | none => if r.startHeld.isSome || r.restoring then s.post 3 (.armCheck slot) else s

/-- A rectangle that arms afresh: ARMED with its seeds and the start of its launch. -/
def State.armFresh (s : State) (slot : Nat) (r : Rect) : State :=
  let q := { r with state := .armed, startHeld := if r.startsNow then some r.binds else none }
  ((s.allCtxs slot).foldl (fun u p => u.seedCtx r p.1) (s.setRect slot q)).afterArming slot q

/-- Every context of a slot returns from its cut record (R90, R336). -/
def State.uncutAll (s : State) (slot : Nat) : State := (s.allCtxs slot).foldl (fun t p => t.modCtx p.1 Ctx.uncut) s

/-- The end-of-stream tokens that the contexts of a slot still owe are sent where there is room (R215). -/
def State.payAll (s : State) (slot : Nat) : State := (s.allCtxs slot).foldl (fun t p => t.payEos p.1) s

/-- A restored rectangle arms (R20): its joins are answered (R49); one whose reel was taken from RUNNING goes on there from ARMED. -/
def State.armRestored (s : State) (slot : Nat) (r : Rect) : State :=
  let running := r.reel.any fun k => k.origin == 1
  let q := { r with state := .armed, reel := none, restoring := running, startHeld := if running then none else r.startHeld }
  let t := s.setRect slot q
  ((if running then t else t.uncutAll slot).answerJoins slot).afterArming slot q

/-- The restore of a reel taken from RUNNING completes arming: RUNNING, its contexts resumed, with no new start (R20, R90). -/
def State.resumeRect (s : State) (slot : Nat) (r : Rect) : State :=
  ((s.setRect slot { r with state := .running, restoring := false }).uncutAll slot).payAll slot

/-- An ARMED rectangle's start, or its return to RUNNING, reaches its director (R20, R21): one that is cut or frozen first holds it. -/
def State.takeStart (s : State) (slot : Nat) (r : Rect) : State :=
  if r.collector.isSome then s
  else if r.restoring then s.resumeRect slot r
  else
    match r.startHeld with
    | some bs => (s.setRect slot { r with startHeld := none }).applyStart slot bs
    | none => s

/-- ARM_CHECK (R20, R273): the lowest edge whose ends disagree is posted, and the rectangle stays UNARMED; once it is ARMED, its
start follows. -/
def execArmCheck (s : State) : Host.Outcome State Fault Refusal :=
  match s.net.hand with
  | some (.armCheck slot) =>
    match s.rect? slot with
    | none => .next s
    | some r =>
      if r.state = .armed then .next (s.takeStart slot r)
      else if r.state ≠ .unarmed then .next s
      else
        match r.image.edges.find? EdgeE.disagrees with
        | some e => .next (s.formatRecord r.lease slot e)
        | none => .next (if r.restoring then s.armRestored slot r else s.armFresh slot r)
  | _ => .fault .notDue

/-! ### Units stop (R26, R90, R226, R327, R394, R397) -/

/-- A collector that has seen a node stop. -/
def Collector.reach (k : Collector) (node : Nat) : Collector := { k with cutSent := k.cutSent ++ [node] }

/-- A node stops: its contexts are captured, a clock-gated cell of it wakes (R90, R397). -/
def State.stopNode (s : State) (slot node : Nat) : State :=
  let byCut := (s.rect? slot).any fun r => r.collector.any fun k => !k.freeze
  let t := (s.ctxsAt slot node).foldl (fun u c => (u.modCell c.cell fun k => { k with gated := false }).cutCtx byCut c) s
  t.modRect slot fun r => { r with collector := r.collector.map fun k => k.reach node }

/-- The consumers of a node's output edges, edge by edge. -/
def Image.consumers (im : Image) (node : Nat) : List Nat := (im.edges.filter fun e => e.src == node).map EdgeE.dst

/-- A node has reached its stopping point: no read or atomic of a memory node is on its way any more (R226, R327); a cell, a streamer
and a row half stop between two moves. -/
def State.atStop (s : State) (slot node : Nat) : Bool :=
  (s.nodesOf slot).all fun p => p.2.node != node || !s.net.agenda.any fun f => f.ev.forNode slot p.1

/-- A node that a cut token has reached sends one on every output edge, once it has reached its stopping point (R327). -/
def State.passCut (s : State) (slot node : Nat) : State :=
  match s.rect? slot with
  | some r =>
    if (r.collector.any fun k => !k.freeze && k.cutSent.contains node && !k.passed.contains node) && s.atStop slot node then
      (s.modRect slot fun q => { q with collector := q.collector.map fun k => { k with passed := k.passed ++ [node] } }).postAll 3
        ((r.image.consumers node).map fun n => .cutTokenArrival slot n)
    else s
  | none => s

/-- CUT_TOKEN_ARRIVAL (R327): the first token stops a node, which passes it on along its output edges, an engine from its stopping
point on. -/
def execCutTokenArrival (s : State) : Host.Outcome State Fault Refusal :=
  match s.net.hand with
  | some (.cutTokenArrival slot node) =>
    match s.rect? slot with
    | none => .next s
    | some r =>
      if r.collector.any fun k => !k.freeze && !k.cutSent.contains node then
        .next ((s.stopNode slot node).passCut slot node)
      else .next s
  | _ => .fault .notDue

/-- FREEZE_ARRIVAL (R394): a unit stops as at a cut; no cut token is sent. -/
def execFreezeArrival (s : State) : Host.Outcome State Fault Refusal :=
  match s.net.hand with
  | some (.freezeArrival slot node) =>
    match s.rect? slot with
    | none => .next s
    | some r =>
      if r.collector.any fun k => k.freeze && !k.cutSent.contains node then .next (s.stopNode slot node) else .next s
  | _ => .fault .notDue

/-- Nothing travels any more on an edge that a producer still feeds: its producer has stopped, and what it sent has landed (R336). -/
def State.edgeStill (s : State) (slot : Nat) (k : Collector) (e : EdgeE) (ev : Event → Option (Nat × Nat)) : Bool :=
  k.cutSent.contains e.src && !s.net.agenda.any fun f => ev f.ev == some (slot, e.number)

/-- A node's input is over: no read or atomic of a memory node is on its way (R226), and the tokens and marks on its input edges have
landed (R336). -/
def State.drained (s : State) (slot node : Nat) (r : Rect) (k : Collector) : Bool :=
  s.atStop slot node && r.image.edges.all fun e => e.dst != node || s.edgeStill slot k e Event.onEdge?

/-- The buffers of a switch are drained (R352): the edges routed through it carry nothing any more. A freeze has to have reached it. -/
def State.switchStill (s : State) (slot n : Nat) (r : Rect) (k : Collector) : Bool :=
  (!k.freeze || k.cutSent.contains (switchUnit n)) &&
    r.image.edges.all fun e => !(routeOf r.routes e.number).switches.contains n || s.edgeStill slot k e Event.rides?

/-- A stop acknowledgement is due: the unit has stopped, and has not sent it (R26). -/
def State.ackDue (s : State) (slot unit : Nat) : Bool :=
  match s.rect? slot with
  | none => false
  | some r =>
    r.collector.any fun k =>
      k.owed.contains unit && !k.ackSent.contains unit &&
        (if 65536 ≤ unit then s.switchStill slot (unit - 65536) r k else k.cutSent.contains unit && s.drained slot unit r k)

/-- A stop acknowledgement sent to the director, as class 3 (R25, R26). -/
def State.sendAck (s : State) (slot node : Nat) : State :=
  if s.ackDue slot node then
    (s.modRect slot fun r => { r with collector := r.collector.map fun k => { k with ackSent := k.ackSent ++ [node] } }).post 3
      (.stopAckArrival slot node)
  else s

/-- A collector that holds one more acknowledgement; the last one completes it, and the counter set's values are recorded (R422). -/
def Collector.acked (k : Collector) (node now : Nat) (counts : List (BitVec 48)) : Collector :=
  let owed := k.owed.filter fun n => n != node
  if owed.isEmpty then { k with owed := owed, complete := some now, counts := counts } else { k with owed := owed }

/-- STOP_ACK_ARRIVAL (R26, R394): the last acknowledgement of a freeze leaves the rectangle FROZEN; one that a cut had already on its
way may come twice. -/
def execStopAckArrival (s : State) : Host.Outcome State Fault Refusal :=
  match s.net.hand with
  | some (.stopAckArrival slot node) =>
    match (s.rect? slot).bind fun r => r.collector.map fun k => (r, k) with
    | none => .next s
    | some (r, k) =>
      if k.owed.contains node then
        let j := k.acked node s.clock.cycles (s.lease r.lease).counts
        let t := s.setRect slot { r with collector := some j }
        .next (if j.freeze && j.complete.isSome then t.frozen slot else t)
      else .next s
  | _ => .fault .notDue

/-! ### Reels (R90, R395) -/

/-- The sections of a rectangle's reel, KIND and KEY, in ascending order (R395). -/
def Rect.sections (r : Rect) : List (Nat × Nat) :=
  let im := r.image
  let indices := fun (k : NodeKind) => (List.range 256).filter fun i => (im.engines k).any fun p => p.2.index == i
  im.edges.map (fun e => (0x01, e.number)) ++
    ((List.range im.nodes.length).filterMap fun i =>
      ((im.taskOf i).bind fun _ => r.places.find? fun p => p.1 == i).map fun p => (0x02, i * 4 + p.2.ctx)) ++
    ((List.range im.w).flatMap fun c => (List.range im.h).map fun y => (0x03, c * 64 + y)) ++
    (indices .mem).map (fun i => (0x04, i)) ++ (indices .strm).map (fun i => (0x05, i)) ++
    (indices .mat).map (fun i => (0x06, i)) ++ (List.range im.ctls.length).map (fun i => (0x07, i)) ++ [(0x08, 0)]

/-- A section: its header, and a body whose layout is the device's own, but that the rectangle's state records the values of the counter
set (R395, R422). -/
def reelSection (tick : Nat) (counts : List (BitVec 48)) (k : Nat × Nat) : List Byte :=
  let b := (if k.1 = 0x08 then counts.flatMap fun v => leBytes 8 v.toNat else []) ++ Config.reelBody tick (k.1 * 2 ^ 32 + k.2)
  let body := b.take (b.length / 16 * 16)
  leBytes 2 k.1 ++ leBytes 4 k.2 ++ leBytes 2 0 ++ leBytes 8 body.length ++ body

/-- The bytes of a reel's sections. -/
def Rect.reelBody (r : Rect) (tick : Nat) (counts : List (BitVec 48)) : List Byte := r.sections.flatMap (reelSection tick counts)

/-- The bytes of a reel (R395). -/
def reelBytes (tick handle dtime origin : Nat) (counts : List (BitVec 48)) (r : Rect) : List Byte :=
  let body := r.reelBody tick counts
  let head := leBytes 4 0x4C454552 ++ leBytes 2 1 ++ leBytes 1 r.lease ++ leBytes 1 origin ++ leBytes 4 handle ++
    leBytes 1 r.image.w ++ leBytes 1 r.image.h ++ leBytes 2 r.sections.length ++ leBytes 8 (192 + body.length) ++ leBytes 8 dtime ++
    r.image.digest ++ leBytes 48 0
  head ++ body ++ sha384 (head ++ body) ++ leBytes 16 0

/-- The bytes of a lease's RESV frames (R376). -/
def Lease.resvBytes (l : Lease) : Nat := l.resv * l.dies.length * Config.frameBytes

/-- The bytes of RESV frames that image copies and reels take, but for the reel of one slot (R313, R395). -/
def State.resvUsed (s : State) (lease slot : Nat) : Nat :=
  ((s.rectsOf lease).map fun p => p.2.image.total + if p.1 = slot then 0 else p.2.reel.elim 0 Reel.bytes).foldl (· + ·)
    (((s.lease lease).loads.map fun k => k.bytes.length).foldl (· + ·) 0)

/-- The reels of a lease's other rectangles: where each begins, and the line at which it is over. -/
def State.reelSpans (s : State) (lease slot : Nat) : List (Nat × Nat) :=
  (s.rectsOf lease).filterMap fun p =>
    if p.1 = slot then none else p.2.reel.map fun k => (k.addr, k.addr + (k.bytes + 127) / 128 * 128)

/-- A reel of `n` bytes at a lease-physical address lies in the RESV frames, beyond the lease's own, and meets no other reel. -/
def Lease.reelAt (l : Lease) (spans : List (Nat × Nat)) (n a : Nat) : Bool :=
  decide (l.bytes ≤ a) && decide (a + n ≤ l.bytes + l.resvBytes) && spans.all fun p => decide (p.2 ≤ a) || decide (a + n ≤ p.1)

/-- The lease-physical address at which a reel of `n` bytes of a slot is written; none where the RESV frames lack room (R395). -/
def State.reelPlace (s : State) (lease slot n : Nat) : Option Nat :=
  let l := s.lease lease
  let spans := s.reelSpans lease slot
  if l.resvBytes < s.resvUsed lease slot + n then none
  else ((l.bytes + Config.reelAddress s.tick * 128) :: l.bytes :: spans.map Prod.snd).find? (l.reelAt spans n)

/-- A rectangle in SAVED (R20): Wyell restores by itself what it cut for area or for a suspension (R351, R371). -/
def Rect.saved (r : Rect) (k : Reel) (own : Bool) : Rect :=
  { r with state := .saved, reel := some k, collector := none, sliced := own }

/-- The reel written at a place of the RESV frames, the engines and the area released (R20, R395). -/
def State.saveRect (s : State) (slot addr : Nat) (r : Rect) (k : Collector) : State :=
  let origin := if r.wasRunning then 1 else 0
  let bs := reelBytes s.tick (s.handleOf slot) (k.complete.getD 0 / 4) origin k.counts r
  let own := k.why == .slice || k.why == .suspend
  (((s.setRect slot (r.saved ⟨origin, addr, bs.length, none⟩ own)).store (.dev r.lease addr) bs).releaseEngines slot).bump

/-- The place of a rectangle's reel, where the RESV frames have room for it. -/
def State.reelRoom (s : State) (slot : Nat) (r : Rect) (k : Collector) : Option Nat :=
  s.reelPlace r.lease slot (192 + (r.reelBody s.tick k.counts).length)

/-- The director may write the reel: no INFLIGHT entry and no unanswered write is left (R90). -/
def State.reelDue (s : State) (slot : Nat) : Bool :=
  ((s.rect? slot).bind Rect.collector).any (fun k => !k.freeze && k.complete.isSome) &&
    (s.allCtxs slot).all fun p => !p.2.hasInflight && p.2.tags.isEmpty

/-- The reel of a rectangle may be written, and has room. -/
def State.reelReady (s : State) (slot : Nat) : Bool :=
  s.reelDue slot && (s.rect? slot).any fun r => r.collector.any fun k => (s.reelRoom slot r k).isSome

/-! ### The checks of a reel (R396) -/

/-- What a restore finds wrong with a reel, the first in the order of R396, as an offset and a code: a line that cannot be corrected, a
header that does not match, a bad digest, another image. -/
def State.reelFault (s : State) (slot : Nat) (r : Rect) (k : Reel) : Option (Nat × Nat) :=
  let bs := s.load (.dev r.lease k.addr) k.bytes
  let header := fieldAt bs 0 4 == 0x4C454552 && fieldAt bs 4 2 == 1 && fieldAt bs 6 1 == r.lease && fieldAt bs 8 4 == s.handleOf slot &&
    fieldAt bs 0xC 1 == r.image.w && fieldAt bs 0xD 1 == r.image.h
  let known := (List.range ((k.bytes + 127) / 128)).find? fun i => s.damaged (.dev r.lease (k.addr + 128 * i)) 128
  match known.or (Config.reelDamage s.tick) with
  | some line => some (line % ((k.bytes + 127) / 128) * 128, 2)
  | none =>
    if !header then some (0, 3)
    else if (bs.drop (k.bytes - 64)).take 48 ≠ sha384 (bs.take (k.bytes - 64)) then some (k.bytes - 64, 1)
    else if (bs.drop 0x20).take 48 ≠ r.image.digest then some (0x20, 3)
    else none

/-! ### Restores (R23, R336, R337) -/

/-- The name of a context after a move. -/
def reCtx (m : List (CtxId × CtxId)) (c : CtxId) : CtxId := (m.find? fun p => p.1 == c).elim c Prod.snd

/-- A command after its context moved. -/
def Cmd.rekey (f : CtxId → CtxId) (c : Cmd) : Cmd := { c with src := f c.src }

/-- A memory node's commands after their contexts moved. -/
def MemNode.rekey (f : CtxId → CtxId) (n : MemNode) : MemNode :=
  { n with queue := n.queue.map (Cmd.rekey f),
           binding := n.binding.map fun b => { b with cmd := b.cmd.map (Cmd.rekey f), unbind := b.unbind.map (Cmd.rekey f) } }

/-- What a lease keeps for contexts, after they moved. -/
def Lease.rekey (f : CtxId → CtxId) (l : Lease) : Lease :=
  { l with
    tasks := l.tasks.map fun k => { k with cmd := k.cmd.rekey f },
    svcs := l.svcs.map fun v => { v with waiters := v.waiters.map (Event.rekey f) },
    loads := l.loads.map fun k => { k with ev := k.ev.rekey f } }

/-- A row half's commands after their contexts moved. -/
def RowHalf.rekey (f : CtxId → CtxId) (r : RowHalf) : RowHalf := { r with queue := r.queue.map (Cmd.rekey f) }

/-- A streamer's commands after their contexts moved. -/
def Streamer.rekey (f : CtxId → CtxId) (k : Streamer) : Streamer := { k with queue := k.queue.map (Cmd.rekey f) }

/-- A flight after a context moved. -/
def Flight.rekey (f : CtxId → CtxId) (x : Flight) : Flight := { x with ev := x.ev.rekey f }

/-- A context at its new cell: translation caches are not carried (R336). -/
def movedCtx (f : CtxId → CtxId) (slot : Nat) (p : CtxId × Ctx) : CtxId × Ctx :=
  if p.1.slot = slot then (f p.1, { p.2 with tcache := [] }) else p

/-- A cell at its new place: the round-robin pointer is 0 (R34, R336). -/
def movedCell (slot : Nat) (p : CellId × Cell) : CellId × Cell :=
  if p.1.slot = slot then (p.1, { p.2 with rr := 0, holder := none, permits := [], gated := false }) else p

/-- A join's command after its context moved. -/
def JoinWait.rekey (f : CtxId → CtxId) (j : JoinWait) : JoinWait := { j with cmd := j.cmd.rekey f }

/-- A table with its values changed. -/
def Tab.mapVal {κ α : Type} (f : α → α) (t : Tab κ α) : Tab κ α := t.map fun p => (p.1, f p.2)

/-- The tables of a slot after its contexts moved: everything is keyed by node, edge and index but the contexts' names
(R336). -/
def State.rekey (s : State) (slot lease : Nat) (f : CtxId → CtxId) : State :=
  let t := { s with
    ctxs := s.ctxs.map (movedCtx f slot),
    cells := s.cells.map (movedCell slot),
    strms := Tab.mapVal (Streamer.rekey f) s.strms,
    nodes := Tab.mapVal (MemNode.rekey f) s.nodes,
    rows := Tab.mapVal (RowHalf.rekey f) s.rows,
    net := { s.net with agenda := s.net.agenda.map (Flight.rekey f) } }
  (t.modLease lease (Lease.rekey f)).modRect slot fun r => { r with joins := r.joins.map (JoinWait.rekey f) }

/-- Where each context of a rectangle went. -/
def ctxMoves (old new : List (Nat × CtxId)) : List (CtxId × CtxId) :=
  old.filterMap fun p => (new.find? fun q => q.1 == p.1).map fun q => (p.2, q.2)

/-- A rectangle whose restore is admitted (R20). -/
def Rect.restored (r : Rect) (col row : Nat) (f : Fit) : Rect :=
  { r with state := .loading, restoring := true, col0 := col, row0 := row, places := f.places, drain := f.drain, routes := f.routes,
           move := none, sliced := false }

/-- The context numbers that a rectangle's actors keep (R336). -/
def Rect.ctxNo (r : Rect) (i : Nat) : Option Nat := (r.places.find? fun p => p.1 == i).map fun p => p.2.ctx

/-- A memory node as its rectangle is restored: responses that it holds come first (R336, R359). -/
def MemNode.resumed (n : MemNode) : MemNode := { n with held := !n.tags.isEmpty }

/-- The memory nodes of a slot as their rectangle is restored. -/
def State.holdTags (s : State) (slot : Nat) : State :=
  { s with nodes := s.nodes.map fun p => if p.1.1 = slot then (p.1, p.2.resumed) else p }

/-- A SAVED rectangle placed at an area, as it was found to stand there (R336, R337). -/
def State.restoreAt (s : State) (slot : Nat) (r : Rect) (m : MovePlan) : State :=
  let g := reCtx (ctxMoves r.places m.fit.places)
  let t := (((s.bump.holdTags slot).setRect slot (r.restored m.col m.row m.fit)).rekey slot r.lease g).bindEngines slot r.lease m.fit.engines
  ((t.modLease r.lease fun l => l.usePlacement (r.image.digest, r.image.shapeClass m.col m.row)).acquireAt slot r.lease).post 3
    (.configWritten slot)

/-- Where a SAVED rectangle is restored: at the target of its move, as that was prepared before the cut (R360), or at any free area of its
shape; none for NO_AREA. A reel that fails its checks needs no engine, and binds none (R337). -/
def State.restorePlan (s : State) (slot : Nat) (r : Rect) (bare : Bool) : Option MovePlan :=
  match r.move with
  | some m => some { m with fit := if bare then { m.fit with engines := [] } else m.fit }
  | none =>
    (s.pickArea r.image.w r.image.h []).bind fun p =>
      (s.fit slot r.lease r.image r.ctxNo p.1 p.2 bare).map fun f => ⟨p.1, p.2, f⟩

/-- A SAVED rectangle whose reel has been read: with what is wrong with it. -/
def State.readReel (s : State) (slot : Nat) (r : Rect) : Rect :=
  { r with reel := r.reel.map fun k => { k with damage := s.reelFault slot r k } }

/-- A rectangle's reel is known to fail its checks. -/
def Rect.damaged (r : Rect) : Bool := r.reel.any fun k => k.damage.isSome

/-- The restore of a SAVED rectangle; none for NO_AREA, which leaves it SAVED (R337). -/
def State.restoreRect (s : State) (slot : Nat) : Option State :=
  match s.rect? slot with
  | none => none
  | some q =>
    if q.state ≠ .saved then none
    else
      let r := s.readReel slot q
      (s.restorePlan slot r r.damaged).map fun m => s.restoreAt slot r m

/-- A SAVED rectangle can be restored now. -/
def State.restorable (s : State) (slot : Nat) (r : Rect) : Bool :=
  (s.restorePlan slot r false).isSome || ((s.readReel slot r).damaged && (s.restorePlan slot r true).isSome)

/-- REEL_WRITE (R20, R90, R395): the reel is written, and the rectangle is SAVED. Without room it waits. -/
def execReelWrite (s : State) : Host.Outcome State Fault Refusal :=
  match s.net.hand with
  | some (.reelWrite slot) =>
    match s.rect? slot with
    | none => .fault .noUnit
    | some r =>
      match r.collector with
      | none => .fault .notDue
      | some k =>
        if s.reelDue slot then
          match s.reelRoom slot r k with
          | some a => .next (s.saveRect slot a r k)
          | none => .next s
        else .fault .notDue
  | _ => .fault .notDue

/-! ### The limit of a collector (R394) -/

/-- The first node that holds the director up: one that owes its acknowledgement, else one with an INFLIGHT entry; a switch is no node. -/
def State.lateNode (s : State) (slot : Nat) (r : Rect) (k : Collector) : Nat :=
  (r.units.find? fun n => if k.owed.isEmpty then (s.ctxsAt slot n).any fun c => (s.ctx? c).any Ctx.hasInflight
    else k.owed.contains n).elim 0xFFFF fun n => if n < 65536 then n else 0xFFFF

/-- The collector's limit has passed: four times the drain bound from the request, or from its completion (R394). -/
def State.limitPassed (s : State) (slot : Nat) : Bool :=
  match s.rect? slot with
  | none => false
  | some r =>
    r.collector.any fun k =>
      match k.complete with
      | none => decide (k.started + 4 * r.drain < s.clock.cycles)
      | some t => !k.freeze && decide (t + 4 * r.drain < s.clock.cycles) && (s.allCtxs slot).any fun p => p.2.hasInflight

/-- The unit class of a node (R388). -/
def NodeKind.unitClass : NodeKind → Nat
  | .cell | .crew | .ctl => 0
  | .mem => 1
  | .strm => 2
  | .mat => 3

/-- Unit class and index of a node, as DETAIL0 carries them (R388). -/
def Image.unitOf (im : Image) (node : Nat) : Nat :=
  (im.nodes[node]?).elim 0 fun n => n.kind.unitClass + (if n.kind.unitClass = 0 then 0 else n.index) % 256 * 256

/-- A rectangle without an outcome is FAULTED by its director (R394). -/
def State.faultEnd (s : State) (slot : Nat) : State :=
  match s.rect? slot with
  | some r => if r.first.isNone && r.outcome.isNone then s.report slot ⟨.faulted, 0, 0xFFFF⟩ else s
  | none => s

/-- DRAIN_LIMIT_EXPIRY (R394): an ERROR record names the first late unit, and the rectangle is treated as FROZEN. -/
def execDrainLimitExpiry (s : State) : Host.Outcome State Fault Refusal :=
  match s.net.hand with
  | some (.drainLimitExpiry slot) =>
    match s.rect? slot with
    | none => .fault .noUnit
    | some r =>
      match r.collector with
      | none => .fault .notDue
      | some k =>
        if s.limitPassed slot then
          let n := s.lateNode slot r k
          let t := s.postRecord r.lease (s.record 0x0B 0 0 0 (s.handleOf slot) n none 0 (r.image.unitOf n) 0 0)
          .next (((t.cutAll slot).faultEnd slot).frozen slot)
        else .fault .notDue
  | _ => .fault .notDue

/-! ### Moves and restores by Wyell (R23, R351, R360, R371) -/

/-- A cut request of a slot is on its way. -/
def State.cutComing (s : State) (slot : Nat) : Bool :=
  s.net.agenda.any fun f => match f.ev with
    | .cutRequest n _ => n == slot
    | _ => false

/-- Wyell may move a rectangle to a place: it is ARMED or RUNNING with no other cut pending, and only its own cells are in the
way (R360). -/
def State.moveFree (s : State) (slot : Nat) (r : Rect) (col row : Nat) : Bool :=
  (r.state == .armed || r.state == .running) && r.collector.isNone && r.cutDeferred.isNone && r.move.isNone && !s.cutComing slot &&
    blockFree (s.heldBlocks [slot]) (col, row, r.image.w, r.image.h)

/-- A move as Wyell prepares it before the cut: placement, engines, routes and drain bound at the target (R334, R360). -/
def State.planMove (s : State) (slot col row : Nat) : Option MovePlan :=
  (s.rect? slot).bind fun r =>
    if s.slicing.isNone && s.moveFree slot r col row then
      (s.fit slot r.lease r.image r.ctxNo col row false).map fun f => ⟨col, row, f⟩
    else none

/-- MOVE_START (R23, R360): the target is reserved, with its engines, and the cut request sent. A move that cannot be made is not. -/
def execMoveStart (s : State) : Host.Outcome State Fault Refusal :=
  match s.net.hand with
  | some (.moveStart slot col row) =>
    match s.planMove slot col row with
    | some m => .next ((s.bump.modRect slot fun r => { r with move := some m }).post 3 (.cutRequest slot .move))
    | none => .next s
  | _ => .fault .notDue

/-- Wyell restores a rectangle by itself, while its lease is not suspended: one that moves, into its target (R23, R360); and the first
in deadline order of those of its lease that were cut for area or for a suspension, once the load that an area was made for has
taken it (R351, R371). -/
def State.autoDue (s : State) (slot : Nat) : Bool :=
  match s.rect? slot with
  | none => false
  | some r =>
    r.state == .saved && !(s.lease r.lease).suspended && s.restorable slot r &&
      (r.move.isSome || (r.sliced && s.slicing.isNone &&
        (s.rectsOf r.lease).all fun p => !(p.2.state == .saved && p.2.sliced && decide (p.2.item.deadline < r.item.deadline))))

/-- AUTO_RESTORE (R23, R351, R371): without room it comes again. -/
def execAutoRestore (s : State) : Host.Outcome State Fault Refusal :=
  match s.net.hand with
  | some (.autoRestore slot) =>
    match s.restoreRect slot with
    | some t => .next t
    | none => .next s
  | _ => .fault .notDue

end Sys2Proof.Machine
end

