-- ==== Sys2Proof/Machine/Host.lean ====
section
/-! DEFINITION. The host's side of a lease: accesses through its memory window (R363), launch queues and records (R368 to R373), the
fault queue, page service and invalidation (R385, R386, R389), and the counter set (R419). -/

namespace Sys2Proof

/-- An event that its unit offers again by itself once what it waited for has come: it needs no packet. -/
def Event.offered : Event → Bool
  | .engineCommandStart _ | .rowHalfKstep _ | .nodeSinkWrite _ _ | .nodeRequestElement _ _ | .completionSignalWrite _
  | .launchRecordRead _ _ [] => true
  | _ => false

end Sys2Proof

namespace Sys2Proof.Machine

/-! ### The memory window (R363) -/

/-- A lease is live. -/
def State.isLive (s : State) (lease : Nat) : Bool := (s.lease lease).state == .live

/-- The HOSTERR record of a host access (R363, R388). -/
def State.hostErr (s : State) (lease va cause sub detail : Nat) (write : Bool) : State :=
  s.postRecord lease (s.record 0x07 cause sub 2 0 0xFFFF none va (s.lease lease).port (if cause = 0x04 then detail else sub)
    (if write then 1 else 0))

/-- A host access to an absent page is held (R363, R389). -/
def State.hostWaits (s : State) (lease va : Nat) (write : Bool) (ev : Event) : State :=
  s.awaitPage lease va (s.pageRecord 0 0xFFFF none va write true) ev

/-- The host's access is answered. -/
def State.hostAnswer (s : State) (id : Nat) (bs : List Byte) : State :=
  { s with host := { s.host with answers := s.host.answers ++ [(id, bs)] } }

/-- All-ones data. -/
def allOnes (n : Nat) : List Byte := List.replicate n 0xFF#8

/-- HOST_CXL_READ (R363): a lease that is not LIVE reads all-ones (R379). -/
def execHostCxlRead (s : State) : Host.Outcome State Fault Refusal :=
  match s.net.hand with
  | some (.hostCxlRead lease va n id) =>
    if !s.isLive lease then .next (s.hostAnswer id (allOnes n))
    else
      match s.span none lease va n false with
      | .absent a => .next (s.hostWaits lease a false (.hostCxlRead lease va n id))
      | .refused cause sub detail a => .next ((s.hostErr lease a cause sub detail false).hostAnswer id (allOnes n))
      | .ok ps => let (t, bs) := s.pull noAgent ps; .next (t.hostAnswer id bs)
  | _ => .fault .notDue

/-- Pieces written at their homes for the host or the hub. -/
def State.pushHost (s : State) (a : Agent) (ps : List (Nat × Loc × Nat)) (bs : List Byte) : State :=
  ps.foldl (fun t p => (t.touch a p.2.1 true).homeWrite none p.2.1 ((bs.drop p.1).take p.2.2)) s

/-- HOST_CXL_WRITE (R363): a refused write is dropped. -/
def execHostCxlWrite (s : State) : Host.Outcome State Fault Refusal :=
  match s.net.hand with
  | some (.hostCxlWrite lease va data) =>
    if !s.isLive lease then .next s
    else
      match s.span none lease va data.length true with
      | .absent a => .next (s.hostWaits lease a true (.hostCxlWrite lease va data))
      | .refused cause sub detail a => .next (s.hostErr lease a cause sub detail true)
      | .ok ps => .next (s.pushHost noAgent ps data)
  | _ => .fault .notDue

/-- The request of a host atomic at its home: it never combines (R363). -/
def State.hostAmo (s : State) (lease : Nat) (l : Loc) (fn : AmoFn) (b cmp : BitVec 64) (id : Nat) : AmoReq :=
  ⟨.hostPort (s.lease lease).port, lease, BitVec.ofNat 16 s.clock.nextId, fn, l, b, cmp, true, false, false, none,
    .host (s.lease lease).port id, 2⟩

/-- HOST_ATOMIC (R305, R363): ADD, SWAP and CAS of an aligned word. -/
def execHostAtomic (s : State) : Host.Outcome State Fault Refusal :=
  match s.net.hand with
  | some (.hostAtomic lease va fn b cmp id) =>
    if !Sys2Proof.Machine.hostAmo fn || va % 8 != 0 then .fault .notDue
    else if !s.isLive lease then .next (s.hostAnswer id (allOnes 8))
    else
      match s.engineLoc none lease va true with
      | .absent => .next (s.hostWaits lease va true (.hostAtomic lease va fn b cmp id))
      | .refused cause sub detail => .next ((s.hostErr lease va cause sub detail true).hostAnswer id (allOnes 8))
      | .found l => .next (s.fresh.performAtomic (s.hostAmo lease l fn b cmp id))
  | _ => .fault .notDue

/-! ### Launch queues (R368, R369) -/

/-- STOPPED, RUNNING and ERROR of LQ_STATUS (R368). -/
def lqStopped : Nat := 0
/-- RUNNING. -/
def lqRunning : Nat := 1
/-- ERROR. -/
def lqError : Nat := 2

/-- A queue in ERROR with a code and a sequence number (R368, R369). -/
def LaunchQueue.fail (q : LaunchQueue) (code : Nat) (eseq : BitVec 32) : LaunchQueue :=
  { q with state := lqError, code := code, eseq := eseq, reading := false }

/-- A launch queue of a lease changed. -/
def Lease.modQueue (l : Lease) (n : Nat) (f : LaunchQueue → LaunchQueue) : Lease :=
  { l with lqs := if h : n < 4 then l.lqs.set n (f l.lqs[n]) else l.lqs }

/-- A launch queue of a lease; there are four. -/
def Lease.queue (l : Lease) (n : Nat) : LaunchQueue := l.lqs.toList.getD n LaunchQueue.reset

/-- A queue enters ERROR and raises vector 2 (R365). -/
def Lease.queueError (l : Lease) (n code : Nat) (eseq : BitVec 32) : Lease :=
  (l.modQueue n fun q => q.fail code eseq).raiseVector 2

/-- An identifier that has a lease block: 1 to 255 (R15, R375). -/
def isTenant (lease : Nat) : Bool := decide (0 < lease) && decide (lease < 256)

/-- A register of a virtual function takes a write, whatever the state of its lease: what is written is read back (R10). Lease 0 has none. -/
def State.vfWrite (s : State) (lease : Nat) (f : Lease → Lease) : State := if isTenant lease then s.modLease lease f else s

/-- A doorbell of a launch queue (R369). -/
def Lease.tailDoorbell (l : Lease) (n : Nat) (v : BitVec 32) : Lease :=
  let q := l.queue n
  let m := l.modQueue n fun p => { p with door := v }
  if q.state = lqError then m
  else if 2 ^ q.sizel < (v - q.head).toNat then m.queueError n 0x02 v
  else m.modQueue n fun p => { p with tail := v }

/-- LQ_TAIL_DOORBELL (R369). -/
def execLqTailDoorbell (s : State) : Host.Outcome State Fault Refusal :=
  match s.net.hand with
  | some (.lqTailDoorbell lease n v) => .next (s.vfWrite lease fun l => l.tailDoorbell n (v.setWidth 32))
  | _ => .fault .notDue

/-- A write of LQ_HEAD (R368). -/
def LaunchQueue.headWrite (q : LaunchQueue) (v : BitVec 32) : LaunchQueue :=
  if q.state = lqStopped then { q with head := v, tail := v } else q

/-- LQ_HEAD_WRITE (R368). -/
def execLqHeadWrite (s : State) : Host.Outcome State Fault Refusal :=
  match s.net.hand with
  | some (.lqHeadWrite lease n v) => .next (s.vfWrite lease fun l => l.modQueue n fun q => q.headWrite (v.setWidth 32))
  | _ => .fault .notDue

/-- A write of LQ_CTL (R368, R369): EN = 0 stops a queue once no read is in progress. CODE and ESEQ stay as they are: DESIGN CHOICE (log entry
127). -/
def LaunchQueue.ctlWrite (q : LaunchQueue) (v : BitVec 64) : LaunchQueue :=
  let pol := v.getLsbD 7
  let en := v.getLsbD 6
  let size := (v.extractLsb' 0 5).toNat
  if q.state = lqStopped then
    if size = 0 ∨ 16 < size then q
    else { q with pol := pol, en := en, sizel := size, state := if en then lqRunning else lqStopped }
  else { q with pol := pol, en := en, state := if !en && !q.reading then lqStopped else q.state }

/-- LQ_CTL_WRITE (R368, R369). -/
def execLqCtlWrite (s : State) : Host.Outcome State Fault Refusal :=
  match s.net.hand with
  | some (.lqCtlWrite lease n v) => .next (s.vfWrite lease fun l => l.modQueue n fun q => q.ctlWrite v)
  | _ => .fault .notDue

/-! ### Launch records (R370, R372) -/

/-- NBIND of a record. -/
def recNbind (bs : List Byte) : Nat := fieldAt bs 8 1
/-- TARGET of a record. -/
def recTarget (bs : List Byte) : Nat := fieldAt bs 0x24 4
/-- The binding table of a record stands apart: it has more than three entries (R370). -/
def recTabled (bs : List Byte) : Bool := decide (3 < recNbind bs) && decide (recNbind bs ≤ 16)

/-- An address of a record is in range: of 57 bits, and aligned. -/
def badAddr (a align : Nat) : Bool := decide (2 ^ 57 ≤ a) || a % align != 0

/-- Check 2 of R372: a field that has to be zero, a range, or the fields that TARGET fixes (R370). -/
def recBadFields (bs : List Byte) : Bool :=
  let n := recNbind bs
  let w := fieldAt bs 6 1
  let h := fieldAt bs 7 1
  let fresh := recTarget bs = 0
  decide (8 ≤ fieldAt bs 4 2) || anyByte bs 9 12 || anyByte bs 0x48 0x50 || decide (16 < n) || badAddr (fieldAt bs 0x28 8) 8 ||
    badAddr (fieldAt bs 0x38 8) 8 || (if 3 < n then badAddr (fieldAt bs 0x40 8) 16 else fieldAt bs 0x40 8 != 0) ||
    anyByte bs (0x50 + 16 * (if 3 < n then 0 else n)) 0x80 ||
    (if fresh then w == 0 || decide (128 < w) || h == 0 || decide (64 < h) || decide (2 ^ 57 ≤ fieldAt bs 0x10 8) || fieldAt bs 0x20 4 == 0
     else w != 0 || h != 0 || anyByte bs 0x10 0x24)

/-- The binding entries of a record and its table. -/
def recBinds (bs table : List Byte) : List RawBind :=
  if recTabled bs then parseBinds table (recNbind bs) else parseBinds (bs.drop 0x50) (recNbind bs)

/-- The launch that a record asks for (R370). -/
def recLaunch (lease : Nat) (pol : Bool) (bs table : List Byte) : LaunchReq :=
  let flags := fieldAt bs 4 2
  { lease := lease, va := fieldAt bs 0x10 8, shape := some (fieldAt bs 6 1, fieldAt bs 7 1), retain := flags % 2 == 1,
    repro := flags / 2 % 2 == 1, preemptOk := flags / 4 % 2 == 1, demote := pol, parent := none, depth := 1,
    deadline := fieldAt bs 0x18 8, budget := fieldAt bs 0x20 4, iter := fieldAt bs 0x0C 4, sigAddr := fieldAt bs 0x28 8,
    sigVal := BitVec.ofNat 64 (fieldAt bs 0x30 8), stAddr := fieldAt bs 0x38 8, binds := recBinds bs table }

/-- The address at which a record's status words are written: none where it is no address (R373). -/
def recStatus (bs : List Byte) : Nat := let a := fieldAt bs 0x38 8; if badAddr a 8 then 0 else a

/-- DETAIL2 of a record's LOAD record (R388). -/
def recDetail (q : Nat) (bs : List Byte) : Nat := 2 ^ 63 + q * 2 ^ 32 + fieldAt bs 0 4

/-- A record refused (R372, R373): the status word, and the LOAD record. -/
def State.refuseRecord (s : State) (lease q : Nat) (bs : List Byte) (check : Nat) (number : Option Nat) (admission : Nat) : State :=
  (s.writeStatus lease (recStatus bs) 0 (statusWord 0 admission check 0 9)).loadRecord lease 0 check number (recDetail q bs)

/-- A record refused at a stage of its launch (R373). -/
def State.refuseStage (s : State) (lease q : Nat) (bs : List Byte) (why : Stage) : State :=
  match why with
  | .image k n _ => s.refuseRecord lease q bs k n 0
  | .table _ _ => s.refuseRecord lease q bs 1 none 0
  | .fields => s.refuseRecord lease q bs 0x13 none 0
  | .format => s.refuseRecord lease q bs 0x13 none 0x05
  | .admission c => s.refuseRecord lease q bs 0x14 none c

/-- A record accepted (R373). -/
def State.acceptRecord (s : State) (lease slot : Nat) (bs : List Byte) : State :=
  let h := s.handleOf slot
  s.writeStatus lease (recStatus bs) h (statusWord h 0 0 0 8)

/-- A record in hand waits for a page: its bytes and its table's are kept (R369, R389). -/
def State.recordWaits (s : State) (lease q : Nat) (bs table : List Byte) (va : Nat) : State :=
  s.awaitPage lease va (s.pageRecord 0 0xFFFF none va false false) (.launchRecordRead lease q (bs ++ table))

/-- A record that loads a rectangle: one that is only armed reports its acceptance alone (R372, R373). -/
def State.loadNew (s : State) (lease q : Nat) (bs table : List Byte) : State :=
  let req := recLaunch lease ((s.lease lease).queue q).pol bs table
  match s.launch req (.launchRecordRead lease q (bs ++ table)) with
  | .waits t va => t.recordWaits lease q bs table va
  | .slices t => t.post 3 (.launchRecordRead lease q (bs ++ table))
  | .refused t why => t.refuseStage lease q bs why
  | .accepted t slot =>
    (t.acceptRecord lease slot bs).modRect slot fun r => if r.startsNow then r else { r with stAddr := 0 }

/-- A record that starts a retained rectangle again: its bindings are applied as C.BIND commands (R372). -/
def Rect.startedBy (r : Rect) (q : LaunchReq) : Rect :=
  { r with sigAddr := q.sigAddr, sigVal := q.sigVal, stAddr := q.stAddr, iter := q.iter,
           binds := q.binds.map fun b => ⟨b.g, b.tokens, b.index⟩ }

/-- Check 3 of R372: the rectangle that TARGET names; one whose start is on its way counts as started. -/
def State.recTargetRect (s : State) (lease : Nat) (bs : List Byte) : Option (Nat × Rect) :=
  (s.live? (recTarget bs)).bind fun n =>
    ((s.rect? n).filter fun r => r.lease == lease && r.retain && r.state == .armed && r.startHeld.isNone).map fun r => (n, r)

/-- A record with TARGET ≠ 0 (R372). -/
def State.loadAgain (s : State) (lease q : Nat) (bs table : List Byte) : State :=
  match s.recTargetRect lease bs with
  | none => s.refuseRecord lease q bs 0x12 none 0
  | some (n, r) =>
    let req := recLaunch lease false bs table
    match s.bindCheck lease r.image req.binds with
    | .absent va => s.recordWaits lease q bs table va
    | .fields => s.refuseStage lease q bs .fields
    | .format => s.refuseStage lease q bs .format
    | .ok =>
      let r1 := r.startedBy req
      ((s.setRect n r1).acceptRecord lease n bs).applyStart n r1.binds

/-- EMBER: the device is in Ember state (R366, R402). -/
def State.ember (s : State) : Bool := s.dev.ember

/-- The checks of R372, in their order; a lease that is ending refuses every item as a suspended one does (R379). A load that waited and
is refused now leaves no copy of its image (R313). -/
def State.takeRecord (s : State) (lease q : Nat) (bs table : List Byte) : State :=
  let gone := s.dropLoad lease (.launchRecordRead lease q (bs ++ table))
  if s.ember then gone.refuseRecord lease q bs 0x10 none 0
  else if (s.lease lease).suspended then gone.refuseRecord lease q bs 0x10 none 0x09
  else if recBadFields bs then s.refuseRecord lease q bs 0x11 none 0
  else if recTarget bs = 0 then s.loadNew lease q bs table
  else s.loadAgain lease q bs table

/-- HEAD advances, and the turn passes to the next queue (R369). -/
def Lease.advanceQueue (l : Lease) (n : Nat) : Lease :=
  { l.modQueue n fun q => { q with head := q.head + 1, reading := false } with lqTurn := (n + 1) % 4 }

/-- The read of a record waits for a page (R369, R389). -/
def State.readWaits (s : State) (lease n va : Nat) : State :=
  (s.modLease lease fun l => l.modQueue n fun q => { q with reading := true }).awaitPage lease va
    (s.pageRecord 0 0xFFFF none va false false) (.launchRecordRead lease n [])

/-- A queue whose read cannot be made, or that is out of sequence (R369). -/
def State.stopQueue (s : State) (lease n code : Nat) : State :=
  s.modLease lease fun l => l.queueError n code (l.queue n).head

/-- The table of a record that names one. -/
def State.recTable (s : State) (lease : Nat) (bs : List Byte) : ImageBytes :=
  if recTabled bs && !badAddr (fieldAt bs 0x40 8) 16 then s.hubBytes lease (fieldAt bs 0x40 8) (16 * recNbind bs) else .got s []

/-- The record at HEAD and its table are read, checked for sequence, and taken (R369). -/
def State.readRecord (s : State) (lease n : Nat) : State :=
  let q := (s.lease lease).queue n
  match s.hubBytes lease (q.base.toNat + q.head.toNat % 2 ^ q.sizel * 128) 128 with
  | .absent va => s.readWaits lease n va
  | .refused _ _ _ => s.stopQueue lease n 0x03
  | .got t bs =>
    match t.recTable lease bs with
    | .absent va => t.readWaits lease n va
    | .refused _ _ _ => t.stopQueue lease n 0x03
    | .got u table =>
      if fieldAt bs 0 4 ≠ q.head.toNat then u.stopQueue lease n 0x01
      else (u.modLease lease fun l => l.advanceQueue n).takeRecord lease n bs table

/-- A record of a lease that has been taken waits for a page or for area: the queues read no other one (R343, R369). -/
def Event.heldRecord (lease : Nat) : Event → Bool
  | .launchRecordRead l _ (_ :: _) => l == lease
  | _ => false

/-- A taken record of a lease is still in hand. -/
def State.recordInHand (s : State) (lease : Nat) : Bool :=
  (s.net.agenda.any fun f => Event.heldRecord lease f.ev) ||
    (s.lease lease).svcs.any fun v => v.waiters.any (Event.heldRecord lease)

/-- A queue has a record to read. -/
def LaunchQueue.ready (q : LaunchQueue) : Bool := q.state == lqRunning && q.tail != q.head

/-- A queue's turn: it is the first with a record to read from the turn on (R369); the lease's hub reads one record at a time. -/
def State.recordDue (s : State) (lease n : Nat) : Bool :=
  let l := s.lease lease
  let order := (List.range 4).map fun k => (l.lqTurn + k) % 4
  s.isLive lease && !s.recordInHand lease && !s.waitsForPage (.launchRecordRead lease n []) &&
    (match order.find? fun k => (l.queue k).reading with
     | some k => k == n
     | none => (order.find? fun k => (l.queue k).ready) == some n)

/-- LAUNCH_RECORD_READ (R369, R372): the record at HEAD, or one already taken that waited. A read that waited ends without effect
where EN has been cleared. -/
def execLaunchRecordRead (s : State) : Host.Outcome State Fault Refusal :=
  match s.net.hand with
  | some (.launchRecordRead lease n []) =>
    if !s.recordDue lease n then .fault .notDue
    else if !((s.lease lease).queue n).en then
      .next (s.modLease lease fun l => l.modQueue n fun q => { q with state := lqStopped, reading := false })
    else .next (s.readRecord lease n)
  | some (.launchRecordRead lease n bytes) =>
    if (s.lease lease).state = .none then .next s else .next (s.takeRecord lease n (bytes.take 128) (bytes.drop 128))
  | _ => .fault .notDue

/-! ### The fault queue (R386) -/

/-- A head doorbell (R386). -/
def FaultQueue.headDoorbell (q : FaultQueue) (v : Nat) : FaultQueue :=
  if (v + 2 ^ 32 - q.head) % 2 ^ 32 ≤ q.used then { q with head := v } else { q with hderr := true }

/-- FQ_HEAD_DOORBELL (R386): room in the ring lets held records out. -/
def execFqHeadDoorbell (s : State) : Host.Outcome State Fault Refusal :=
  match s.net.hand with
  | some (.fqHeadDoorbell lease v) =>
    .next ((s.vfWrite lease fun l => { l with fq := l.fq.headDoorbell (v.toNat % 2 ^ 32) }).serveQueue lease)
  | _ => .fault .notDue

/-- A write of FQ_CTL (R386). -/
def FaultQueue.ctlWrite (q : FaultQueue) (v : BitVec 64) : FaultQueue :=
  let en := v.getLsbD 7
  let size := (v.extractLsb' 0 5).toNat
  if q.en then { q with en := en }
  else if size < 4 ∨ 12 < size then q
  else { q with en := en, sizel := size, lost := if en then 0 else q.lost }

/-- FQ_CTL_WRITE (R386). -/
def execFqCtlWrite (s : State) : Host.Outcome State Fault Refusal :=
  match s.net.hand with
  | some (.fqCtlWrite lease v) => .next ((s.vfWrite lease fun l => { l with fq := l.fq.ctlWrite v }).serveQueue lease)
  | _ => .fault .notDue

/-! ### Page service (R389) -/

/-- The class of the packet that carries an access which waited for a page: that of its context, its request or its rectangle's engines
(R354). -/
def State.eventClass (s : State) (ev : Event) : Nat :=
  match ev with
  | .command src _ => (s.ctx? src).elim 2 s.ctxClass
  | .pageWalkDone w => ((w.who.bind s.ctx?).elim 2 s.ctxClass)
  | e =>
    match e.req? with
    | some r => r.cls
    | none => (e.slot?).elim 2 s.slotClass

/-- Accesses that waited for a page go on, ahead of what was sent later. -/
def State.resend (s : State) (evs : List Event) : State :=
  let fs := (evs.filter fun e => !e.offered).map fun e => (⟨s.clock.cycles, s.eventClass e, Config.buffer s.tick, s.clock.cycles, e⟩ : Flight)
  { s with net := { s.net with agenda := fs ++ s.net.agenda } }.bump

/-- A page-service record answered: the accesses that wait on it restart their walks (R389). -/
def State.resume (s : State) (lease seq : Nat) : State :=
  match (s.lease lease).svcs.find? fun v => v.posted && v.seq == seq with
  | none => s
  | some v =>
    ((((s.modLease lease fun l => { l with svcs := l.svcs.filter fun w => w.entry != v.entry }).resend v.waiters).flushAll
      lease).serveQueue lease)

/-- FQ_RESUME_WRITE (R389). -/
def execFqResumeWrite (s : State) : Host.Outcome State Fault Refusal :=
  match s.net.hand with
  | some (.fqResumeWrite lease v) => .next (if isTenant lease then s.resume lease (v.toNat % 2 ^ 32) else s)
  | _ => .fault .notDue

/-! ### Invalidation (R385) -/

/-- A write of FQ_INVCNT: ignored while an invalidation is in progress. -/
def FaultQueue.startInv (q : FaultQueue) (count : Nat) : FaultQueue :=
  if q.inval.isSome then q else { q with inval := some ((q.invVa.extractLsb' 16 41).toNat * 65536, count) }

/-- FQ_INVCNT_WRITE (R385). -/
def execFqInvcntWrite (s : State) : Host.Outcome State Fault Refusal :=
  match s.net.hand with
  | some (.fqInvcntWrite lease v) => .next (s.vfWrite lease fun l => { l with fq := l.fq.startInv (v.toNat % 2 ^ 32) })
  | _ => .fault .notDue

/-- A cached translation lies in an invalidation's range; a count of 0 covers the whole lease. -/
def TlbEntry.inRange (e : TlbEntry) (lease va count : Nat) : Bool :=
  e.lease == lease && (count == 0 || (decide (va < e.va + e.bytes) && decide (e.va < va + count * 65536)))

/-- A request of a lease that was translated, and is on its way to its home. -/
def Event.onWay (lease : Nat) : Event → Bool
  | .homeReadWrite r | .retryResend (.rw r) | .evictionResend (.rw r) | .linkRetransmission (.rw r) => r.lease == lease
  | .homeAtomic r | .combineWaitExpiry r | .retryResend (.amo r) | .evictionResend (.amo r) | .linkRetransmission (.amo r) =>
    r.lease == lease
  | .homeDequeOp r | .retryResend (.dq r) | .evictionResend (.dq r) | .linkRetransmission (.dq r) => r.lease == lease
  | .homeAcquireRequest r | .homeRelease r | .retryResend (.acquire r) | .retryResend (.release r) | .evictionResend (.acquire r)
  | .evictionResend (.release r) => r.lease == lease
  | .homeWaitaRequest r | .retryResend (.waita r) | .evictionResend (.waita r) => r.lease == lease
  | _ => false

/-- A cached translation leads to a place. -/
def TlbEntry.maps (e : TlbEntry) (l : Loc) : Bool :=
  (e.loc e.va).sameSpace l && decide (e.leaf.addr ≤ l.addr) && decide (l.addr < e.leaf.addr + e.bytes)

/-- A place is reached through a cached translation of a range, which an invalidation drops (R385). -/
def State.throughRange (s : State) (lease va count : Nat) (l : Loc) : Bool :=
  (s.homes.tlbs.flatMap Prod.snd ++ s.ctxs.flatMap fun p => p.2.tcache).any fun e => e.inRange lease va count && e.maps l

/-- The invalidation of a lease can end: every access translated before has been performed at its home, one that waits there among them
(R385). -/
def State.invalDue (s : State) (lease : Nat) : Bool :=
  match (s.lease lease).fq.inval with
  | some (va, count) =>
    (!s.net.agenda.any fun f => Event.onWay lease f.ev) &&
      !s.homes.waiters.any fun w => w.lease == lease && s.throughRange lease va count w.loc
  | none => false

/-- A cache without the entries of a range. -/
def dropRange (lease va count : Nat) (es : List TlbEntry) : List TlbEntry := es.filter fun e => !e.inRange lease va count

/-- A page of 64 KiB lies in an invalidation's range. -/
def pageInRange (va count page : Nat) : Bool :=
  count == 0 || (decide (va < page * 65536 + 65536) && decide (page * 65536 < va + count * 65536))

/-- A context without the cached translations of a range, and without what its walks there have found. -/
def Ctx.invalidate (lease va count : Nat) (x : Ctx) : Ctx :=
  { x with
    tcache := dropRange lease va count x.tcache
    walk := if x.lease = lease then { x.walk with failed := x.walk.failed.filter fun p => !pageInRange va count p.1 } else x.walk }

/-- The cached translations of a range dropped everywhere (R385). -/
def State.dropTlbs (s : State) (lease va count : Nat) : State :=
  { s with
    homes := { s.homes with tlbs := Tab.mapVal (dropRange lease va count) s.homes.tlbs },
    ctxs := Tab.mapVal (Ctx.invalidate lease va count) s.ctxs }

/-- INVALIDATION_DONE (R385). -/
def execInvalidationDone (s : State) : Host.Outcome State Fault Refusal :=
  match s.net.hand with
  | some (.invalidationDone lease) =>
    match (s.lease lease).fq.inval with
    | some (va, count) =>
      if s.invalDue lease then
        .next ((s.dropTlbs lease va count).modLease lease fun l => { l with fq := { l.fq with inval := none } })
      else .fault .notDue
    | none => .fault .notDue
  | _ => .fault .notDue

/-! ### The counter set (R419) -/

/-- A counter of a lease changed. -/
def Lease.modCounter (l : Lease) (n : Nat) (f : Counter → Counter) : Lease :=
  { l with counters := if h : n < 8 then l.counters.set n (f l.counters[n]) else l.counters }

/-- A write of CNT(n): taken only while the counter is disabled. -/
def Counter.valueWrite (k : Counter) (v : BitVec 64) : Counter :=
  if k.cfg.getLsbD 21 then k else { k with value := v.setWidth 48 }

/-- CNT_WRITE (R419). -/
def execCntWrite (s : State) : Host.Outcome State Fault Refusal :=
  match s.net.hand with
  | some (.cntWrite lease n v) => .next (s.vfWrite lease fun l => l.modCounter n fun k => k.valueWrite v)
  | _ => .fault .notDue

/-- A write of CNTSEL(n): one with RECT set, an unknown event or a reserved field set is ignored. -/
def Counter.selWrite (k : Counter) (v : BitVec 64) : Counter :=
  if badCounterConfig v || v.getLsbD 15 then k else k.configure v none

/-- CNTSEL_WRITE (R419). -/
def execCntselWrite (s : State) : Host.Outcome State Fault Refusal :=
  match s.net.hand with
  | some (.cntselWrite lease n v) => .next (s.vfWrite lease fun l => l.modCounter n fun k => k.selWrite v)
  | _ => .fault .notDue

end Sys2Proof.Machine
end

