-- ==== Sys2Proof/Machine/Hub.lean ====
section
/-! DEFINITION. The life of a lease (R375 to R379), the commands of LEASE_CMD (R377), LEASE_SCHED and LEASE_PT (R338, R371, R376), and
the requests of a virtual function's mailbox but for the signed ones (R255, R269, R297, R367). -/

namespace Sys2Proof

/-- A lease whose request waits at a home and is withdrawn as the lease ends (R203, R379). -/
def Event.parkedOf (lease : Nat) : Event → Bool
  | .waitaHostPoll r => r.lease == lease
  | .carveRepartition l => l == lease
  | _ => false

/-- A purge of a rectangle of a lease (R207). -/
def Event.purgeOf (lease : Nat) : Event → Bool
  | .purgeArrival handle _ => handle / 16777216 % 256 == lease
  | _ => false

end Sys2Proof

namespace Sys2Proof.Machine

/-! ### Lease commands (R376, R377) -/

/-- RESULT: done. -/
def resDone : Nat := 0x00
/-- RESULT: refused in this state. -/
def resState : Nat := 0x01
/-- RESULT: unknown OP. -/
def resUnknown : Nat := 0x02
/-- RESULT: resources lacking. -/
def resLacking : Nat := 0x03
/-- RESULT: busy. -/
def resBusy : Nat := 0x04

/-- A lease's command OP is under way. -/
def State.commands (s : State) (lease op : Nat) : Bool := (s.lease lease).cmdGo && (s.lease lease).cmdOp.toNat == op

/-- The hub is done with a lease's command. -/
def State.cmdDone (s : State) (lease result : Nat) : State :=
  s.modLease lease fun l => { l with cmdGo := false, cmdResult := BitVec.ofNat 8 result }

/-- A command taken: not due where it is not under way; refused where the lease is not LIVE. -/
def State.command (s : State) (lease op : Nat) (body : State) : Host.Outcome State Fault Refusal :=
  if !s.commands lease op then .fault .notDue
  else if !s.isLive lease then .next (s.cmdDone lease resState)
  else .next body

/-- ARG [7:0]: a row half. -/
def State.argRow (s : State) (lease : Nat) : Nat := (s.lease lease).arg.toNat % 256

/-- ARG [31:0]: the slot of a rectangle of the lease; none where the handle is stale or another lease's. -/
def State.argRect (s : State) (lease : Nat) : Option (Nat × Rect) :=
  (s.live? ((s.lease lease).arg.toNat % 2 ^ 32)).bind fun n =>
    ((s.rect? n).filter fun r => r.lease == lease).map fun r => (n, r)

/-! ### CREATE (R378) -/

/-- Frames of a die that leases other than one hold. -/
def State.framesUsed (s : State) (lease die : Nat) : Nat :=
  ((s.leases.filter fun p => p.1 != lease && p.2.state != .none && p.2.dies.contains die).map fun p =>
    p.2.framesPerDie + p.2.resv).foldl (· + ·) 0

/-- The sum of LIMIT over LIVE leases other than one. -/
def State.limitsUsed (s : State) (lease : Nat) : Nat :=
  ((s.leases.filter fun p => p.1 != lease && p.2.state == .live).map fun p => p.2.carveLimit).foldl (· + ·) 0

/-- Virtual functions of a host port that serve a lease. -/
def State.vfsUsed (s : State) (lease port : Nat) : Nat :=
  (s.leases.filter fun p => p.1 != lease && p.2.state != .none && p.2.port == port).length

/-- CREATE lacks resources (R378). -/
def State.createLacks (s : State) (lease : Nat) : Bool :=
  let l := s.lease lease
  l.dies.isEmpty || l.framesPerDie == 0 || decide (Config.maxFrames < l.framesPerDie) ||
    l.dies.any (fun d => decide (Config.maxFrames < s.framesUsed lease d + l.framesPerDie + l.resv)) ||
    decide (l.carveLimit < 8 * l.dies.length) || decide (480 < l.carveLimit) || decide (480 < s.limitsUsed lease + l.carveLimit) ||
    decide (Config.portVfs l.port ≤ s.vfsUsed lease l.port)

/-- A key of a byte of a lease's device memory or of its carve-out. -/
def leaseKey (lease k : Nat) : Bool := decide (k % 4 < 2) && k / 4 % 256 == lease % 256

/-- A lease's memory written to zero (R378, R379). -/
def State.wipe (s : State) (lease : Nat) : State :=
  { s.mend (fun b => locLease b == lease) with mem := s.mem.clear (leaseKey lease) }

/-- A lease without tenants' state: what CREATE and the end of a lease clear alike (R378, R379, R419). -/
def Lease.bare (l : Lease) (state : LeaseState) : Lease :=
  { l with state := state, regions := [], windows := [], counters := Vector.replicate 8 Counter.reset, cntOvf := 0, errUe := 0,
           errCe := 0, errBorder := 0, errStray := 0, placed := [], svcs := [], stWrites := [], tasks := [], lists := [], ended := [],
           charge := [0, 0, 0], grant := 0, granted := 0, loads := [] }

/-- A lease as CREATE leaves it: LIVE, its fault queue registers cleared (R378, R387). -/
def Lease.created (l : Lease) : Lease := { l.bare .live with fq := FaultQueue.reset }

/-- A meter at a CREATE (R414). -/
def Meter.created (m : Meter) (now : Nat) : Meter :=
  { m with mj := 0, epoch := (m.epoch + 1) % 2 ^ 32, cdtime := now, stopped := false, warm := false, area := 0, owed := 0, busy := [] }

/-- The lease created: its frames read zero. -/
def State.create (s : State) (lease : Nat) : State :=
  (((s.wipe lease).modLease lease Lease.created).setMeter lease ((s.meter lease).created s.dtime)).cmdDone lease resDone

/-- LEASE_CREATE (R377, R378, R400, R401). -/
def execLeaseCreate (s : State) : Host.Outcome State Fault Refusal :=
  match s.net.hand with
  | some (.leaseCreate lease) =>
    if !s.commands lease 0x01 then .fault .notDue
    else if (s.lease lease).state ≠ .none ∨ !s.dev.ready ∨ s.ember then .next (s.cmdDone lease resState)
    else if s.createLacks lease then .next (s.cmdDone lease resLacking)
    else .next (s.create lease)
  | _ => .fault .notDue

/-! ### Row halves (R377) -/

/-- GRANT_ROW (R377). -/
def execGrantRow (s : State) : Host.Outcome State Fault Refusal :=
  match s.net.hand with
  | some (.grantRow lease) =>
    let n := s.argRow lease
    let r := s.row n
    s.command lease 0x03
      (if r.lease ≠ 0 ∧ r.lease ≠ lease then s.cmdDone lease resLacking
       else (s.setRow n { r with lease := lease }).cmdDone lease resDone)
  | _ => .fault .notDue

/-- A running task of a row half pre-empted (R350). -/
def State.clearRow (s : State) (lease row : Nat) : State :=
  (s.runningTasks lease).foldl (fun t p => if p.2 = row then t.preemptTask lease p.1 row else t) s

/-- A row half taken from a lease: what runs on it stops, what it had listed is pending again, and it is unheld (R350, R377). -/
def State.dropRow (s : State) (lease row : Nat) : State :=
  let t := s.clearRow lease row
  let u := (t.readyList lease row).foldl (fun u tid => u.modTask lease tid fun k => { k with place := .pending }) t
  ((u.unwaitRow row).modLease lease fun l => { l with lists := Tab.drop l.lists row }).setRow row (RowHalf.idle 0)

/-- REVOKE_ROW (R377): a row half that a move has bound at its target is bound too (R360). -/
def execRevokeRow (s : State) : Host.Outcome State Fault Refusal :=
  match s.net.hand with
  | some (.revokeRow lease) =>
    let n := s.argRow lease
    let r := s.row n
    s.command lease 0x04
      (if r.lease ≠ lease then s.cmdDone lease resState
       else if r.bound.isSome || s.isReserved .mat n then s.cmdDone lease resBusy
       else (s.dropRow lease n).cmdDone lease resDone)
  | _ => .fault .notDue

/-! ### Rectangles (R377) -/

/-- PREEMPT (R377): the cut request goes to the director. -/
def execPreempt (s : State) : Host.Outcome State Fault Refusal :=
  match s.net.hand with
  | some (.preempt lease) =>
    s.command lease 0x05
      (match s.argRect lease with
       | none => s.cmdDone lease resState
       | some (n, r) =>
         if r.state = .armed ∨ r.state = .running then (s.post 3 (.cutRequest n .preempt)).cmdDone lease resDone
         else s.cmdDone lease resState)
  | _ => .fault .notDue

/-- RESTORE (R337, R377, R396): a rectangle that is not SAVED, and so every reel of a FROZEN one, is refused. -/
def execRestore (s : State) : Host.Outcome State Fault Refusal :=
  match s.net.hand with
  | some (.restore lease) =>
    s.command lease 0x06
      (match s.argRect lease with
       | none => s.cmdDone lease resState
       | some (n, r) =>
         if r.state ≠ .saved then s.cmdDone lease resState
         else
           match s.restoreRect n with
           | some t => t.cmdDone lease resDone
           | none => s.cmdDone lease resLacking)
  | _ => .fault .notDue

/-- LEASE_FREE (R48, R377). -/
def execLeaseFree (s : State) : Host.Outcome State Fault Refusal :=
  match s.net.hand with
  | some (.leaseFree lease) =>
    s.command lease 0x07
      (match s.argRect lease with
       | none => s.cmdDone lease resState
       | some (n, _) => (s.freeRect n).cmdDone lease resDone)
  | _ => .fault .notDue

/-- The reel of a FROZEN rectangle written, and its address in LEASE_ARG (R377, R394, R395). -/
def State.dumpRect (s : State) (lease slot : Nat) (r : Rect) : State :=
  let bs := reelBytes s.tick (s.handleOf slot) (r.stoppedAt / 4) 2 r.stopCounts r
  match s.reelPlace lease slot bs.length with
  | some addr =>
    ((((s.setRect slot { r with reel := some ⟨2, addr, bs.length, none⟩ }).store (.dev lease addr) bs).modLease lease fun l =>
      { l with arg := BitVec.ofNat 64 addr }).bump).cmdDone lease resDone
  | none => s.cmdDone lease resLacking

/-- DUMP (R377). -/
def execDump (s : State) : Host.Outcome State Fault Refusal :=
  match s.net.hand with
  | some (.dump lease) =>
    s.command lease 0x08
      (match s.argRect lease with
       | none => s.cmdDone lease resState
       | some (n, r) => if r.state = .frozen then s.dumpRect lease n r else s.cmdDone lease resState)
  | _ => .fault .notDue

/-! ### Meters (R414 to R416) -/

/-- A sample of a meter: its shares since the last one are added to its remainder, and the whole millijoules go into MJ (R415). -/
def Meter.sample (m : Meter) (now : Nat) : Meter :=
  let e := m.rest + m.owed
  { m with mj := (m.mj + e / 1000) % 2 ^ 64, rest := e % 1000, sdtime := now, owed := 0 }

/-- The identifiers with a meter that runs: lease 0, and the leases that exist. -/
def State.metered (s : State) : List Nat := 0 :: (s.leases.filter fun p => p.1 != 0 && p.2.state != .none).map Prod.fst

/-- The leased area of a lease: the cells of its rectangles that are not EMPTY, and 32 for each row half (R416). -/
def State.leasedArea (s : State) (lease : Nat) : Nat :=
  ((s.rectsOf lease).map fun p => p.2.image.w * p.2.image.h).foldl (· + ·) 0 + 32 * (s.rowsOf lease).length

/-- The allocated capacity of a lease, in frames (R416). -/
def Lease.capacity (l : Lease) : Nat := (l.framesPerDie + l.resv) * l.dies.length

/-- Rows added to those in which a meter's identifier has been active. -/
def Meter.note (m : Meter) (rows : List Nat) : Meter := { m with busy := rows.foldl (fun l r => if l.contains r then l else l ++ [r]) m.busy }

/-- The rows of R416 in which an identifier may have been active: the hub acts as lease 0 in accesses and packets (R15). -/
def State.busyRows (s : State) (id : Nat) : List Nat := if id = 0 then [3, 6, 7] else (s.meter id).busy

/-- What an identifier has in a row of the table of R416: refresh and standby go by allocated capacity (row 4), static power by leased area and
time (row 8), what is no lease's to lease 0, the Hearth's to lease 0 (row 9). In the other rows it has the activity counts of its units, whose
values are free, and none where it has not been active. -/
def State.rowUnits (s : State) (row id : Nat) : Nat :=
  let others := s.metered.filter fun k => k != 0
  let total := fun (f : Nat → Nat) => (others.map f).foldl (· + ·) 0
  match row with
  | 4 => if id = 0 then 4 * Config.maxFrames - total (fun k => (s.lease k).capacity) else (s.lease id).capacity
  | 8 =>
    if id = 0 then 16384 * (s.clock.cycles - s.clock.measured) - total (fun k => (s.meter k).area) else (s.meter id).area
  | 9 => if id = 0 then 1 else 0
  | _ => if (s.busyRows id).contains row then Config.activity s.tick row id else 0

/-- The weight of an identifier on a rail: its units in each row, at their calibrated energies (R415). -/
def State.railWeight (s : State) (rail id : Nat) : Nat :=
  ((List.range 10).map fun row => Config.unitEnergy rail row * s.rowUnits row id).foldl (· + ·) 0

/-- A rail's energy divided by weights: the shares of identifiers up to one sum to their part of it, so that all sum to the whole (R415). -/
def shareUpTo (energy : Nat) (upTo all : Nat) : Nat := if all = 0 then 0 else energy * upTo / all

/-- The share of an identifier in a rail's energy; where nothing weighs on the rail it is lease 0's (R415). -/
def State.railShare (s : State) (rail id : Nat) : Nat :=
  let e := Config.railEnergy s.tick rail
  let ws := s.metered.map fun k => (k, s.railWeight rail k)
  let sum := fun (ps : List (Nat × Nat)) => (ps.map Prod.snd).foldl (· + ·) 0
  let before := ws.takeWhile fun p => p.1 != id
  if sum ws = 0 then (if id = 0 then e else 0)
  else shareUpTo e (sum before + s.railWeight rail id) (sum ws) - shareUpTo e (sum before) (sum ws)

/-- The energy attributed to an identifier over the interval that ends now, in microjoules (R415, R416). -/
def State.energyOf (s : State) (id : Nat) : Nat := ((List.range Config.rails).map fun rail => s.railShare rail id).foldl (· + ·) 0

/-- A meter with its share of an interval. -/
def Meter.take (m : Meter) (energy : Nat) : Meter := { m with owed := m.owed + energy, area := 0, busy := [] }

/-- The rail monitors are read and each rail's energy divided among all meters that run (R415); twice in one cycle they have nothing. -/
def State.measure (s : State) : State :=
  if s.clock.measured = s.clock.cycles then s
  else
    let t := (s.metered.foldl (fun t id => t.setMeter id ((s.meter id).take (s.energyOf id))) s).bump
    { t with clock := { t.clock with measured := s.clock.cycles } }

/-- A sample of an identifier's meter (R415). -/
def State.sampleMeter (s : State) (id : Nat) : State := s.setMeter id ((s.meter id).sample s.dtime)

/-- The final sample of a meter, which stops (R379, R414): while its lease still has its part of each rail's energy. -/
def State.stopMeter (s : State) (id : Nat) : State :=
  let t := s.measure.sampleMeter id
  t.setMeter id { t.meter id with stopped := true }

/-! ### DESTROY (R379) -/

/-- Every rectangle of a lease freed, children included. -/
def State.freeAll (s : State) (lease : Nat) : State := (s.rectsOf lease).foldl (fun t p => t.freeRect p.1) s

/-- Every tile task of a lease ended KILLED. -/
def State.endTasks (s : State) (lease : Nat) : State :=
  (s.lease lease).tasks.foldl (fun t k => t.closeTask lease k 2 0) s

/-- Every row half of a lease revoked. -/
def State.dropRows (s : State) (lease : Nat) : State :=
  (s.rowsOf lease).foldl (fun t n => (t.unwaitRow n).setRow n (RowHalf.idle 0)) s

/-- What still waited for a page of the lease goes on: it finds the lease no longer LIVE. Status words that wait are still written: their
pages are serviced. -/
def State.releaseWaits (s : State) (lease : Nat) : State :=
  let evs := (s.lease lease).svcs.flatMap PageSvc.waiters
  (s.modLease lease fun l =>
    { l with svcs := if l.stWrites.isEmpty then [] else l.svcs.map fun v => { v with waiters := [] }, loads := [] }).resend evs

/-- Steps 1 to 3 of DESTROY. -/
def State.beginEnd (s : State) (lease : Nat) : State :=
  let t := s.modLease lease fun l => { l with state := .ending }
  ((((t.freeAll lease).endTasks lease).dropRows lease).releaseWaits lease).post 2 (.leaseDestroy lease)

/-- Nothing that carries the tag of an ending lease is outstanding, a launch record in hand and status words among it (step 4). -/
def State.endDue (s : State) (lease : Nat) : Bool :=
  !(s.net.agenda.any fun f => Event.onWay lease f.ev || f.ev.purgeOf lease || Event.heldRecord lease f.ev) &&
    !(s.net.waits.any fun p => p.2.first.lease == lease) && (s.lease lease).stWrites.isEmpty

/-- What the homes and caches hold of a lease. -/
def Homes.without (h : Homes) (lease : Nat) : Homes :=
  { lines := h.lines.filter fun c => locLease c.loc != lease
    copies := h.copies.filter fun k => locLease k.loc != lease
    tlbs := Tab.mapVal (fun es => es.filter fun e => e.lease != lease) h.tlbs
    replies := h.replies.filter fun r => hLease (srcHandle r.src) != lease
    holds := h.holds.filter fun k => k.lease != lease
    waiters := h.waiters.filter fun w => w.lease != lease
    bad := h.bad.filter fun b => locLease b != lease }

/-- A lease's end: its registers stand, what it held is gone, an invalidation is over (R379). -/
def Lease.gone (l : Lease) : Lease := { l.bare .none with fq := { l.fq with inval := none, held := [] } }

/-- A lease is no more: its memory is zero, its entries are deleted (R379, R404). -/
def State.dropLease (s : State) (lease : Nat) : State :=
  let t := { s.wipe lease with
    homes := s.homes.without lease,
    net := { s.net with agenda := s.net.agenda.filter fun f => !f.ev.parkedOf lease } }
  t.modLease lease Lease.gone

/-- Steps 5 and 6 of DESTROY. -/
def State.finishEnd (s : State) (lease : Nat) : State := ((s.stopMeter lease).dropLease lease).cmdDone lease resDone

/-- LEASE_DESTROY (R379): its first three steps, and, once nothing of the lease is outstanding, the rest. -/
def execLeaseDestroy (s : State) : Host.Outcome State Fault Refusal :=
  match s.net.hand with
  | some (.leaseDestroy lease) =>
    if !s.commands lease 0x02 then .fault .notDue
    else
      match (s.lease lease).state with
      | .none => .next (s.cmdDone lease resState)
      | .live => .next (s.beginEnd lease)
      | .ending => if s.endDue lease then .next (s.finishEnd lease) else .fault .notDue
  | _ => .fault .notDue

/-! ### LEASE_SCHED and LEASE_PT (R338, R371, R376) -/

/-- The fields of LEASE_SCHED that are not reserved. -/
def schedMask : BitVec 64 := 0x800007FF07FF07FF#64

/-- A share of a LEASE_SCHED value. -/
def schedShare (v : BitVec 64) (k : EClass) : Nat := (v.extractLsb' (16 * k.field) 11).toNat

/-- The sum of a class's shares over leases other than one. -/
def State.sharesUsed (s : State) (lease : Nat) (k : EClass) : Nat :=
  ((s.leases.filter fun p => p.1 != lease).map fun p => schedShare p.2.sched k).foldl (· + ·) 0

/-- The hub refuses a write of LEASE_SCHED (R338, R371). -/
def State.schedRefused (s : State) (lease : Nat) (v : BitVec 64) : Bool :=
  allClasses.any fun k => decide (1024 < schedShare v k) || decide (972 < s.sharesUsed lease k + schedShare v k)

/-- Setting SUSP cuts every ARMED or RUNNING rectangle of the lease (R371). -/
def State.suspendRects (s : State) (lease : Nat) : State :=
  s.postAll 3 (((s.rectsOf lease).filter fun p => p.2.state == .armed || p.2.state == .running).map fun p =>
    .cutRequest p.1 .suspend)

/-- A write of LEASE_SCHED (R371): a refused one leaves the register as it was. -/
def State.schedWrite (s : State) (lease : Nat) (v : BitVec 64) : State :=
  if s.schedRefused lease v then s
  else
    let was := (s.lease lease).sched.getLsbD 63
    let t := s.modLease lease fun l => { l with sched := v &&& schedMask }
    if v.getLsbD 63 && !was then t.suspendRects lease else t

/-- LEASE_SCHED_WRITE (R371). -/
def execLeaseSchedWrite (s : State) : Host.Outcome State Fault Refusal :=
  match s.net.hand with
  | some (.leaseSchedWrite lease v) => .next (if isTenant lease then s.schedWrite lease v else s)
  | _ => .fault .notDue

/-- The field of LEASE_PT that is not reserved. -/
def ptMask : BitVec 64 := 0x000FFFFFFFFFF000#64

/-- A write of LEASE_PT (R376): while the lease is LIVE the hub starts a whole-lease invalidation. -/
def Lease.ptWrite (l : Lease) (v : BitVec 64) : Lease :=
  { l with pt := v &&& ptMask, fq := if l.state = .live then { l.fq with inval := some (0, 0) } else l.fq }

/-- LEASE_PT_WRITE (R376). -/
def execLeasePtWrite (s : State) : Host.Outcome State Fault Refusal :=
  match s.net.hand with
  | some (.leasePtWrite lease v) => .next (if isTenant lease then s.modLease lease fun l => l.ptWrite v else s)
  | _ => .fault .notDue

/-! ### Mailboxes (R367, R403) -/

/-- OP of a mailbox's word 0. -/
def mboxOp (w : BitVec 64) : Nat := (w.extractLsb' 56 8).toNat
/-- GO of a mailbox's word 0. -/
def mboxGo (w : BitVec 64) : Bool := w.getLsbD 0
/-- Word 0 once the hub is done: GO clears, RESULT is written. -/
def mboxDone (w : BitVec 64) (result : Nat) : BitVec 64 := BitVec.ofNat 64 (mboxOp w * 2 ^ 56 + result % 256 * 2 ^ 48)

/-- A request of a virtual function is done: vector 3 is raised (R367). -/
def Lease.mboxFinish (l : Lease) (result : Nat) : Lease :=
  { l with mailbox := l.mailbox.set 0 (mboxDone l.mailbox[0] result) }.raiseVector 3

/-- The request of a lease's mailbox is done. -/
def State.reqDone (s : State) (lease result : Nat) : State := s.modLease lease fun l => l.mboxFinish result

/-- A mailbox request taken: not due where it is not under way; one still in hand as its lease ends is refused. -/
def State.request (s : State) (lease op : Nat) (body : Vector (BitVec 64) 8 → State) : Host.Outcome State Fault Refusal :=
  let m := (s.lease lease).mailbox
  if !mboxGo m[0] || mboxOp m[0] != op then .fault .notDue
  else if !s.isLive lease then .next (s.reqDone lease resState)
  else .next (body m)

/-! ### Region-table entries (R297, R367) -/

/-- The entry that words 2 to 5 hold. Reserved bits are ignored (R11). -/
def mboxRegion (m : Vector (BitVec 64) 8) : Region :=
  { base := (m[2].extractLsb' 7 50).toNat * 128
    limit := (m[3].extractLsb' 7 50).toNat * 128
    sync := (m[4].extractLsb' 6 51).toNat * 64
    valid := m[2].getLsbD 63 }

/-- WRITE_REGION_ENTRY (R297, R367). -/
def execWriteRegionEntry (s : State) : Host.Outcome State Fault Refusal :=
  match s.net.hand with
  | some (.writeRegionEntry lease) =>
    s.request lease 0x01 fun m =>
      let slot := m[1].toNat % 1024
      let e := mboxRegion m
      if s.regionRefused lease slot e then s.reqDone lease resState else (s.putRegion lease slot e).reqDone lease resDone
  | _ => .fault .notDue

/-! ### Format windows (R269, R367) -/

/-- The window that words 1 to 4 hold. -/
def mboxWindow (m : Vector (BitVec 64) 8) : Window := ⟨m[1], m[2], m[3], m[4]⟩

/-- A reserved field of a window is nonzero. -/
def Window.reserved (w : Window) : Bool :=
  w.ctl &&& 0xFFFFFF00FF000FC0#64 != 0 || (w.base ||| w.limit) &&& 0xFFF000000000FFFF#64 != 0 ||
    w.scale &&& 0xFFF000000000007F#64 != 0

/-- The end of a window's scale region: its block scales, padded to a line, and its band scales (R268). -/
def Window.scaleEnd (w : Window) : Nat :=
  w.scales + (w.blocks + 127) / 128 * 128 + 2 * ((w.hi - w.lo + w.bandBytes - 1) / w.bandBytes)

/-- Two enabled windows overlap. -/
def Window.overlap (a b : Window) : Bool := a.en && b.en && decide (a.lo < b.hi) && decide (b.lo < a.hi)

/-- Windows that the leases hold on a die: each stands in one slot of it. -/
def State.windowsOn (s : State) (die : Nat) : Nat :=
  ((s.leases.filter fun p => p.2.dies.contains die).map fun p => p.2.windows.length).foldl (· + ·) 0

/-- The hub refuses a window (R269). -/
def State.windowRefused (s : State) (lease n : Nat) (w : Window) : Bool :=
  let l := s.lease lease
  (l.windows.any fun p => p.1 != n && w.overlap p.2) || w.owner != lease ||
    (w.en && (decide (w.hi ≤ w.lo) || w.matrix == (w.rowb == 0))) || w.reserved ||
    (w.fmt == 15 && decide (l.bytes < w.scaleEnd)) ||
    ((Tab.get? l.windows n).isNone && l.dies.any fun d => decide (32 ≤ s.windowsOn d))

/-- A place lies in a window's data range. -/
def Window.holds (w : Window) (lease : Nat) : Loc → Bool
  | .dev l a => l == lease && decide (w.lo ≤ a) && decide (a < w.hi)
  | .carve _ _ | .host _ | .remote _ _ _ => false

/-- Every cached line of a window's data range written back and invalidated (R269). -/
def State.flushWindow (s : State) (lease : Nat) (w : Window) : State :=
  { s with homes := { s.homes with
      lines := s.homes.lines.filter fun c => !w.holds lease c.loc,
      copies := s.homes.copies.filter fun k => !w.holds lease k.loc } }

/-- A lease's window written; EN = 0 releases its slots (R269). -/
def State.putWindow (s : State) (lease n : Nat) (w : Window) : State :=
  let t := match Tab.get? (s.lease lease).windows n with
    | some old => s.flushWindow lease old
    | none => s
  (t.flushWindow lease w).modLease lease fun l =>
    { l with windows := if w.en then Tab.put l.windows n w else Tab.drop l.windows n }

/-- WRITE_FORMAT_WINDOW (R269, R367). -/
def execWriteFormatWindow (s : State) : Host.Outcome State Fault Refusal :=
  match s.net.hand with
  | some (.writeFormatWindow lease) =>
    s.request lease 0x02 fun m =>
      let n := m[5].toNat % 32
      let w := mboxWindow m
      if s.windowRefused lease n w then s.reqDone lease resState else (s.putWindow lease n w).reqDone lease resDone
  | _ => .fault .notDue

/-! ### Halted contexts (R255, R367) -/

/-- The context that a resume request names. -/
def State.resumeTarget (s : State) (lease : Nat) (m : Vector (BitVec 64) 8) : Option CtxId :=
  (s.live? (m[1].toNat % 2 ^ 32)).bind fun n =>
    if (s.rect? n).any fun r => r.lease == lease then
      some ⟨n, (m[2].extractLsb' 7 7).toNat, (m[2].extractLsb' 1 6).toNat, m[3].toNat % 4⟩
    else none

/-- A context is halted, or its cut record says so (R90, R255). -/
def Ctx.isHalted (x : Ctx) : Bool := x.halted || x.cut.any CutRecord.halted

/-- A context no longer halted: it goes on at the word after its HALT. -/
def Ctx.unhalt (x : Ctx) : Ctx := { x with halted := false, cut := x.cut.map fun k => { k with halted := false } }

/-- RESUME_CONTEXT (R255, R367). -/
def execResumeContext (s : State) : Host.Outcome State Fault Refusal :=
  match s.net.hand with
  | some (.resumeContext lease) =>
    s.request lease 0x03 fun m =>
      match s.resumeTarget lease m with
      | none => s.reqDone lease resState
      | some c =>
        if (s.ctx? c).any Ctx.isHalted then (s.modCtx c Ctx.unhalt).reqDone lease resDone else s.reqDone lease resState
  | _ => .fault .notDue

end Sys2Proof.Machine
end

