-- ==== Sys2Proof/Machine/Verify.lean ====
section
/-! DEFINITION. The verification of signatures (R405, R406): ECDSA on curve P-384 with SHA-384, as FIPS 186-5 specifies it, and LMS with the
types LMS_SHA256_M32_H20 and LMOTS_SHA256_N32_W8, as RFC 8554 specifies it. -/

namespace Sys2Proof.Machine

/-! ### ECDSA on P-384 -/

/-- The prime of the field of P-384. -/
def p384 : Nat := 2 ^ 384 - 2 ^ 128 - 2 ^ 96 + 2 ^ 32 - 1
/-- The order of its base point. -/
def p384Order : Nat :=
  0xFFFFFFFFFFFFFFFFFFFFFFFFFFFFFFFFFFFFFFFFFFFFFFFFC7634D81F4372DDF581A0DB248B0A77AECEC196ACCC52973
/-- The coefficient b of the curve; a is -3. -/
def p384B : Nat :=
  0xB3312FA7E23EE7E4988E056BE3F82D19181D9C6EFE8141120314088F5013875AC656398D8A2ED19D2A85C8EDD3EC2AEF
/-- The base point. -/
def p384Base : Nat × Nat :=
  (0xAA87CA22BE8B05378EB1C71EF320AD746E1D3B628BA79B9859F741E082542A385502F25DBF55296C3A545E3872760AB7,
   0x3617DE4A96262C6F5D9E98BF9292DC29F8F41DBD289A147CE9DA3113B5F0B8C00A60B1CE1D7E819D7A431D7C90EA0E5F)

/-- A power modulo `m`, by the lowest `n` bits of the exponent. -/
def powMod (m : Nat) : Nat → Nat → Nat → Nat
  | 0, _, _ => 1 % m
  | n + 1, b, e =>
    let r := powMod m n (b * b % m) (e / 2)
    if e % 2 = 1 then b * r % m else r

/-- The inverse modulo a prime of 384 bits. -/
def invMod (m a : Nat) : Nat := powMod m 384 (a % m) (m - 2)

/-- The sum of two points of the curve; none is the point at infinity. -/
def addPoints : Option (Nat × Nat) → Option (Nat × Nat) → Option (Nat × Nat)
  | none, q => q
  | some p, none => some p
  | some p, some q =>
    if p.1 = q.1 ∧ (p.2 + q.2) % p384 = 0 then none
    else
      let slope := if p.1 = q.1 then (3 * (p.1 * p.1) + p384 - 3) * invMod p384 (2 * p.2) % p384
        else (q.2 + p384 - p.2) * invMod p384 (q.1 + p384 - p.1) % p384
      let x := (slope * slope + 2 * p384 - p.1 - q.1) % p384
      some (x, (slope * (p.1 + p384 - x) + p384 - p.2) % p384)

/-- A multiple of a point, by the lowest `n` bits of the factor. -/
def mulPoint : Nat → Nat → Option (Nat × Nat) → Option (Nat × Nat)
  | 0, _, _ => none
  | n + 1, k, p =>
    let r := mulPoint n (k / 2) (addPoints p p)
    if k % 2 = 1 then addPoints p r else r

/-- A point lies on the curve. -/
def onCurve (p : Nat × Nat) : Bool :=
  decide (p.1 < p384) && decide (p.2 < p384) && p.2 * p.2 % p384 == (p.1 * p.1 * p.1 + (p384 - 3) * p.1 + p384B) % p384

/-- The point of an uncompressed public key of 97 bytes. -/
def keyPoint (key : List Byte) : Option (Nat × Nat) :=
  let p := (beNat ((key.drop 1).take 48), beNat (key.drop 49))
  if key.length = 97 ∧ key.head? = some 4 ∧ onCurve p then some p else none

/-- An ECDSA signature, r then s, verifies under a public key over a message. -/
def ecdsaVerifies (key msg sig : List Byte) : Bool :=
  let r := beNat (sig.take 48)
  let s := beNat (sig.drop 48)
  let w := invMod p384Order s
  let e := beNat (sha384 msg)
  match keyPoint key with
  | none => false
  | some q =>
    sig.length == 96 && decide (0 < r) && decide (r < p384Order) && decide (0 < s) && decide (s < p384Order) &&
      (addPoints (mulPoint 384 (e * w % p384Order) (some p384Base)) (mulPoint 384 (r * w % p384Order) (some q))).any fun p =>
        p.1 % p384Order == r

/-! ### LMS -/

/-- LMS_SHA256_M32_H20, as RFC 8554 numbers it. -/
def lmsType : Nat := 8
/-- LMOTS_SHA256_N32_W8. -/
def lmotsType : Nat := 4

/-- A one-time key's digits: the 32 bytes of a hash and its checksum in two bytes. -/
def otsDigits (q : List Byte) : List Nat :=
  let ds := q.map BitVec.toNat
  let sum := (ds.map fun d => 255 - d).foldl (· + ·) 0
  ds ++ [sum / 256, sum % 256]

/-- A chain of a one-time signature from step `j` on, for `n` steps. -/
def otsChain (pre : List Byte) (i : Nat) : Nat → Nat → List Byte → List Byte
  | 0, _, x => x
  | n + 1, j, x => otsChain pre i n (j + 1) (sha256 (pre ++ beBytes 2 i ++ beBytes 1 j ++ x))

/-- The public key that a one-time signature (its randomizer and 34 chain values) of a message comes to, under an identifier and a leaf. -/
def otsKey (pre msg c ys : List Byte) : List Byte :=
  let ds := otsDigits (sha256 (pre ++ beBytes 2 0x8181 ++ c ++ msg))
  sha256 (pre ++ beBytes 2 0x8080 ++
    ds.zipIdx.flatMap fun p => otsChain pre p.2 (255 - p.1) p.1 ((ys.drop (32 * p.2)).take 32))

/-- The root that a node of the tree comes to by a path of `n` nodes. -/
def lmsRootOf (ident : List Byte) : Nat → Nat → List Byte → List Byte → List Byte
  | 0, _, _, x => x
  | n + 1, node, path, x =>
    let sib := path.take 32
    lmsRootOf ident n (node / 2) (path.drop 32)
      (sha256 (ident ++ beBytes 4 (node / 2) ++ beBytes 2 0x8383 ++ if node % 2 = 1 then sib ++ x else x ++ sib))

/-- An LMS signature of 1,772 bytes verifies under a public key of 56 bytes over a message. -/
def lmsVerifies (key msg sig : List Byte) : Bool :=
  let ident := (key.drop 8).take 16
  let q := beNat (sig.take 4)
  let pre := ident ++ beBytes 4 q
  let leaf := otsKey pre msg ((sig.drop 8).take 32) ((sig.drop 40).take 1088)
  let node := 2 ^ 20 + q
  key.length == 56 && beNat (key.take 4) == lmsType && beNat ((key.drop 4).take 4) == lmotsType && sig.length == 1772 &&
    decide (q < 2 ^ 20) && beNat ((sig.drop 4).take 4) == lmotsType && beNat ((sig.drop 1128).take 4) == lmsType &&
    lmsRootOf ident 20 node (sig.drop 1132) (sha256 (ident ++ beBytes 4 node ++ beBytes 2 0x8282 ++ leaf)) == key.drop 24

end Sys2Proof.Machine
end

