-- ==== Sys2Proof/Machine/Signed.lean ====
section
/-! DEFINITION. What the hub signs and what it verifies: attestation reports and certificates (R408, R409), signed Cinder readings
(R418), firmware images, flash banks and fuses (R405 to R407). -/

namespace Sys2Proof.Machine

/-! ### Signatures (R408, R409) -/

/-- Bytes made up to a length. -/
def fitBytes (n : Nat) (bs : List Byte) : List Byte := (bs ++ List.replicate n 0#8).take n

/-- The leaf index after a signature; when a key's leaves are spent, the next pair begins (R408). -/
def Device.nextLeaf (d : Device) : Device :=
  if d.leaf + 1 = 2 ^ 20 then { d with keyser := (d.keyser + 1) % 2 ^ 32, leaf := 0 } else { d with leaf := d.leaf + 1 }

/-- A number in four bytes, the most significant first, as RFC 8554 encodes it (R405). -/
def beBytes4 (v : Nat) : List Byte := (leBytes 4 v).reverse

/-- The 1,772 bytes of an LMS signature: the leaf index, the one-time signature with its type, the type and the path (R405, R418). -/
def lmsSignature (leaf : Nat) (ots path : List Byte) : List Byte :=
  beBytes4 leaf ++ beBytes4 lmotsType ++ fitBytes 1120 ots ++ beBytes4 lmsType ++ fitBytes 640 path

/-- A document with both signatures of the current key pair; one of 256 bytes has 2,128 bytes in all (R409, R418). -/
def Device.signed (d : Device) (doc : List Byte) : List Byte :=
  let m := fitBytes 256 doc
  m ++ fitBytes 96 (Config.ecdsa d.keyser m) ++
    lmsSignature d.leaf (Config.lmots d.keyser d.leaf m) (Config.lmsPath d.keyser d.leaf) ++ leBytes 4 0

/-- The hub has released a signature. -/
def State.nextLeaf (s : State) : State := { s with dev := s.dev.nextLeaf }

/-- The four words of a nonce. -/
def nonceBytes (m : Vector (BitVec 64) 8) (i : Nat) : List Byte :=
  (List.range 4).flatMap fun k => leBytes 8 (m.toList.getD (i + k) 0).toNat

/-- The module's serial identity in 16 bytes. -/
def devIdBytes : List Byte := fitBytes 16 Config.devId

/-- A measurement in 48 bytes. -/
def Device.measure (d : Device) (k : Nat) : List Byte := fitBytes 48 (d.measured.getD k [])

/-- Bytes 0x000 to 0x0FF of an attestation report (R409). -/
def State.reportDoc (s : State) (lease : Nat) (m : Vector (BitVec 64) 8) : List Byte :=
  let l := s.lease lease
  leBytes 4 0x54545441 ++ leBytes 2 1 ++ leBytes 1 lease ++ leBytes 1 0 ++ leBytes 8 s.dtime ++ nonceBytes m 2 ++ devIdBytes ++
    s.dev.measure 0 ++ s.dev.measure 1 ++ s.dev.measure 2 ++ leBytes 4 s.dev.svn ++ leBytes 4 s.dev.keyser ++
    leBytes 8 l.memReg.toNat ++ leBytes 8 l.sched.toNat ++ leBytes 8 l.carveReg.toNat ++ leBytes 16 0

/-- A document written to a buffer of a lease with a release at sys scope before GO clears: an absent page is serviced first,
and a buffer that is no 4 KiB buffer, or has no mapping or no write permission, is refused (R409, R418). -/
def State.handOver (s : State) (lease : Nat) (va : BitVec 64) (bs : List Byte) (sign : Bool) (ev : Event) : State :=
  if va.toNat % 4096 ≠ 0 then s.reqDone lease resState
  else
    match s.engineLoc none lease va.toNat true with
    | .found l =>
      let t := s.homeWrite none l bs
      (if sign then t.nextLeaf else t).reqDone lease resDone
    | .refused _ _ _ => s.reqDone lease resState
    | .absent => s.awaitPage lease va.toNat (s.pageRecord 0 0xFFFF none va.toNat true false) ev

/-- ATTEST_REPORT (R409). -/
def execAttestReport (s : State) : Host.Outcome State Fault Refusal :=
  match s.net.hand with
  | some (.attestReport lease) =>
    s.request lease 0x04 fun m => s.handOver lease m[1] (s.dev.signed (s.reportDoc lease m)) true (.attestReport lease)
  | _ => .fault .notDue

/-- Gaps cut so that together they take no more than a number of bytes. -/
def gapsWithin : Nat → List (List Byte) → List (List Byte)
  | _, [] => []
  | room, g :: gs => g.take room :: gapsWithin (room - (g.take room).length) gs

/-- The certificate of an attestation key, which fits its buffer of 4 KiB with all its fields: KEYSER, DEVID, the P-384 public key uncompressed and the LMS public key, with what the spec does not
lay out free between them, signed by both identity keys in the manner of a report (R409). -/
def certificate (keyser : Nat) : List Byte :=
  let gap := fun (i : Nat) => (gapsWithin 2055 ((List.range 5).map (Config.certGap keyser))).getD i []
  let m := gap 0 ++ leBytes 4 keyser ++ gap 1 ++ devIdBytes ++ gap 2 ++ leBytes 1 4 ++ fitBytes 96 (Config.p384Point keyser) ++ gap 3 ++
    beBytes4 lmsType ++ beBytes4 lmotsType ++ fitBytes 48 (Config.lmsRoot keyser) ++ gap 4
  let leaf := Config.identityLeaf keyser
  m ++ fitBytes 96 (Config.identityEcdsa m) ++ lmsSignature leaf (Config.identityOts leaf m) (Config.identityPath leaf)

/-- KEY_CERTIFICATE (R409). -/
def execKeyCertificate (s : State) : Host.Outcome State Fault Refusal :=
  match s.net.hand with
  | some (.keyCertificate lease) =>
    s.request lease 0x05 fun m =>
      if s.dev.keyser < m[2].toNat then s.reqDone lease resState
      else s.handOver lease m[1] (certificate m[2].toNat) false (.keyCertificate lease)
  | _ => .fault .notDue

/-! ### Cinder readings (R418) -/

/-- FLAGS of a reading: the meter of lease 0 never stops. -/
def Meter.flags (m : Meter) (id : Nat) : Nat := (if m.stopped && id != 0 then 1 else 0) + if m.warm then 2 else 0

/-- Bytes 0x000 to 0x0FF of a reading of an identifier. -/
def State.readingDoc (s : State) (id : Nat) (nonce : List Byte) : List Byte :=
  let m := s.meter id
  leBytes 4 0x52444E43 ++ leBytes 2 1 ++ leBytes 1 id ++ leBytes 1 (m.flags id) ++ leBytes 4 m.epoch ++ leBytes 4 0 ++ leBytes 8 m.sdtime ++
    leBytes 8 m.mj ++ nonce ++ devIdBytes ++ leBytes 4 s.dev.keyser ++ leBytes 4 0 ++ leBytes 8 m.cdtime ++ leBytes 160 0

/-- CINDER_READING (R418). -/
def execCinderReading (s : State) : Host.Outcome State Fault Refusal :=
  match s.net.hand with
  | some (.cinderReading lease) =>
    s.request lease 0x06 fun m =>
      s.handOver lease m[1] (s.dev.signed (s.readingDoc lease (nonceBytes m 2))) true (.cinderReading lease)
  | _ => .fault .notDue

/-- A request of the physical function's mailbox is under way. -/
def Device.asked (d : Device) (op : Nat) : Bool := mboxGo d.mailbox[0] && mboxOp d.mailbox[0] == op

/-- A request of the physical function is done: its vector 0 is raised (R403). -/
def State.pfDone (s : State) (result : Nat) : State :=
  { s with dev := { s.dev with mailbox := s.dev.mailbox.set 0 (mboxDone s.dev.mailbox[0] result), vector0 := s.dev.vector0 + 1 } }

/-- CINDER_READING_PF (R418). -/
def execCinderReadingPf (s : State) : Host.Outcome State Fault Refusal :=
  match s.net.hand with
  | some .cinderReadingPf =>
    let m := s.dev.mailbox
    if !s.dev.asked 0x11 then .fault .notDue
    else
      let id := m[2].toNat % 256
      if id ≠ 0 ∧ (s.meter id).epoch = 0 then .next (s.pfDone resState)
      else
        .next (((s.homeWrite none (.host m[1].toNat) (s.dev.signed (s.readingDoc id (nonceBytes m 3)))).nextLeaf).pfDone resDone)
  | _ => .fault .notDue

/-! ### Firmware images (R405, R406) -/

/-- A header of R405 is well formed, for a payload of a length. -/
def headerGood (h : List Byte) (rest : Nat) : Bool :=
  fieldAt h 0 4 == 0x54485248 && fieldAt h 4 2 == 1 && decide (1 ≤ fieldAt h 6 1) && decide (fieldAt h 6 1 ≤ 3) &&
    decide (fieldAt h 7 1 ≤ 1) && decide (fieldAt h 0xC 4 ≤ 2 ^ 26) && decide (fieldAt h 0xC 4 ≤ rest) && !anyByte h 0x10 0x20 &&
    !anyByte h 0x50 0x80 && !anyByte h 0x7CC 0x800

/-- Both vendor signatures of a header verify, each over bytes 0x000 to 0x07F under its own boot key (R405, R406). -/
def vendorSigned (h : List Byte) : Bool :=
  let m := h.take 0x80
  let lsig := (h.drop 0xE0).take 1772
  ecdsaVerifies (Config.bootKey 0) m ((h.drop 0x80).take 96) && lmsVerifies (Config.bootKey 1) m lsig

/-- An image of a header and what follows it: its digest is that of its payload, and both vendor signatures verify (R406). -/
def firmwareOf (h rest : List Byte) : Firmware :=
  let payload := rest.take (fieldAt h 0xC 4)
  let digest := (h.drop 0x20).take 48
  ⟨fieldAt h 6 1, fieldAt h 8 4, digest, fieldAt h 7 1 == 1,
    headerGood h rest.length && sha384 payload == digest && vendorSigned h⟩

/-- Images that stand one after another, each a header of 2,048 bytes and its payload. -/
def parseFirmware : Nat → List Byte → List Firmware
  | 0, _ => []
  | n + 1, bs =>
    if bs.isEmpty then []
    else
      let h := bs.take 2048
      let rest := bs.drop 2048
      firmwareOf h rest :: parseFirmware n (rest.drop (fieldAt h 0xC 4))

/-- The images of a flash bank: the fitted ones until an update is staged. -/
def State.bank (s : State) (b : Nat) : List Firmware :=
  (Tab.get? s.dev.banks b).getD ((List.range 3).flatMap fun k => parseFirmware 1 (Config.fittedImage b (k + 1)))

/-- The image of a KIND in a bank. -/
def imageOf (fs : List Firmware) (kind : Nat) : Option Firmware := fs.find? fun f => f.kind == kind

/-- The boot keys are those whose digests are fused in the security root (R406). -/
def Device.trusts (d : Device) : Bool := [0, 1].all fun k => sha384 (Config.bootKey k) == d.keyDigests.getD k []

/-- An image verifies: under the fused keys, and its security version is at least the fused one of its KIND (R406). -/
def Device.verifies (d : Device) (f : Firmware) : Bool := f.good && d.trusts && decide (d.fused.getD (f.kind - 1) 0 ≤ f.svn)

/-- The first KIND of a bank whose image is missing or fails; none where the bank boots. -/
def State.badKind (s : State) (b : Nat) : Option Nat :=
  [1, 2, 3].find? fun k => !((imageOf (s.bank b) k).any s.dev.verifies)

/-- A staged set: a full set of images, each of which verifies (R407). -/
def Device.stageGood (d : Device) (fs : List Firmware) : Bool :=
  decide (fs.length = 3) && [1, 2, 3].all fun k => (imageOf fs k).any d.verifies

/-- FIRMWARE_STAGE (R403, R407): the bank not marked active takes the images; a bank with an image that fails is left without
any. -/
def execFirmwareStage (s : State) : Host.Outcome State Fault Refusal :=
  match s.net.hand with
  | some .firmwareStage =>
    let m := s.dev.mailbox
    if !s.dev.asked 0x10 then .fault .notDue
    else
      let fs := parseFirmware 4 (s.load (.host m[1].toNat) m[2].toNat)
      let b := 1 - s.dev.active
      if s.dev.stageGood fs then
        .next ({ s with dev := { s.dev with banks := Tab.put s.dev.banks b fs,
                                            active := if m[3].getLsbD 0 then b else s.dev.active } }.pfDone resDone)
      else .next ({ s with dev := { s.dev with banks := Tab.put s.dev.banks b [] } }.pfDone resState)
  | _ => .fault .notDue

end Sys2Proof.Machine
end

