-- ==== Sys2Proof/Machine/Power.lean ====
section
/-! DEFINITION. Bring-up and resets (R400 to R404, R407), the energy samples (R415), power and cooling (R411 to R413), soft errors
(R423), and the status query (R402). -/

namespace Sys2Proof

/-- A request of a mailbox or a lease command: the hub's die keeps its power in a trip (R413). -/
def Event.ofHost : Event → Bool
  | .firmwareStage | .cinderReadingPf | .writeRegionEntry _ | .writeFormatWindow _ | .resumeContext _ | .attestReport _ | .keyCertificate _
  | .cinderReading _ | .leaseCreate _ | .leaseDestroy _ | .grantRow _ | .revokeRow _ | .preempt _ | .restore _ | .leaseFree _ | .dump _
  | .unknownRequest _ | .unknownCommand _ => true
  | _ => false

end Sys2Proof

namespace Sys2Proof.Machine

/-! ### Bring-up (R400, R401, R407) -/

/-- Cycles in a millisecond (R8, R9). -/
def msCycles : Nat := 4000000

/-- The bound of a stage in milliseconds (R400). -/
def stageBound : Nat → Nat
  | 0 => 200
  | 1 => 500
  | 2 => 2000
  | 3 => 10000
  | 4 => 30000
  | 5 => 5000
  | _ => 1000

/-- The block of DEV_FAIL that stands for a stage (R402). -/
def stageBlock : Nat → Nat
  | 0 => 0x0C
  | 1 => 0x0B
  | 2 => 0x08
  | 3 => 0x01
  | 4 => 0x04
  | 5 => 0x09
  | _ => 0x0B

/-- The bring-up is under way. -/
def Device.bringing (d : Device) : Bool := !d.ready && !d.ember

/-- The stage at work has passed its bound. -/
def State.stageLate (s : State) : Bool := decide (s.clock.stageStart + stageBound s.dev.stage * msCycles < s.clock.cycles)

/-- Ember: the first failure is recorded and the failures are counted (R401, R402). -/
def State.enterEmber (s : State) (f : DevFail) (n : Nat) : State :=
  { s with dev := { s.dev with ember := true, fail := some f, nfail := min 255 n } }

/-- UNIT of DEV_FAIL: a stack and its pseudo-channel, a column and a row, or an index (R1, R402). -/
def failUnit (block u : Nat) : Nat :=
  match block with
  | 0x01 => u / 256 % 128 * 256 + u % 64
  | 0x04 => u / 256 % 16 * 256 + u % 160
  | _ => u % 2 ^ 32

/-- DIE of DEV_FAIL: a stack's F-die is the stack's number div 4 (R3), a cell's the one of its position (R4); slices, switches, streamers and
translation units are of F-dies, islands of M-dies, ports, cores and boot verification of the hub (R2). -/
def failDie (block d unit : Nat) : Nat :=
  match block with
  | 0x01 => dieAt (unit / 256) (unit % 64)
  | 0x02 | 0x03 | 0x06 | 0x07 => d % 4
  | 0x04 => unit / 256 / 4
  | 0x05 => 4 + d % 4
  | 0x09 | 0x0A | 0x0B | 0x0C => 8
  | 0x08 => d % 9
  | _ => d % 10

/-- A failure record of the blocks, units and dies that R402 lists, of a time within the stage. -/
def State.failOf (s : State) (f : Nat × Nat × Nat × Nat × BitVec 64 × Nat) : DevFail :=
  let block := 1 + f.2.1 % 14
  let unit := failUnit block f.2.2.2.1
  ⟨failDie block f.1 unit, block, f.2.2.1 % 65536, unit, f.2.2.2.2.1, min s.dtime (s.clock.stageStart / 4 + f.2.2.2.2.2)⟩

/-- The failures that the tests of the stage at work find: which they are is free (R400). -/
def State.stageFinds (s : State) : List DevFail := (Config.stageFailures s.tick).map s.failOf

/-- The bank that boots: the active one, or the other where an image of it fails (R407). -/
def State.bootBank (s : State) : Option Nat :=
  let a := s.dev.active
  if (s.badKind a).isNone then some a else if (s.badKind (1 - a)).isNone then some (1 - a) else none

/-- The boot failure: the failing KIND of the active bank (R407). -/
def State.bootFail (s : State) : DevFail := ⟨8, 0x0C, 1, (s.badKind s.dev.active).getD 1, Config.openWord s.tick, s.dtime⟩

/-- What boot verification finds wrong in a stage: in stage 0 no bank's stage 1 loader verifies, in stage 1 no bank boots. -/
def State.bootFails (s : State) : List DevFail :=
  let noLoader := s.badKind 0 == some 1 && s.badKind 1 == some 1
  if s.bootBank.isNone && (if s.dev.stage = 0 then noLoader else s.dev.stage == 1) then [s.bootFail] else []

/-- The firmware of the booted bank runs: its version and its measurements (R402, R406). -/
def State.booted (s : State) : State :=
  match s.bootBank with
  | none => s
  | some b =>
    let digestOf := fun (k : Nat) => (imageOf (s.bank b) k).elim [] Firmware.digest
    { s with dev := { s.dev with bank := b, svn := (imageOf (s.bank b) 2).elim 0 Firmware.svn, measured := [1, 2, 3].map digestOf,
                                 running := [1, 2, 3].filterMap (imageOf (s.bank b)) } }

/-- The fuses after stage 6 has completed with the booted images (R407). -/
def State.burnFuses (s : State) : State :=
  let next := fun (i : Nat) =>
    let old := s.dev.fused.getD i 0
    match imageOf s.dev.running (i + 1) with
    | some f => if f.advance then max old f.svn else old
    | none => old
  { s with dev := { s.dev with fused := (List.range 3).map next } }

/-- Every frame of the stacks and the shared cache reads zero (R404). -/
def State.zeroFrames (s : State) : State := { s.mend (fun _ => true) with mem := s.mem.clear fun k => decide (k % 4 < 2) }

/-- What a stage leaves when it passes. -/
def State.stageWork (s : State) : State :=
  match s.dev.stage with
  | 1 => s.booted
  | 4 => s.zeroFrames
  | 6 => { s.burnFuses with dev := { s.burnFuses.dev with ready := true } }
  | _ => s

/-- The next stage begins; READY is the end of stage 6. -/
def State.nextStage (s : State) : State :=
  if s.dev.stage < 6 then
    { s with dev := { s.dev with stage := s.dev.stage + 1 }, clock := { s.clock with stageStart := s.clock.cycles } }
  else s

/-- BRINGUP_STAGE_COMPLETE (R400, R401): the tests of a stage have found `fails`. -/
def execBringupStageComplete (s : State) : Host.Outcome State Fault Refusal :=
  match s.net.hand with
  | some (.bringupStageComplete fails) =>
    if !s.dev.bringing || s.stageLate then .fault .notDue
    else
      match s.bootFails ++ fails with
      | f :: fs => .next (s.enterEmber f (fs.length + 1))
      | [] => .next s.stageWork.nextStage
  | _ => .fault .notDue

/-- The failure of a stage that passes its bound: of the stage's own block, with test number 0xFFFF (R400). -/
def State.timeoutFail (s : State) : DevFail :=
  let w := (Config.openWord s.tick).toNat
  let block := stageBlock s.dev.stage
  let unit := failUnit block (w / 256)
  ⟨failDie block (w % 256) unit, block, 0xFFFF, unit, Config.openWord (s.tick + 1), s.dtime⟩

/-- BRINGUP_STAGE_TIMEOUT (R400, R401): what the stage had found before stands first, and all is counted. -/
def execBringupStageTimeout (s : State) : Host.Outcome State Fault Refusal :=
  match s.net.hand with
  | some .bringupStageTimeout =>
    if s.dev.bringing && s.stageLate then
      let found := s.stageFinds
      .next ((s.enterEmber (found.headD s.timeoutFail) (found.length + 1)).bump.bump)
    else .fault .notDue
  | _ => .fault .notDue

/-! ### Resets (R400, R404) -/

/-- What is lost with the device's power or at its reset: everything but the parts that are named here. -/
def State.fresh0 (s : State) (dev : Device) : State :=
  { State.reset with
    clock := { s.clock with stageStart := s.clock.cycles }
    net := { State.reset.net with inputs := s.net.inputs }
    mem := s.mem
    meters := s.meters
    dev := dev
    host := s.host }

/-- The device after a reset: flash, fuses and the LMS state remain (R404, R407, R408). -/
def Device.cold (d : Device) : Device :=
  { Device.reset with banks := d.banks, active := d.active, fused := d.fused, keyDigests := d.keyDigests, keyser := d.keyser,
                      leaf := d.leaf }

/-- The device after a warm reset: the counts of soft errors remain too (R423). -/
def Device.warm (d : Device) : Device := { d.cold with ce := d.ce, ue := d.ue, lastPace := d.lastPace }

/-- COLD_POWER_UP (R9, R400, R404): DTIME starts at 0, the meters are 0, device memory is lost. -/
def execColdPowerUp (s : State) : Host.Outcome State Fault Refusal :=
  match s.net.hand with
  | some .coldPowerUp =>
    let t := s.fresh0 s.dev.cold
    .next { t.zeroFrames with
      clock := { State.reset.clock with tick := s.clock.tick, nextId := s.clock.nextId, stamp := s.clock.stamp }, meters := [] }
  | _ => .fault .notDue

/-- The leases that exist. -/
def State.leasesHeld (s : State) : List Nat := (s.leases.filter fun p => p.2.state != .none).map Prod.fst

/-- Every lease's meter takes its final sample and stops (R414). -/
def State.stopMeters (s : State) : State := s.leasesHeld.foldl State.stopMeter s

/-- Every meter notes a warm reset since its CDTIME (R418). -/
def State.warmMeters (s : State) : State :=
  let t := s.setMeter 0 (s.meter 0)
  { t with meters := Tab.mapVal (fun m => { m with warm := true }) t.meters }

/-- WARM_RESET (R404): every lease ends without a DESTROY; DTIME and the meters survive. -/
def execWarmReset (s : State) : Host.Outcome State Fault Refusal :=
  match s.net.hand with
  | some .warmReset =>
    let t := s.stopMeters.warmMeters
    .next (t.fresh0 t.dev.warm)
  | _ => .fault .notDue

/-! ### Samples (R415) and windows (R348) -/

/-- A millisecond has passed since the last sample. -/
def State.sampleDue (s : State) : Bool := decide (s.clock.lastSample + msCycles ≤ s.clock.cycles)

/-- CINDER_SAMPLE (R415). -/
def execCinderSample (s : State) : Host.Outcome State Fault Refusal :=
  match s.net.hand with
  | some .cinderSample =>
    if s.sampleDue then
      let t := s.metered.foldl State.sampleMeter s.measure
      .next { t with clock := { t.clock with lastSample := s.clock.lastSample + msCycles } }
    else .fault .notDue
  | _ => .fault .notDue

/-- The cycles of a share window (R348). -/
def windowCycles : Nat := 16384

/-- A window has passed. -/
def State.windowDue (s : State) : Bool := decide (s.clock.window + windowCycles ≤ s.clock.cycles)

/-- A lease with no cycles charged in the window. -/
def Lease.uncharged (l : Lease) : Lease := { l with charge := [0, 0, 0] }

/-- SHARE_WINDOW_ROLL (R348): what was not used is not carried. -/
def execShareWindowRoll (s : State) : Host.Outcome State Fault Refusal :=
  match s.net.hand with
  | some .shareWindowRoll =>
    if s.windowDue then
      .next { s with leases := Tab.mapVal Lease.uncharged s.leases, clock := { s.clock with window := s.clock.window + windowCycles } }
    else .fault .notDue
  | _ => .fault .notDue

/-! ### Power (R411, R412) -/

/-- A write of DEV_PWR: one outside the range is ignored (R411). -/
def Device.powerWrite (d : Device) (v : BitVec 64) : Device :=
  let c := v.toNat % 4096
  if c < 1500 ∨ 3400 < c then d else { d with cap := c }

/-- DEV_PWR_WRITE (R411). -/
def execDevPwrWrite (s : State) : Host.Outcome State Fault Refusal :=
  match s.net.hand with
  | some (.devPwrWrite v) => .next { s with dev := s.dev.powerWrite v }
  | _ => .fault .notDue

/-- A millisecond has passed since the last comparison. -/
def State.paceDue (s : State) : Bool := decide (s.dev.lastPace + msCycles ≤ s.clock.cycles)

/-- The next pacing level (R412, R413): it rises above CAP or with a hot junction, and falls below CAP less 5 %. -/
def nextPace (above below hot : Bool) (p : Nat) : Nat := if above || hot then min 7 (p + 1) else if below then p - 1 else p

/-- POWER_PACING_TICK (R412, R413): what the monitors measure is free. -/
def execPowerPacingTick (s : State) : Host.Outcome State Fault Refusal :=
  match s.net.hand with
  | some .powerPacingTick =>
    if s.paceDue then
      let m := Config.power s.dev.cap s.tick
      let p := nextPace m.1 m.2 (Config.hot s.tick) s.dev.pace
      .next { s with dev := { s.dev with pace := p, lastPace := s.dev.lastPace + msCycles } }.bump
    else .fault .notDue
  | _ => .fault .notDue

/-! ### Trips (R413) -/

/-- Every rectangle and tile task of a lease killed with CAUSE 0x00. -/
def State.killLease (s : State) (lease : Nat) : State :=
  ((s.rectsOf lease).foldl (fun t p => t.killRect p.1 0) s).endTasks lease

/-- The ERROR record of a trip: unit class 4, DETAIL1 0 (R413). -/
def State.tripRecord (s : State) (lease : Nat) : State :=
  s.postRecord lease (s.record 0x0B 0 0 0 0 0xFFFF none 0 4 0 0)

/-- The host queues of a lease discarded (R404). -/
def Lease.unqueue (l : Lease) : Lease :=
  { l with lqs := Vector.replicate 4 LaunchQueue.reset, lqTurn := 0, fq := FaultQueue.reset }

/-- A lease ends as at a warm reset: its rectangles, row halves and host queues are gone, its meter has stopped, and a request of its host
that waits for a page goes on, to be refused (R404, R413). -/
def State.cutOff (s : State) (lease : Nat) : State :=
  ((((((s.freeAll lease).dropRows lease).releaseWaits lease).stopMeter lease).dropLease lease).modLease lease Lease.unqueue)

/-- What was on its way in the fabric is lost with its power; the hub's die keeps what the host has asked of it. -/
def State.darken (s : State) : State :=
  { s.zeroFrames with net := { s.net with agenda := s.net.agenda.filter fun f => f.ev.ofHost, waits := [] } }

/-- A trip: the kills, the records, the end of every lease, and Ember with BLOCK 0x0E and TRIP (R413). -/
def State.tripped (s : State) (die unit : Nat) : State :=
  let ls := s.leasesHeld
  let t := ls.foldl State.tripRecord (ls.foldl State.killLease s)
  let u := (ls.foldl State.cutOff t).darken
  let w := Config.openWord u.tick
  let v := u.enterEmber ⟨die, 0x0E, (w.extractLsb' 0 16).toNat, unit, Config.openWord (u.tick + 1), s.dtime⟩ u.dev.nfail
  { v with dev := { v.dev with trip := true } }.bump.bump

/-- JUNCTION_TRIP (R413). -/
def execJunctionTrip (s : State) : Host.Outcome State Fault Refusal :=
  match s.net.hand with
  | some (.junctionTrip die unit) => .next (s.tripped die unit)
  | _ => .fault .notDue

/-- COOLANT_FLOW_LOW (R413): the flow is watched on the module board. -/
def execCoolantFlowLow (s : State) : Host.Outcome State Fault Refusal :=
  match s.net.hand with
  | some .coolantFlowLow => .next (s.tripped 9 0)
  | _ => .fault .notDue

/-! ### Soft errors (R423, R424) -/

/-- The owner tag of what a soft error strikes, 0 for none. -/
def State.softOwner (s : State) (p : SoftWhere) : Nat :=
  match p with
  | .line lease _ => if (s.lease lease).state = .none then 0 else lease
  | .pad c => (s.rect? c.slot).elim 0 Rect.lease
  | .unit slot _ _ => (s.rect? slot).elim 0 Rect.lease
  | .free => 0

/-- Soft errors counted: DEV_ERR, and the owner's ERRCNT, a corrected one without an owner for lease 0 (R423, R424). -/
def State.countSoft (s : State) (owner : Nat) (corrected : Bool) : State :=
  let cap := fun (n : Nat) => min (2 ^ 32 - 1) (n + 1)
  let t := { s with dev := if corrected then { s.dev with ce := cap s.dev.ce } else { s.dev with ue := cap s.dev.ue } }
  if owner = 0 ∧ !corrected then t
  else
    t.modLease owner fun l =>
      if corrected then { l with errCe := min 65535 (l.errCe + 1) } else { l with errUe := min 65535 (l.errUe + 1) }

/-- An uncorrectable error in a unit of a rectangle: an ERROR record, and the fault that freezes it; R85 names no cause for it. -/
def State.softFreeze (s : State) (slot : Nat) (unitClass unitIndex : Nat) (who : Option CtxId) : State :=
  match s.rect? slot with
  | none => s
  | some r =>
    let cause := (Config.openWord s.tick).toNat % 256
    let t := s.postRecord r.lease (s.record 0x0B cause 0 0 (s.handleOf slot) 0xFFFF who 0 (unitClass % 256 + unitIndex % 256 * 256) 0 0)
    (t.post 3 (.faultEvent slot ⟨cause, 0, 0, 0xFFFF, who, unitClass, unitIndex, 0⟩)).bump

/-- An uncorrectable error where it strikes: what reads the line later meets it (R193). -/
def State.softUncorrected (s : State) (p : SoftWhere) : State :=
  match p with
  | .line lease addr =>
    let l := (Loc.dev lease addr).align 128
    let t := s.postRecord lease (s.record 0x0B 0 0 0 0 0xFFFF none 0 4 addr 0)
    { t with homes := { t.homes with bad := if t.homes.bad.contains l then t.homes.bad else t.homes.bad ++ [l] } }
  | .pad c => s.softFreeze c.slot 0 0 (some ⟨c.slot, c.col, c.row, 0⟩)
  | .unit slot k i => s.softFreeze slot k i none
  | .free => s

/-- SOFT_ERROR_DETECTED (R423). -/
def execSoftErrorDetected (s : State) : Host.Outcome State Fault Refusal :=
  match s.net.hand with
  | some (.softErrorDetected p corrected) =>
    let t := s.countSoft (s.softOwner p) corrected
    .next (if corrected then t else t.softUncorrected p)
  | _ => .fault .notDue

/-! ### The status query (R402) -/

/-- DEV_STATUS (R402). -/
def Device.status (d : Device) : BitVec 64 :=
  BitVec.ofNat 64 (d.svn % 2 ^ 32 * 2 ^ 32 + min 255 d.nfail * 2 ^ 16 + d.stage % 16 * 2 ^ 8 + d.bank % 2 * 2 ^ 4 +
    (if d.trip then 8 else 0) + (if d.pace = 0 then 0 else 4) + (if d.ember then 2 else 0) + if d.ready then 1 else 0)

/-- DEV_FAIL (R402): zero while there is no failure. -/
def Device.failBytes (d : Device) : List Byte :=
  match d.fail with
  | some f =>
    leBytes 1 f.die ++ leBytes 1 f.block ++ leBytes 2 f.test ++ leBytes 4 f.unit ++ leBytes 8 f.dtime ++ leBytes 8 f.detail.toNat ++ leBytes 8 0
  | none => leBytes 32 0

/-- DEV_STATUS followed by DEV_FAIL, in 40 bytes (R402): what the adapter's management function and the management controller answer a status
query with, in Ember too, and what the physical function's registers read (R401). -/
def Device.statusBytes (d : Device) : List Byte := leBytes 8 d.status.toNat ++ d.failBytes

/-- A status query of the adapter's management function (R401); like a register read it has no step of its own. -/
def State.managementStatus (s : State) : List Byte := s.dev.statusBytes

/-- MCTP_STATUS_QUERY (R401, R402). -/
def execMctpStatusQuery (s : State) : Host.Outcome State Fault Refusal :=
  match s.net.hand with
  | some .mctpStatusQuery => .next (s.hostAnswer 0 s.dev.statusBytes)
  | _ => .fault .notDue

end Sys2Proof.Machine
end

