-- ==== Sys2Proof/Machine/Registers.lean ====
section
/-! DEFINITION. The register spaces of the host: what a write of each register does, by its access code (R10, R11, R365 to R368,
R371, R375 to R377, R386, R403, R419), and what a read of each returns. -/

namespace Sys2Proof.Machine

/-! ### Mailboxes (R367, R403) -/

/-- A write of a mailbox word: ignored while GO reads 1; of word 0 it takes OP and GO. -/
def mboxWrite (m : Vector (BitVec 64) 8) (n : Nat) (v : BitVec 64) : Vector (BitVec 64) 8 :=
  if mboxGo m[0] then m
  else if n = 0 then m.set 0 ((v &&& 0xFF00000000000001#64) ||| (m[0] &&& 0x00FF000000000000#64))
  else if h : n < 8 then m.set n v
  else m

/-- The event that a virtual function's request becomes (R367, R409, R418). -/
def vfRequest (lease op : Nat) : Option Event :=
  match op with
  | 0x01 => some (.writeRegionEntry lease)
  | 0x02 => some (.writeFormatWindow lease)
  | 0x03 => some (.resumeContext lease)
  | 0x04 => some (.attestReport lease)
  | 0x05 => some (.keyCertificate lease)
  | 0x06 => some (.cinderReading lease)
  | _ => none

/-- The event that a request of the physical function becomes (R403). -/
def pfRequest (op : Nat) : Option Event :=
  match op with
  | 0x10 => some .firmwareStage
  | 0x11 => some .cinderReadingPf
  | _ => none

/-- A write of a word of a virtual function's mailbox: GO starts the request, and an unknown OP waits for the answer of the Hearth (R367, R398). -/
def State.vfMailbox (s : State) (lease n : Nat) (v : BitVec 64) : State :=
  let old := (s.lease lease).mailbox
  let m := mboxWrite old n v
  let t := s.modLease lease fun l => { l with mailbox := m }
  if mboxGo m[0] && !mboxGo old[0] then
    match vfRequest lease (mboxOp m[0]) with
    | some ev => t.post 2 ev
    | none => t.queueJob (.unknownRequest lease)
  else t

/-- An unknown OP of a virtual function's mailbox, or of the physical function's (lease 0), is answered (R367, R403). -/
def State.answerUnknown (s : State) (lease : Nat) : State :=
  if lease = 0 then (if mboxGo s.dev.mailbox[0] && (pfRequest (mboxOp s.dev.mailbox[0])).isNone then s.pfDone resUnknown else s)
  else
    let m := (s.lease lease).mailbox
    if mboxGo m[0] && (vfRequest lease (mboxOp m[0])).isNone then s.reqDone lease resUnknown else s

/-- A write of a word of the physical function's mailbox (R403). -/
def State.pfMailbox (s : State) (n : Nat) (v : BitVec 64) : State :=
  let old := s.dev.mailbox
  let m := mboxWrite old n v
  let t := { s with dev := { s.dev with mailbox := m } }
  if mboxGo m[0] && !mboxGo old[0] then
    match pfRequest (mboxOp m[0]) with
    | some ev => t.post 2 ev
    | none => t.queueJob (.unknownRequest 0)
  else t

/-! ### Virtual functions (R365, R366, R368, R386, R419) -/

/-- A write of LQ_BASE: ignored unless the queue is STOPPED (R368). -/
def LaunchQueue.baseWrite (q : LaunchQueue) (v : BitVec 64) : LaunchQueue :=
  if q.state = lqStopped then { q with base := v &&& 0x01FFFFFFFFFFFF80#64 } else q

/-- A write of FQ_BASE: only while EN = 0 (R386). -/
def FaultQueue.baseWrite (q : FaultQueue) (v : BitVec 64) : FaultQueue :=
  if q.en then q else { q with base := v &&& 0x01FFFFFFFFFFFFC0#64 }

/-- A write of FQ_STATUS: WRERR and HDERR clear where 1 is written (R10, R386). -/
def FaultQueue.statusWrite (q : FaultQueue) (v : BitVec 64) : FaultQueue :=
  { q with wrerr := q.wrerr && !v.getLsbD 2, hderr := q.hderr && !v.getLsbD 0 }

/-- A write of a register of launch queue `n`: 0 LQ_BASE, 1 LQ_CTL, 2 LQ_HEAD; LQ_STATUS is read-only. -/
def LaunchQueue.regWrite (q : LaunchQueue) (r : Nat) (v : BitVec 64) : LaunchQueue :=
  match r with
  | 0 => q.baseWrite v
  | 1 => q.ctlWrite v
  | 2 => q.headWrite (v.setWidth 32)
  | _ => q

/-- A write of a register of the fault-queue block. -/
def State.fqWrite (s : State) (lease off : Nat) (v : BitVec 64) : State :=
  match off with
  | 0x200 => s.modLease lease fun l => { l with fq := l.fq.baseWrite v }
  | 0x208 => (s.modLease lease fun l => { l with fq := l.fq.ctlWrite v }).serveQueue lease
  | 0x218 => s.modLease lease fun l => { l with fq := l.fq.statusWrite v }
  | 0x220 => s.resume lease (v.toNat % 2 ^ 32)
  | 0x228 => s.modLease lease fun l => { l with fq := { l.fq with invVa := v &&& 0x01FFFFFFFFFF0000#64 } }
  | 0x230 => s.modLease lease fun l => { l with fq := l.fq.startInv (v.toNat % 2 ^ 32) }
  | _ => s

/-- A write of a register of a virtual function: read-only registers and offsets not listed ignore it. -/
def State.vfRegWrite (s : State) (lease off : Nat) (v : BitVec 64) : State :=
  if off % 8 ≠ 0 then s
  else if off = 0x10 then s.modLease lease fun l => { l with vfCtl := v.setWidth 2 }
  else if 0x100 ≤ off ∧ off < 0x180 then
    s.modLease lease fun l => l.modQueue ((off - 0x100) / 32) fun q => q.regWrite (off / 8 % 4) v
  else if 0x200 ≤ off ∧ off < 0x300 then s.fqWrite lease off v
  else if 0x400 ≤ off ∧ off < 0x440 then s.modLease lease fun l => l.modCounter ((off - 0x400) / 8) fun k => k.valueWrite v
  else if 0x440 ≤ off ∧ off < 0x480 then s.modLease lease fun l => l.modCounter ((off - 0x440) / 8) fun k => k.selWrite v
  else if off = 0x480 then s.modLease lease fun l => { l with cntOvf := l.cntOvf &&& ~~~(v.setWidth 8) }
  else if 0x800 ≤ off ∧ off < 0x840 then s.vfMailbox lease ((off - 0x800) / 8) v
  else if 0x1000 ≤ off ∧ off < 0x1020 then s.modLease lease fun l => l.tailDoorbell ((off - 0x1000) / 8) (v.setWidth 32)
  else if off = 0x1040 then (s.modLease lease fun l => { l with fq := l.fq.headDoorbell (v.toNat % 2 ^ 32) }).serveQueue lease
  else s

/-! ### The physical function (R375, R376, R403) -/

/-- The event that a lease command becomes (R377). -/
def leaseCommand (lease op : Nat) : Option Event :=
  match op with
  | 0x01 => some (.leaseCreate lease)
  | 0x02 => some (.leaseDestroy lease)
  | 0x03 => some (.grantRow lease)
  | 0x04 => some (.revokeRow lease)
  | 0x05 => some (.preempt lease)
  | 0x06 => some (.restore lease)
  | 0x07 => some (.leaseFree lease)
  | 0x08 => some (.dump lease)
  | _ => none

/-- A write of LEASE_CMD: ignored while GO reads 1; GO starts OP, and an unknown one waits for the answer of the Hearth (R375, R376, R398). -/
def State.cmdWrite (s : State) (lease : Nat) (v : BitVec 64) : State :=
  if (s.lease lease).cmdGo then s
  else
    let op := mboxOp v
    let t := s.modLease lease fun l => { l with cmdOp := BitVec.ofNat 8 op, cmdGo := mboxGo v }
    if mboxGo v then
      match leaseCommand lease op with
      | some ev => t.post 2 ev
      | none => t.queueJob (.unknownCommand lease)
    else t

/-- An unknown OP of LEASE_CMD is answered (R377). -/
def State.answerCommand (s : State) (lease : Nat) : State :=
  let l := s.lease lease
  if l.cmdGo && (leaseCommand lease l.cmdOp.toNat).isNone then s.cmdDone lease resUnknown else s

/-- A write of a register of a lease block, by its number: LEASE_SCHED, MEM, HASH, PT, CARVE, HOST, ARG, CMD (R375, R376). -/
def State.blockWrite (s : State) (lease r : Nat) (v : BitVec 64) : State :=
  let free := (s.lease lease).state == .none
  match r with
  | 0 => s.schedWrite lease v
  | 1 => if free then s.modLease lease fun l => { l with memReg := v &&& 0x000001FF01FFFF0F#64 } else s
  | 2 => if free then s.modLease lease fun l => { l with hash := v &&& 0x00000000FFFFFFFF#64 } else s
  | 3 => s.modLease lease fun l => l.ptWrite v
  | 4 => if free then s.modLease lease fun l => { l with carveReg := v &&& 0x00000000000003FF#64 } else s
  | 5 => if free then s.modLease lease fun l => { l with host := v &&& 0x0000000000000003#64 } else s
  | 6 => s.modLease lease fun l => { l with arg := v }
  | _ => s.cmdWrite lease v

/-- A write of a register of the physical function: offsets not listed, and the block of lease 0, ignore it (R375, R403). -/
def State.pfRegWrite (s : State) (off : Nat) (v : BitVec 64) : State :=
  if off % 8 ≠ 0 then s
  else if off = 0x8 then { s with dev := s.dev.powerWrite v }
  else if 0x800 ≤ off ∧ off < 0x840 then s.pfMailbox ((off - 0x800) / 8) v
  else if 0x10040 ≤ off ∧ off < 0x14000 then s.blockWrite ((off - 0x10000) / 64) (off / 8 % 8) v
  else s

/-- REGISTER_WRITE (R10, R365, R403). -/
def execRegisterWrite (s : State) : Host.Outcome State Fault Refusal :=
  match s.net.hand with
  | some (.registerWrite .pf off v) => .next (s.pfRegWrite off v)
  | some (.registerWrite (.vf lease) off v) => .next (if isTenant lease then s.vfRegWrite lease off v else s)
  | _ => .fault .notDue

/-! ### What a read returns

A read has no effect, and no step of its own. -/

/-- A bit as a number. -/
def bitNat (b : Bool) : Nat := if b then 1 else 0

/-- VF_STATUS (R366, R379): LIVE clears at the end of DESTROY. -/
def State.vfStatus (s : State) (lease : Nat) : BitVec 64 :=
  let l := s.lease lease
  BitVec.ofNat 64 (lease * 2 ^ 32 + 4 * bitNat (l.sched.getLsbD 63) + 2 * bitNat s.ember + bitNat (l.state != .none))

/-- A register of a launch queue (R368). -/
def LaunchQueue.regRead (q : LaunchQueue) (r : Nat) : BitVec 64 :=
  match r with
  | 0 => q.base
  | 1 => BitVec.ofNat 64 (128 * bitNat q.pol + 64 * bitNat q.en + q.sizel)
  | 2 => q.head.setWidth 64
  | _ => BitVec.ofNat 64 (q.state * 2 ^ 40 + q.code * 2 ^ 32 + q.eseq.toNat)

/-- A register of the fault-queue block (R386): FQ_RESUME and FQ_INVCNT are write-only. -/
def FaultQueue.regRead (q : FaultQueue) (off : Nat) : BitVec 64 :=
  match off with
  | 0x200 => q.base
  | 0x208 => BitVec.ofNat 64 (128 * bitNat q.en + q.sizel)
  | 0x210 => BitVec.ofNat 64 q.tail
  | 0x218 =>
    BitVec.ofNat 64 (q.lost * 2 ^ 16 + q.held.length * 2 ^ 8 + 4 * bitNat q.wrerr + 2 * bitNat q.inval.isSome + bitNat q.hderr)
  | 0x228 => q.invVa
  | _ => 0

/-- A register of a virtual function (R365). -/
def State.vfRead (s : State) (lease off : Nat) : BitVec 64 :=
  let l := s.lease lease
  if off % 8 ≠ 0 then 0
  else if off = 0 then s.vfStatus lease
  else if off = 0x10 then l.vfCtl.setWidth 64
  else if 0x100 ≤ off ∧ off < 0x180 then (l.queue ((off - 0x100) / 32)).regRead (off / 8 % 4)
  else if 0x200 ≤ off ∧ off < 0x300 then l.fq.regRead off
  else if 0x400 ≤ off ∧ off < 0x440 then (l.counters.toList.getD ((off - 0x400) / 8) Counter.reset).value.setWidth 64
  else if 0x440 ≤ off ∧ off < 0x480 then (l.counters.toList.getD ((off - 0x440) / 8) Counter.reset).cfg
  else if off = 0x480 then l.cntOvf.setWidth 64
  else if off = 0x488 then BitVec.ofNat 64 (l.errUe * 2 ^ 48 + l.errCe * 2 ^ 32 + l.errBorder * 2 ^ 16 + l.errStray)
  else if 0x800 ≤ off ∧ off < 0x840 then l.mailbox.toList.getD ((off - 0x800) / 8) 0
  else if 0x1000 ≤ off ∧ off < 0x1020 then (l.queue ((off - 0x1000) / 8)).door.setWidth 64
  else if off = 0x1040 then BitVec.ofNat 64 l.fq.head
  else 0

/-- LEASE_CMD (R376). -/
def Lease.cmdRead (l : Lease) : BitVec 64 :=
  let st := match l.state with
    | .none => 0
    | .live => 1
    | .ending => 2
  BitVec.ofNat 64 (l.cmdOp.toNat * 2 ^ 56 + l.cmdResult.toNat * 2 ^ 48 + st * 2 ^ 8 + bitNat l.cmdGo)

/-- A register of a lease block (R375). -/
def Lease.blockRead (l : Lease) (r : Nat) : BitVec 64 :=
  match r with
  | 0 => l.sched
  | 1 => l.memReg
  | 2 => l.hash
  | 3 => l.pt
  | 4 => l.carveReg
  | 5 => l.host
  | 6 => l.arg
  | _ => l.cmdRead

/-- A register of the physical function (R375, R403). -/
def State.pfRead (s : State) (off : Nat) : BitVec 64 :=
  let d := s.dev
  if off % 8 ≠ 0 then 0
  else if off = 0 then d.status
  else if off = 0x8 then BitVec.ofNat 64 d.cap
  else if off = 0x10 then BitVec.ofNat 64 (d.ce * 2 ^ 32 + d.ue)
  else if 0x40 ≤ off ∧ off < 0x60 then BitVec.ofNat 64 (leNat ((d.failBytes.drop (off - 0x40)).take 8))
  else if 0x800 ≤ off ∧ off < 0x840 then d.mailbox.toList.getD ((off - 0x800) / 8) 0
  else if 0x10040 ≤ off ∧ off < 0x14000 then (s.lease ((off - 0x10000) / 64)).blockRead (off / 8 % 8)
  else 0

end Sys2Proof.Machine
end

