-- ==== Sys2Proof/Machine/Dispatch.lean ====
section
/-! DEFINITION. The dispatcher: one arm per constructor of Instr, each a direct call of its meaning. -/

namespace Sys2Proof.Machine

/-- The meaning of every step. -/
def exec (i : Instr) (s : State) : Host.Outcome State Fault Refusal :=
  match i with
  | .add o => Sys2Proof.Machine.execAdd o s
  | .sub o => Sys2Proof.Machine.execSub o s
  | .and o => Sys2Proof.Machine.execAnd o s
  | .or o => Sys2Proof.Machine.execOr o s
  | .xor o => Sys2Proof.Machine.execXor o s
  | .andn o => Sys2Proof.Machine.execAndn o s
  | .shl o => Sys2Proof.Machine.execShl o s
  | .shr o => Sys2Proof.Machine.execShr o s
  | .sha o => Sys2Proof.Machine.execSha o s
  | .rot o => Sys2Proof.Machine.execRot o s
  | .min o => Sys2Proof.Machine.execMin o s
  | .max o => Sys2Proof.Machine.execMax o s
  | .minz o => Sys2Proof.Machine.execMinz o s
  | .maxz o => Sys2Proof.Machine.execMaxz o s
  | .sel o => Sys2Proof.Machine.execSel o s
  | .mul o => Sys2Proof.Machine.execMul o s
  | .mulh o => Sys2Proof.Machine.execMulh o s
  | .mulhz o => Sys2Proof.Machine.execMulhz o s
  | .div o => Sys2Proof.Machine.execDiv o s
  | .divz o => Sys2Proof.Machine.execDivz o s
  | .rem o => Sys2Proof.Machine.execRem o s
  | .remz o => Sys2Proof.Machine.execRemz o s
  | .mads o => Sys2Proof.Machine.execMads o s
  | .clz o => Sys2Proof.Machine.execClz o s
  | .ctz o => Sys2Proof.Machine.execCtz o s
  | .pop o => Sys2Proof.Machine.execPop o s
  | .brev o => Sys2Proof.Machine.execBrev o s
  | .bswap o => Sys2Proof.Machine.execBswap o s
  | .ext o => Sys2Proof.Machine.execExt o s
  | .ins o => Sys2Proof.Machine.execIns o s
  | .cmpEq o => Sys2Proof.Machine.execCmpEq o s
  | .cmpNe o => Sys2Proof.Machine.execCmpNe o s
  | .cmpLt o => Sys2Proof.Machine.execCmpLt o s
  | .cmpGe o => Sys2Proof.Machine.execCmpGe o s
  | .cmpLtz o => Sys2Proof.Machine.execCmpLtz o s
  | .cmpGez o => Sys2Proof.Machine.execCmpGez o s
  | .lea o k => Sys2Proof.Machine.execLea o k s
  | .agen2 o k => Sys2Proof.Machine.execAgen2 o k s
  | .bound o => Sys2Proof.Machine.execBound o s
  | .addImm o => Sys2Proof.Machine.execAddImm o s
  | .andImm o => Sys2Proof.Machine.execAndImm o s
  | .orImm o => Sys2Proof.Machine.execOrImm o s
  | .xorImm o => Sys2Proof.Machine.execXorImm o s
  | .shlImm o => Sys2Proof.Machine.execShlImm o s
  | .shrImm o => Sys2Proof.Machine.execShrImm o s
  | .shaImm o => Sys2Proof.Machine.execShaImm o s
  | .rotImm o => Sys2Proof.Machine.execRotImm o s
  | .mulImm o => Sys2Proof.Machine.execMulImm o s
  | .minImm o => Sys2Proof.Machine.execMinImm o s
  | .maxImm o => Sys2Proof.Machine.execMaxImm o s
  | .cmpEqImm o => Sys2Proof.Machine.execCmpEqImm o s
  | .cmpNeImm o => Sys2Proof.Machine.execCmpNeImm o s
  | .cmpLtImm o => Sys2Proof.Machine.execCmpLtImm o s
  | .cmpGeImm o => Sys2Proof.Machine.execCmpGeImm o s
  | .cmpLtzImm o => Sys2Proof.Machine.execCmpLtzImm o s
  | .cmpGezImm o => Sys2Proof.Machine.execCmpGezImm o s
  | .extImm o => Sys2Proof.Machine.execExtImm o s
  | .insImm o => Sys2Proof.Machine.execInsImm o s
  | .lui d imm => Sys2Proof.Machine.execLui d imm s
  | .bccEq o => Sys2Proof.Machine.execBccEq o s
  | .bccNe o => Sys2Proof.Machine.execBccNe o s
  | .bccLt o => Sys2Proof.Machine.execBccLt o s
  | .bccGe o => Sys2Proof.Machine.execBccGe o s
  | .bccLtz o => Sys2Proof.Machine.execBccLtz o s
  | .bccGez o => Sys2Proof.Machine.execBccGez o s
  | .j off => Sys2Proof.Machine.execJ off s
  | .jal off => Sys2Proof.Machine.execJal off s
  | .jalr o => Sys2Proof.Machine.execJalr o s
  | .loop o => Sys2Proof.Machine.execLoop o s
  | .loopx o => Sys2Proof.Machine.execLoopx o s
  | .done => Sys2Proof.Machine.execDone s
  | .yield => Sys2Proof.Machine.execYield s
  | .movq o => Sys2Proof.Machine.execMovq o s
  | .marke o => Sys2Proof.Machine.execMarke o s
  | .markf o => Sys2Proof.Machine.execMarkf o s
  | .testf o => Sys2Proof.Machine.execTestf o s
  | .waitf o => Sys2Proof.Machine.execWaitf o s
  | .waitm o => Sys2Proof.Machine.execWaitm o s
  | .mfs d e n => Sys2Proof.Machine.execMfs d e n s
  | .mts a ea n => Sys2Proof.Machine.execMts a ea n s
  | .fadd o => Sys2Proof.Machine.execFadd o s
  | .fsub o => Sys2Proof.Machine.execFsub o s
  | .fmul o => Sys2Proof.Machine.execFmul o s
  | .fma o => Sys2Proof.Machine.execFma o s
  | .fdiv o => Sys2Proof.Machine.execFdiv o s
  | .fsqrt o => Sys2Proof.Machine.execFsqrt o s
  | .fmin o => Sys2Proof.Machine.execFmin o s
  | .fmax o => Sys2Proof.Machine.execFmax o s
  | .fcmp o => Sys2Proof.Machine.execFcmp o s
  | .fcvt o => Sys2Proof.Machine.execFcvt o s
  | .fclass o => Sys2Proof.Machine.execFclass o s
  | .vadd o => Sys2Proof.Machine.execVadd o s
  | .vsub o => Sys2Proof.Machine.execVsub o s
  | .vmul o => Sys2Proof.Machine.execVmul o s
  | .vmulh o => Sys2Proof.Machine.execVmulh o s
  | .vmad o => Sys2Proof.Machine.execVmad o s
  | .vand o => Sys2Proof.Machine.execVand o s
  | .vor o => Sys2Proof.Machine.execVor o s
  | .vxor o => Sys2Proof.Machine.execVxor o s
  | .vshl o => Sys2Proof.Machine.execVshl o s
  | .vshr o => Sys2Proof.Machine.execVshr o s
  | .vsha o => Sys2Proof.Machine.execVsha o s
  | .vmin o => Sys2Proof.Machine.execVmin o s
  | .vmax o => Sys2Proof.Machine.execVmax o s
  | .vabs o => Sys2Proof.Machine.execVabs o s
  | .vneg o => Sys2Proof.Machine.execVneg o s
  | .vcmp o => Sys2Proof.Machine.execVcmp o s
  | .vsel o => Sys2Proof.Machine.execVsel o s
  | .vfadd o => Sys2Proof.Machine.execVfadd o s
  | .vfsub o => Sys2Proof.Machine.execVfsub o s
  | .vfmul o => Sys2Proof.Machine.execVfmul o s
  | .vfma o => Sys2Proof.Machine.execVfma o s
  | .vfms o => Sys2Proof.Machine.execVfms o s
  | .vfnma o => Sys2Proof.Machine.execVfnma o s
  | .vfdiv o => Sys2Proof.Machine.execVfdiv o s
  | .vfsqrt o => Sys2Proof.Machine.execVfsqrt o s
  | .vfrcp o => Sys2Proof.Machine.execVfrcp o s
  | .vfrsq o => Sys2Proof.Machine.execVfrsq o s
  | .vfexp2 o => Sys2Proof.Machine.execVfexp2 o s
  | .vflog2 o => Sys2Proof.Machine.execVflog2 o s
  | .vfmin o => Sys2Proof.Machine.execVfmin o s
  | .vfmax o => Sys2Proof.Machine.execVfmax o s
  | .vfcmp o => Sys2Proof.Machine.execVfcmp o s
  | .vfclass o => Sys2Proof.Machine.execVfclass o s
  | .vcvt o => Sys2Proof.Machine.execVcvt o s
  | .vquant o => Sys2Proof.Machine.execVquant o s
  | .vdeq o => Sys2Proof.Machine.execVdeq o s
  | .vdot o => Sys2Proof.Machine.execVdot o s
  | .vbdot o => Sys2Proof.Machine.execVbdot o s
  | .vredadd o => Sys2Proof.Machine.execVredadd o s
  | .vredmax o => Sys2Proof.Machine.execVredmax o s
  | .vredmin o => Sys2Proof.Machine.execVredmin o s
  | .vscan o => Sys2Proof.Machine.execVscan o s
  | .vperm o => Sys2Proof.Machine.execVperm o s
  | .vshuf o => Sys2Proof.Machine.execVshuf o s
  | .vrot o => Sys2Proof.Machine.execVrot o s
  | .vbcast o => Sys2Proof.Machine.execVbcast o s
  | .vextr o => Sys2Proof.Machine.execVextr o s
  | .vins o => Sys2Proof.Machine.execVins o s
  | .mand o => Sys2Proof.Machine.execMand o s
  | .mor o => Sys2Proof.Machine.execMor o s
  | .mxor o => Sys2Proof.Machine.execMxor o s
  | .mnot d a => Sys2Proof.Machine.execMnot d a s
  | .mpop d a => Sys2Proof.Machine.execMpop d a s
  | .mfirst d a => Sys2Proof.Machine.execMfirst d a s
  | .vwidth d ea => Sys2Proof.Machine.execVwidth d ea s
  | .ldB o => Sys2Proof.Machine.execLdB o s
  | .ldH o => Sys2Proof.Machine.execLdH o s
  | .ldW o => Sys2Proof.Machine.execLdW o s
  | .ldD o => Sys2Proof.Machine.execLdD o s
  | .stB o => Sys2Proof.Machine.execStB o s
  | .stH o => Sys2Proof.Machine.execStH o s
  | .stW o => Sys2Proof.Machine.execStW o s
  | .stD o => Sys2Proof.Machine.execStD o s
  | .ldv o => Sys2Proof.Machine.execLdv o s
  | .stv o => Sys2Proof.Machine.execStv o s
  | .ldg o => Sys2Proof.Machine.execLdg o s
  | .stg o => Sys2Proof.Machine.execStg o s
  | .ldf o => Sys2Proof.Machine.execLdf o s
  | .ldp o => Sys2Proof.Machine.execLdp o s
  | .ste o => Sys2Proof.Machine.execSte o s
  | .stx o => Sys2Proof.Machine.execStx o s
  | .xbar rect => Sys2Proof.Machine.execXbar rect s
  | .amo o => Sys2Proof.Machine.execAmo o s
  | .amoC o => Sys2Proof.Machine.execAmoC o s
  | .stOp o => Sys2Proof.Machine.execStOp o s
  | .stOpC o => Sys2Proof.Machine.execStOpC o s
  | .dqpush o => Sys2Proof.Machine.execDqpush o s
  | .dqpop o => Sys2Proof.Machine.execDqpop o s
  | .dqsteal o => Sys2Proof.Machine.execDqsteal o s
  | .chget o => Sys2Proof.Machine.execChget o s
  | .chpeek o => Sys2Proof.Machine.execChpeek o s
  | .chput o => Sys2Proof.Machine.execChput o s
  | .chstat o => Sys2Proof.Machine.execChstat o s
  | .acq o => Sys2Proof.Machine.execAcq o s
  | .acqs o => Sys2Proof.Machine.execAcqs o s
  | .rel o => Sys2Proof.Machine.execRel o s
  | .fence e kind scope => Sys2Proof.Machine.execFence e kind scope s
  | .waita o => Sys2Proof.Machine.execWaita o s
  | .bar rect => Sys2Proof.Machine.execBar rect s
  | .scmd o => Sys2Proof.Machine.execScmd o s
  | .scmdw o => Sys2Proof.Machine.execScmdw o s
  | .trap code => Sys2Proof.Machine.execTrap code s
  | .eret => Sys2Proof.Machine.execEret s
  | .rply => Sys2Proof.Machine.execRply s
  | .rplys => Sys2Proof.Machine.execRplys s
  | .sysc code => Sys2Proof.Machine.execSysc code s
  | .halt => Sys2Proof.Machine.execHalt s
  | .bkpt code => Sys2Proof.Machine.execBkpt code s
  | .cntrd d n => Sys2Proof.Machine.execCntrd d n s
  | .cntcfg a ea n => Sys2Proof.Machine.execCntcfg a ea n s
  | .carve o => Sys2Proof.Machine.execCarve o s
  | .idle => Sys2Proof.Machine.execIdle s
  | .cCopy src w => Sys2Proof.Machine.execCCopy src w s
  | .cCopyr src w => Sys2Proof.Machine.execCCopyr src w s
  | .cGath src w => Sys2Proof.Machine.execCGath src w s
  | .cScat src w => Sys2Proof.Machine.execCScat src w s
  | .cFill src w => Sys2Proof.Machine.execCFill src w s
  | .cConv src w => Sys2Proof.Machine.execCConv src w s
  | .cBind src w => Sys2Proof.Machine.execCBind src w s
  | .cUnbind src w => Sys2Proof.Machine.execCUnbind src w s
  | .cStream src w => Sys2Proof.Machine.execCStream src w s
  | .cTtask src w => Sys2Proof.Machine.execCTtask src w s
  | .cMma src w => Sys2Proof.Machine.execCMma src w s
  | .cAccsv src w => Sys2Proof.Machine.execCAccsv src w s
  | .cAccld src w => Sys2Proof.Machine.execCAccld src w s
  | .cPref src w => Sys2Proof.Machine.execCPref src w s
  | .cFlush src w => Sys2Proof.Machine.execCFlush src w s
  | .cLaunch src w => Sys2Proof.Machine.execCLaunch src w s
  | .cJoin src w => Sys2Proof.Machine.execCJoin src w s
  | .cFree src w => Sys2Proof.Machine.execCFree src w s
  | .engineCommandStart => Sys2Proof.Machine.execEngineCommandStart s
  | .copyChunkLand => Sys2Proof.Machine.execCopyChunkLand s
  | .engineCommandComplete => Sys2Proof.Machine.execEngineCommandComplete s
  | .engineCommandError => Sys2Proof.Machine.execEngineCommandError s
  | .nodeSourceDeliver => Sys2Proof.Machine.execNodeSourceDeliver s
  | .nodeReadResponse => Sys2Proof.Machine.execNodeReadResponse s
  | .nodeSinkWrite => Sys2Proof.Machine.execNodeSinkWrite s
  | .nodeRequestElement => Sys2Proof.Machine.execNodeRequestElement s
  | .nodeStreamEnd => Sys2Proof.Machine.execNodeStreamEnd s
  | .carveRepartition => Sys2Proof.Machine.execCarveRepartition s
  | .firingStart => Sys2Proof.Machine.execFiringStart s
  | .firingOverrun => Sys2Proof.Machine.execFiringOverrun s
  | .channelTokenArrival => Sys2Proof.Machine.execChannelTokenArrival s
  | .commitMarkArrival => Sys2Proof.Machine.execCommitMarkArrival s
  | .creditArrival => Sys2Proof.Machine.execCreditArrival s
  | .eosConsume => Sys2Proof.Machine.execEosConsume s
  | .cellWake => Sys2Proof.Machine.execCellWake s
  | .borderTokenRefuse => Sys2Proof.Machine.execBorderTokenRefuse s
  | .ctlStartPulse => Sys2Proof.Machine.execCtlStartPulse s
  | .ctlDonePulse => Sys2Proof.Machine.execCtlDonePulse s
  | .replyArrival => Sys2Proof.Machine.execReplyArrival s
  | .ackArrival => Sys2Proof.Machine.execAckArrival s
  | .retryResend => Sys2Proof.Machine.execRetryResend s
  | .homeReadWrite => Sys2Proof.Machine.execHomeReadWrite s
  | .homeAtomic => Sys2Proof.Machine.execHomeAtomic s
  | .homeDequeOp => Sys2Proof.Machine.execHomeDequeOp s
  | .homeAcquireRequest => Sys2Proof.Machine.execHomeAcquireRequest s
  | .homeRelease => Sys2Proof.Machine.execHomeRelease s
  | .homeWaitaRequest => Sys2Proof.Machine.execHomeWaitaRequest s
  | .waitaHostPoll => Sys2Proof.Machine.execWaitaHostPoll s
  | .scratchpadPortAccess => Sys2Proof.Machine.execScratchpadPortAccess s
  | .presencePortRequest => Sys2Proof.Machine.execPresencePortRequest s
  | .xbarArrival => Sys2Proof.Machine.execXbarArrival s
  | .barArrival => Sys2Proof.Machine.execBarArrival s
  | .withdrawalArrival => Sys2Proof.Machine.execWithdrawalArrival s
  | .purgeArrival => Sys2Proof.Machine.execPurgeArrival s
  | .combineAtSwitch => Sys2Proof.Machine.execCombineAtSwitch s
  | .combineWaitExpiry => Sys2Proof.Machine.execCombineWaitExpiry s
  | .combinedReplySplit => Sys2Proof.Machine.execCombinedReplySplit s
  | .urgentPacketEvict => Sys2Proof.Machine.execUrgentPacketEvict s
  | .evictionResend => Sys2Proof.Machine.execEvictionResend s
  | .packetPromotion => Sys2Proof.Machine.execPacketPromotion s
  | .shareWindowRoll => Sys2Proof.Machine.execShareWindowRoll s
  | .pageWalkDone => Sys2Proof.Machine.execPageWalkDone s
  | .configWritten => Sys2Proof.Machine.execConfigWritten s
  | .armCheck => Sys2Proof.Machine.execArmCheck s
  | .rectSinksDone => Sys2Proof.Machine.execRectSinksDone s
  | .completionSignalWrite => Sys2Proof.Machine.execCompletionSignalWrite s
  | .rectOverrun => Sys2Proof.Machine.execRectOverrun s
  | .cutRequest => Sys2Proof.Machine.execCutRequest s
  | .cutTokenArrival => Sys2Proof.Machine.execCutTokenArrival s
  | .stopAckArrival => Sys2Proof.Machine.execStopAckArrival s
  | .reelWrite => Sys2Proof.Machine.execReelWrite s
  | .faultEvent => Sys2Proof.Machine.execFaultEvent s
  | .freezeArrival => Sys2Proof.Machine.execFreezeArrival s
  | .drainLimitExpiry => Sys2Proof.Machine.execDrainLimitExpiry s
  | .moveStart => Sys2Proof.Machine.execMoveStart s
  | .autoRestore => Sys2Proof.Machine.execAutoRestore s
  | .slateIssueTask => Sys2Proof.Machine.execSlateIssueTask s
  | .rowHalfKstep => Sys2Proof.Machine.execRowHalfKstep s
  | .tileTaskEnd => Sys2Proof.Machine.execTileTaskEnd s
  | .tileTaskOverrun => Sys2Proof.Machine.execTileTaskOverrun s
  | .slatePreempt => Sys2Proof.Machine.execSlatePreempt s
  | .hostCxlRead => Sys2Proof.Machine.execHostCxlRead s
  | .hostCxlWrite => Sys2Proof.Machine.execHostCxlWrite s
  | .hostAtomic => Sys2Proof.Machine.execHostAtomic s
  | .lqTailDoorbell => Sys2Proof.Machine.execLqTailDoorbell s
  | .lqHeadWrite => Sys2Proof.Machine.execLqHeadWrite s
  | .lqCtlWrite => Sys2Proof.Machine.execLqCtlWrite s
  | .launchRecordRead => Sys2Proof.Machine.execLaunchRecordRead s
  | .fqHeadDoorbell => Sys2Proof.Machine.execFqHeadDoorbell s
  | .fqCtlWrite => Sys2Proof.Machine.execFqCtlWrite s
  | .fqResumeWrite => Sys2Proof.Machine.execFqResumeWrite s
  | .fqInvcntWrite => Sys2Proof.Machine.execFqInvcntWrite s
  | .invalidationDone => Sys2Proof.Machine.execInvalidationDone s
  | .cntWrite => Sys2Proof.Machine.execCntWrite s
  | .cntselWrite => Sys2Proof.Machine.execCntselWrite s
  | .writeRegionEntry => Sys2Proof.Machine.execWriteRegionEntry s
  | .writeFormatWindow => Sys2Proof.Machine.execWriteFormatWindow s
  | .resumeContext => Sys2Proof.Machine.execResumeContext s
  | .attestReport => Sys2Proof.Machine.execAttestReport s
  | .keyCertificate => Sys2Proof.Machine.execKeyCertificate s
  | .cinderReading => Sys2Proof.Machine.execCinderReading s
  | .cinderReadingPf => Sys2Proof.Machine.execCinderReadingPf s
  | .firmwareStage => Sys2Proof.Machine.execFirmwareStage s
  | .leaseCreate => Sys2Proof.Machine.execLeaseCreate s
  | .leaseDestroy => Sys2Proof.Machine.execLeaseDestroy s
  | .grantRow => Sys2Proof.Machine.execGrantRow s
  | .revokeRow => Sys2Proof.Machine.execRevokeRow s
  | .preempt => Sys2Proof.Machine.execPreempt s
  | .restore => Sys2Proof.Machine.execRestore s
  | .leaseFree => Sys2Proof.Machine.execLeaseFree s
  | .dump => Sys2Proof.Machine.execDump s
  | .leaseSchedWrite => Sys2Proof.Machine.execLeaseSchedWrite s
  | .leasePtWrite => Sys2Proof.Machine.execLeasePtWrite s
  | .devPwrWrite => Sys2Proof.Machine.execDevPwrWrite s
  | .registerWrite => Sys2Proof.Machine.execRegisterWrite s
  | .mctpStatusQuery => Sys2Proof.Machine.execMctpStatusQuery s
  | .coldPowerUp => Sys2Proof.Machine.execColdPowerUp s
  | .warmReset => Sys2Proof.Machine.execWarmReset s
  | .bringupStageComplete => Sys2Proof.Machine.execBringupStageComplete s
  | .bringupStageTimeout => Sys2Proof.Machine.execBringupStageTimeout s
  | .cinderSample => Sys2Proof.Machine.execCinderSample s
  | .powerPacingTick => Sys2Proof.Machine.execPowerPacingTick s
  | .junctionTrip => Sys2Proof.Machine.execJunctionTrip s
  | .coolantFlowLow => Sys2Proof.Machine.execCoolantFlowLow s
  | .softErrorDetected => Sys2Proof.Machine.execSoftErrorDetected s
  | .linkRetransmission => Sys2Proof.Machine.execLinkRetransmission s

end Sys2Proof.Machine
end

