-- ==== Sys2Proof/Machine/Fetch.lean ====
section
/-! DEFINITION. What comes before a meaning: a context's turn at its cell, the fetch of its next word or the re-injection of its
oldest queue entry (R33, R88, R90, R91, R94, R108, R109), and the delivery of an event (R115). -/

namespace Sys2Proof.Machine

/-! ### A context's turn (R33, R146) -/

/-- A context that gave up the issue slot by YIELD is like any other once another one has issued (R146). -/
def Ctx.unyield (x : Ctx) : Ctx := if x.hold = .yielded then { x with hold := .free } else x

/-- A context takes the issue slot of its cell (R33). -/
def State.takeSlot (s : State) (c : CtxId) : State :=
  let t := (s.cellCtxs c.cell).foldl (fun u p => if p.1 = c then u else u.modCtx p.1 Ctx.unyield) s
  { t.modCell c.cell fun k => { k with holder := some c.ctx } with cur := c }

/-! ### Fetch (R91, R94, R108, R109) -/

/-- A word executes in the context at hand: one that does not decode raises ILLEGAL with the SUB of R108, and captures no
operand and no destination. -/
def State.runWord (s : State) (x : Ctx) (w : IWord) : Host.Outcome State Fault Refusal :=
  match decode w with
  | .ok i => exec i s
  | .error e =>
    if Config.unfinished ≤ x.unfinished then .next (s.block x) else .next (s.raiseWith x .done w (.illegal e.sub) 3 false)

/-- The next word is fetched from the code window. Outside it there is none: the replay queue then holds no entry for the fetch, and
TRAPPC the faulting address (R94). -/
def State.fetch (s : State) (x : Ctx) : Host.Outcome State Fault Refusal :=
  match x.window[x.pc.toNat]? with
  | some w => s.runWord x w
  | none => .next (s.enterTrap s.cur x (.illegal 0x01) (x.pend.map Pend.entry) x.pc false)

/-- The oldest entry of a queue is re-injected: an INFLIGHT one is waited for, a CONSUMED one writes its value, a COMPLETE one
needs no action, and a WAITING or FAULTED one executes (R88). -/
def State.reinject (s : State) (x : Ctx) (e : RqEntry) : Host.Outcome State Fault Refusal :=
  let y := { x with injecting := some e }
  match e.status.toNat with
  | 1 => .next (s.block x)
  | 2 => .next (s.retire (y.writeConsumed e) none)
  | 4 => .next (s.setCtx s.cur (y.advance none))
  | _ => (s.setCtx s.cur y).runWord y e.instr

/-- A context executes its oldest entry that is still to be re-injected, or the next word. -/
def State.runNext (s : State) (x : Ctx) : Host.Outcome State Fault Refusal :=
  match x.inject with
  | [] => s.fetch x
  | e :: _ => s.reinject x e

/-- A context was left waiting at issue. -/
def State.leftWaiting (s : State) (c : CtxId) : Bool := (s.ctx? c).any fun x => x.hold == .blocked s.clock.stamp

/-- A context has its turn: it takes the issue slot if it issues; one that still waits leaves the slot where it is (R33). -/
def State.present (s : State) (c : CtxId) : Host.Outcome State Fault Refusal :=
  match s.ctx? c with
  | none => .fault .noContext
  | some x =>
    match (s.takeSlot c).runNext x with
    | .next t => if t.leftWaiting c then { s with cur := c }.runNext x else .next t
    | .fault e => .fault e
    | .refused e => .refused e

/-! ### Delivery of an event -/

/-- A command whose CMDOP is not allocated: its port refuses it with BADCMD (R113, R115). -/
def State.refuseUnknown (s : State) (src : CtxId) (w : CWord) : State :=
  match s.ctx? src with
  | some x => s.badCmd src x w
  | none => s

/-- The event that a step has taken is put down again. -/
def State.putDown (s : State) : State := { s with net := { s.net with hand := none } }

/-- The outcome of a step's work with the event put down. -/
def settled : Host.Outcome State Fault Refusal → Host.Outcome State Fault Refusal
  | .next t => .next t.putDown
  | .fault r => .fault r
  | .refused r => .refused r

/-- An event reaches its unit, which makes the step of the event's row. -/
def State.arrives (s : State) (ev : Event) : Host.Outcome State Fault Refusal :=
  match ev.instr with
  | some i => settled (exec i { s with net := { s.net with hand := some ev } })
  | none =>
    match ev with
    | .command src w => .next (s.refuseUnknown src w)
    | _ => .fault .notDue

/-- A granted move is made. -/
def State.make (s : State) (m : Move) : Host.Outcome State Fault Refusal :=
  match m with
  | .event ev => s.arrives ev
  | .issue c => s.present c

end Sys2Proof.Machine
end

