-- ==== Sys2Proof/Machine/Bench.lean ====
section
/-! DEFINITION. A one-cell rectangle that runs one word: what a launch by lease 1 leaves once its one task's firing has begun. The
part fetches a task's words from the code window of a context, and a window is written by a launch alone (R20, R94, R124). -/

namespace Sys2Proof.Machine

/-- A cell actor at col 0, row 0. -/
def benchNode : NodeE :=
  { kind := .cell, cls := 2, crew := 0, memKind := 0, sink := false, pos := some (0, 0), ref := 0, leaf := 0, index := 0, stride := 0,
    fn := 0 }

/-- A task part whose code is one word. -/
def benchTask (w : IWord) : TaskE :=
  { actor := 0, cls := 2, crew := 0, budget := 1000000, codew := 1, entry := 0, cmdw := 0, cmdn := 0, window := [w], data := [] }

/-- The image of a one-cell rectangle with that task and no edge. -/
def benchImage (w : IWord) : Image :=
  { w := 1, h := 1, total := 0, nodes := [benchNode], edges := [], ctls := [], root := none, tasks := [benchTask w], regions := [],
    xch := [], nleaf := 1, digest := [] }

/-- The handle of slot 0 of lease 1, generation 0 (R17). -/
def benchHandle : Nat := 0x01000000

/-- The context of the task: context 0 of the cell at col 0, row 0 of slot 0. -/
def benchCtx : CtxId := ⟨0, 0, 0, 0⟩

/-- The admitted item of the rectangle. -/
def benchItem : Item :=
  { budget := 1000000, deadline := 1000000, period := 4000000, rows := 0, strms := 0, chargedCell := 0, chargedRow := 0,
    chargedStrm := 0, admittedAt := 0, admitted := 0, counted := true, demoted := false, demotePolicy := false }

/-- The rectangle, RUNNING. -/
def benchRect (w : IWord) : Rect :=
  { lease := 1, state := .running, col0 := 0, row0 := 0, image := benchImage w, places := [(0, benchCtx)], retain := false,
    repro := false, preemptOk := false, parent := none, depth := 1, sigAddr := 0, sigVal := 0, stAddr := 0, iter := 0, binds := [],
    item := benchItem, routes := [], drain := 0, ctls := [], leaves := [⟨1, true, false⟩], children := [], joins := [], count := 0, overran := false,
    outcome := none, first := none, faults := 0, collector := none, cutDeferred := none, startHeld := none, reel := none,
    wasRunning := false, stoppedAt := 0, restoring := false, move := none, sliced := false, completing := 0, arrived := [], stopCounts := [], overdue := false }

/-- Lease 1 LIVE on F-die 0 with one frame of memory and an empty page table (R375, R376). -/
def Lease.bench (l : Lease) : Lease := { l with state := .live, memReg := 0x101 }

/-- The state with that rectangle in slot 0, a firing of its task in progress, and a move granted. -/
def State.benched (s : State) (w : IWord) (m : Move) : State :=
  let x := ((benchTask w).context benchHandle 1 false).beginFiring s.clock.cycles
  let t := (s.modLease 1 Lease.bench)
  { t with
    rects := Tab.put t.rects 0 { gen := 0, purges := [], rect := some (benchRect w) },
    ctxs := Tab.put t.ctxs benchCtx x,
    cells := Tab.put t.cells benchCtx.cell
      { pad := [], empties := [], xch := false, front := false, parked := [], rr := 1, holder := some 0, permits := [], gated := false, port := (0, 0) },
    net := { t.net with turn := some m } }

/-- The state whose next step fetches and runs a task word. -/
def State.withTaskWord (s : State) (w : IWord) : State := s.benched w (.issue benchCtx)

/-- The state whose next step runs an issued stream command word at its port, as sent by that task. -/
def State.withCommandWord (s : State) (w : CWord) : State := s.benched (encodeWord .done) (.event (.command benchCtx w))

end Sys2Proof.Machine
end

