-- ==== Sys2Proof/Machine/Schedule.lean ====
section
/-! DEFINITION. Which moves the part can make next, and what passes with time: the packets and events that can be delivered
(R199, R203, R222, R230, R309, R355), the units that have work to do, the choice of each cell (R33, R34), the cycles charged
(R32, R312, R340, R345) and the upkeep after a move (R30, R34). -/

namespace Sys2Proof

/-! ### Kinds of events -/

/-- An event that comes from outside the part: the host, the management controller, the power supply, the coolant loop, a
particle, or a mis-routed configuration. -/
def Event.outside : Event → Bool
  | .hostCxlRead _ _ _ _ | .hostCxlWrite _ _ _ | .hostAtomic _ _ _ _ _ _ | .lqTailDoorbell _ _ _ | .lqHeadWrite _ _ _
  | .lqCtlWrite _ _ _ | .fqHeadDoorbell _ _ | .fqCtlWrite _ _ | .fqResumeWrite _ _ | .fqInvcntWrite _ _ | .cntWrite _ _ _
  | .cntselWrite _ _ _ | .leaseSchedWrite _ _ | .leasePtWrite _ _ | .devPwrWrite _ | .registerWrite _ _ _ | .mctpStatusQuery
  | .coldPowerUp | .warmReset | .junctionTrip _ _ | .coolantFlowLow | .softErrorDetected _ _ | .borderTokenRefuse _ _ _ _ => true
  | _ => false

/-- A packet of the networks, which switches serve by class (R354, R355). -/
def Event.packet : Event → Bool
  | .command _ _ | .channelTokenArrival _ _ _ | .commitMarkArrival _ _ _ | .creditArrival _ _ _ | .ctlStartPulse _ _
  | .ctlDonePulse _ _ _ | .replyArrival _ _ | .ackArrival _ _ _ _ _ | .homeReadWrite _ | .homeAtomic _ | .homeDequeOp _
  | .homeAcquireRequest _ | .homeRelease _ | .homeWaitaRequest _ | .scratchpadPortAccess _ | .presencePortRequest _
  | .nodeReadResponse _ _ _ | .copyChunkLand _ _ _ | .xbarArrival _ _ _ | .barArrival _ _ _ | .withdrawalArrival _ _ | .purgeArrival _ _ | .combinedReplySplit _ _
  | .cutTokenArrival _ _ | .freezeArrival _ _ | .stopAckArrival _ _ | .faultEvent _ _ | .armCheck _ => true
  | _ => false

/-- A request still on its way to its target, and not one that waits to be resent after it has been there. -/
def Event.travelling? : Event → Option Req
  | .retryResend _ | .waitaHostPoll _ => none
  | e => e.req?

/-- The answer that an event carries goes to the same place as a request's. -/
def Event.answers (dst : ReplyTo) : Event → Bool
  | .replyArrival d _ => d == dst
  | .ackArrival c h t k n => dst == .ctxAck c h t k n
  | .combinedReplySplit e _ => dst == .split e
  | _ => false

end Sys2Proof

namespace Sys2Proof.Machine

/-! ### Order on the way (R199, R203, R207, R222, R230, R288) -/

/-- Two commands of which the second stays behind the first: they go from one context to one port (R222), or they are C.COPYR
commands of one cell (R230). -/
def commandsInOrder (c d : CtxId) (v w : CWord) : Bool :=
  (c == d && cmdClass v == cmdClass w && cmdIndex v == cmdIndex w) || (c.cell == d.cell && cmdOp v == 0x02 && cmdOp w == 0x02)

/-- What a withdrawal must not overtake: the request that it withdraws (R203). -/
def withdraws (c : CtxId) (id : Nat) (ev : Event) : Bool :=
  match ev with
  | .xbarArrival d _ n | .barArrival d _ n => d == c && n == id
  | _ => (ev.travelling?).any fun r => namesReply c id r.reply

/-- An event stays behind an earlier one. -/
def State.behind (s : State) (e f : Event) : Bool :=
  (match e.req?, f.req? with
   | some a, some b => s.sameBytes a b
   | _, _ => false) ||
  (match e.onEdge?, f.onEdge? with
   | some a, some b => a == b
   | _, _ => false) ||
  (match e, f with
   | .command c v, .command d w => commandsInOrder c d v w
   | _, .withdrawalArrival c id => withdraws c id e
   | _, _ => false)

/-! ### The Hearth's event queue (R398, R399) -/

/-- The Hearth's firmware runs: stage 1 has verified and started it (R398, R400). -/
def State.firmwareRuns (s : State) : Bool := decide (2 ≤ s.dev.stage)

/-- The ordering lock of an event in its queue: an admission of a lease is its C.LAUNCH at the director or its C.TTASK at Slate (R399). -/
def State.lockOf (s : State) (ev : Event) : Option Nat :=
  match ev with
  | .command src w => if cmdOp w = 0x20 ∨ cmdOp w = 0x10 then (s.ctx? src).map Ctx.lease else none
  | e => hearthLock e

/-- The answer of a request stays behind every copy of it that a link sends again (R207, R374). -/
def copiesOnWay (fs : List Flight) (ev : Event) : Bool :=
  fs.any fun f => match f.ev with
    | .homeAtomic r => ev.answers r.reply
    | .homeDequeOp r => ev.answers r.reply
    | _ => false

/-! ### What an arrival waits for -/

/-- A load of a lease may be tried: the rectangles that were cut for it have left, no other load waits for area that was made for
it, and what was cut before is restored first (R331, R343, R351). -/
def State.loadReady (s : State) (lease : Nat) (ev : Event) : Bool :=
  match s.slicing with
  | some e => e == ev && (s.rectsOf lease).all fun p => !(p.2.sliced && (p.2.state == .running || p.2.state == .draining))
  | none => !s.rects.any fun p => s.autoDue p.1

/-- An earlier command to the same port waits there for a page (R222). -/
def State.commandWaiting (s : State) (src : CtxId) (w : CWord) : Bool :=
  s.leases.any fun p => p.2.svcs.any fun v => v.waiters.any (commandFor src.slot w)

/-- The director of a rectangle takes a command (R20, R44, R46, R252): a C.LAUNCH once the writes of its issuer are performed; one that is
admitted already completes, whether or not its rectangle is cut. -/
def State.directorTakes (s : State) (src : CtxId) (w : CWord) : Bool :=
  match s.rect? src.slot with
  | none => true
  | some r =>
    if cmdOp w = 0x20 then
      ((r.state == .running && r.collector.isNone && (s.ctx? src).all fun x => x.writesDone .rect) ||
        s.slicing == some (.command src w)) && s.loadReady r.lease (.command src w)
    else r.state != .saved && r.state != .loading && r.state != .unarmed

/-- A port takes a command: an engine that a cut or freeze has stopped takes none (R226, R327), and an admission of the lease under way
holds a tile task (R343). -/
def State.portTakes (s : State) (src : CtxId) (w : CWord) : Bool :=
  !s.commandWaiting src w && match portOf src.slot w with
  | some p => !s.bound src.slot (cmdClass w) (cmdIndex w) || s.portWorks p
  | none =>
    (cmdClass w != 0 || s.directorTakes src w) &&
      (cmdClass w != 4 || (s.rect? src.slot).all fun r => (s.lease r.lease).slicing.isNone)

/-- The control network of a rectangle carries pulses (R28). -/
def State.pulses (s : State) (slot : Nat) : Bool :=
  match s.rect? slot with
  | some r => r.state == .running && r.collector.isNone
  | none => true

/-- The cell in whose input switch a token or commit mark arrives (R55, R331). -/
def State.edgeCells (s : State) (ev : Event) : Option CellId := do
  let (slot, n) ← ev.onEdge?
  let r ← s.rect? slot
  let e ← s.edge? slot n
  let p ← r.places.find? fun p => p.1 == e.dst
  pure p.2.cell

/-- The cell that an event brings an access of its scratchpad port to, and the access's place in the port's order (R72). -/
def State.portAccess (s : State) (ev : Event) : Option (CellId × Nat) :=
  match ev with
  | .scratchpadPortAccess r => some (r.cell, s.portOrder r.reply r.cell)
  | .presencePortRequest r => some (r.cell, s.portOrder r.reply r.cell)
  | .withdrawalArrival c id => s.withdrawnAt c id
  | _ => none

/-- A scratchpad port takes an event's access in this cycle (R72). -/
def State.portOpen (s : State) (ev : Event) : Bool :=
  match s.portAccess ev with
  | some (k, n) => (s.cell? k).all fun d => d.portFree s.clock.cycles n
  | none => true

/-- The ports of an XBAR's scope take its swap in this cycle: none has taken an access (R72, R205). -/
def State.swapOpen (s : State) (c : CtxId) (rect : Bool) : Bool :=
  (s.ctx? c).all fun x => (s.exchanges c x rect).all fun k => (s.cell? k).all fun d => d.portFree s.clock.cycles swapOrder

/-- The unit that an event reaches can take it now. -/
def State.takes (s : State) (ev : Event) : Bool :=
  match ev with
  | .channelTokenArrival _ _ _ | .commitMarkArrival _ _ _ => (s.edgeCells ev).all s.awake
  | .scratchpadPortAccess _ | .presencePortRequest _ | .withdrawalArrival _ _ => s.portOpen ev
  | .xbarArrival c rect _ => s.swapOpen c rect
  | .command src w => s.portTakes src w
  | .copyChunkLand p id k => s.chunkDue p id k
  | .engineCommandError p _ _ => s.portWorks p
  | .engineCommandComplete p id => s.portWorks p && (s.cmd? p id).all fun c => s.completeDue p c
  | .nodeReadResponse slot _ _ => s.drains slot
  | .homeAtomic r => r.queue.isNone
  | .ctlStartPulse slot _ | .ctlDonePulse slot _ _ => s.pulses slot
  | .launchRecordRead lease n bs => s.loadReady lease ev && (!bs.isEmpty || s.recordDue lease n)
  | .invalidationDone lease => s.invalDue lease
  | .reelWrite slot => s.reelReady slot
  | .autoRestore slot => s.autoDue slot
  | .restore _ => s.slicing.isNone
  | .revokeRow lease => !s.taskOverrunDue (s.argRow lease)
  | .leaseDestroy lease => (s.lease lease).state != .ending || s.endDue lease
  | _ => true

/-- CREATE, which the hub refuses in Ember whether or not its firmware runs (R400, R401). -/
def createsLease : Event → Bool
  | .leaseCreate _ => true
  | _ => false

/-- An event of the Hearth waits: its firmware does not run yet, 4,096 events are queued before it, or one of its lock is (R398,
R399). An event whose unit does not take it yet has left the queue and is offered again. -/
def State.hearthWaits (s : State) (before : List Flight) (ev : Event) : Bool :=
  match s.lockOf ev with
  | none => false
  | some k =>
    let queued := before.filter fun g => decide (g.due ≤ s.clock.cycles) && (s.lockOf g.ev).isSome && s.takes g.ev
    if s.firmwareRuns then decide (Config.hearthQueue ≤ queued.length) || queued.any fun g => s.lockOf g.ev == some k
    else !(s.ember && createsLease ev)

/-- Work of the Hearth that waits for its lock and is done in the upkeep (R399). -/
def hearthJob (ev : Event) : Bool :=
  match ev with
  | .recordWrite _ | .unknownRequest _ | .unknownCommand _ => true
  | _ => false

/-- A flight can be delivered, behind the earlier ones that still travel. -/
def State.flightReady (s : State) (before : List Flight) (f : Flight) : Bool :=
  decide (f.due ≤ s.clock.cycles) && s.takes f.ev && !hearthJob f.ev && !(before.any fun g => s.behind g.ev f.ev) && !s.hearthWaits before f.ev &&
    !copiesOnWay s.net.agenda f.ev

/-- The flights that can be delivered. -/
def State.readyFrom (s : State) (before : List Flight) : List Flight → List Flight
  | [] => []
  | f :: fs => (if s.flightReady before f then [f] else []) ++ s.readyFrom (before ++ [f]) fs

/-- The packets that have entered the buffer of a packet. -/
def sharesBuffer (f : Flight) (fs : List Flight) : List Flight := fs.filter fun g => g.buf == f.buf && g.ev.packet

/-- A packet finds an entry of its buffer, two of which only class 3 may use (R356). -/
def findsEntry (f : Flight) (entered : List Flight) : Bool :=
  let mine := sharesBuffer f entered
  let urgent := (mine.filter fun g => g.cls == 3).length
  let size := Config.bufferEntries f.buf + 3
  if f.cls = 3 then decide (mine.length < size) else decide (mine.length - min 2 urgent < size - 2)

/-- The packets that have entered their buffers, in the order in which they came; the others wait for an entry (R356). -/
def enter (entered : List Flight) : List Flight → List Flight
  | [] => entered
  | f :: fs => enter (if !f.ev.packet || findsEntry f entered then entered ++ [f] else entered) fs

/-- The packets that find no entry of their buffers. -/
def leftOut (entered : List Flight) : List Flight → List Flight
  | [] => []
  | f :: fs => if !f.ev.packet || findsEntry f entered then leftOut (entered ++ [f]) fs else f :: leftOut entered fs

/-- The packets that wait for an entry of a switch buffer (R356). -/
def State.shutOut (s : State) : List Flight := leftOut [] (s.readyFrom [] s.net.agenda)

/-- The flights that can be delivered, those packets left out that wait for an entry of a switch buffer (R356). -/
def State.entered (s : State) : List Flight := enter [] (s.readyFrom [] s.net.agenda)

/-- A packet is served before another of the same switch buffer: the higher class first, and within a class the one that has
waited longest (R355). -/
def servedBefore (f g : Flight) : Bool :=
  f.buf == g.buf && f.ev.packet && g.ev.packet && (decide (g.cls < f.cls) || (f.cls == g.cls && decide (f.since < g.since)))

/-- The flights that are delivered next. -/
def State.arrivals (s : State) : List Event :=
  let fs := s.entered
  (fs.filter fun f => !fs.any fun g => servedBefore g f).map Flight.ev

/-! ### The network's own work (R54, R208, R355, R356, R374) -/

/-- The atomic requests that wait in combining queues. -/
def State.queued (s : State) : List AmoReq :=
  s.net.agenda.filterMap fun f => match f.ev with
    | .homeAtomic r => if r.queue.isSome && decide (f.due ≤ s.clock.cycles) then some r else none
    | _ => none

/-- The pairs that can combine: the earlier arrival is first (R208). -/
def pairsOf : List AmoReq → List Event
  | [] => []
  | a :: rs => (rs.filterMap fun b => a.queue.bind fun q => if combinable q a b then some (.combineAtSwitch q a b) else none) ++ pairsOf rs

/-- The combinations and expiries of the combining queues (R54, R208). -/
def State.combining (s : State) : List Event :=
  let rs := s.queued
  ((pairsOf rs).filter fun e => match e with
    | .combineAtSwitch q a b => s.mayJoin a b && decide (s.waitsOf q < Config.waitBuffer)
    | _ => false) ++ rs.map fun r => .combineWaitExpiry r

/-- The victims of class 3 packets that find their buffers full (R356). -/
def State.evictions (s : State) : List Event :=
  let fs := s.entered
  let urgent := s.shutOut.filter fun f => f.cls == 3
  ((urgent.map Flight.buf).eraseDups.filterMap fun b => victimIn b fs).filterMap fun f =>
    (s.net.agenda.findIdx? fun g => g == f).map .urgentPacketEvict

/-- A chunk's requests have left its engine (R353). -/
def State.hasLeft (s : State) : Event → Bool
  | .copyChunkLand p id k => s.chunkDue p id k
  | _ => true

/-- Packets that have waited 2,048 cycles in one buffer (R355). -/
def State.promotions (s : State) : List Event :=
  (List.range s.net.agenda.length).filterMap fun n => (s.net.agenda[n]?).bind fun f =>
    if f.ev.packet && s.hasLeft f.ev && decide (f.cls < 2) && decide (f.since + 2048 ≤ s.clock.cycles) then some (.packetPromotion n) else none

/-- A place of another device (R374). -/
def isRemote : Loc → Bool
  | .remote _ _ _ => true
  | .dev _ _ | .carve _ _ | .host _ => false

/-- Requests that a scale-up link may send again: a copy of each at most is on its way (R374). -/
def State.resends (s : State) : List Event :=
  let copies := fun (dst : ReplyTo) => (s.net.agenda.filter fun f => (f.ev.req?).any fun r => r.reply == dst).length
  s.net.agenda.filterMap fun f => match f.ev with
    | .homeAtomic r => if isRemote r.loc && r.queue.isNone && copies r.reply == 1 then some (.linkRetransmission (.amo r)) else none
    | .homeDequeOp r => if isRemote r.loc && copies r.reply == 1 then some (.linkRetransmission (.dq r)) else none
    | _ => none

/-! ### Work of units -/

/-- An event as a list: one where a condition holds. -/
def whenDue (b : Bool) (ev : Event) : List Event := if b then [ev] else []

/-- The ports that hold command queues. -/
def State.ports (s : State) : List Port :=
  s.strms.map (fun p => .strm p.1.1 p.1.2) ++ s.nodes.map (fun p => .memn p.1.1 p.1.2) ++
    s.rows.filterMap fun p => p.2.bound.map fun b => .mrow b.1 b.2

/-- A C.MMA whose block is complete ends, or sends on its result as credit allows (R246). -/
def State.mmaOver (s : State) (r : RowHalf) : List Event :=
  match r.bound, r.queue.head? with
  | some (slot, i), some c =>
    let p : Port := .mrow slot i
    whenDue (cmdOp c.word == 0x11 && s.portWorks p && s.completeDue p c) (.engineCommandComplete p c.id)
  | _, _ => []

/-- The work of engines (R222, R234, R244, R246, R299, R348). -/
def State.engineWork (s : State) : List Event :=
  (s.ports.flatMap fun p => whenDue (s.startDue p) (.engineCommandStart p)) ++
    (s.nodes.flatMap fun p =>
      let (slot, i) := p.1
      whenDue (s.deliverable slot i) (.nodeSourceDeliver slot i) ++
      whenDue (s.sinkReady slot i && !s.waitsForPage (.nodeSinkWrite slot i)) (.nodeSinkWrite slot i) ++
      whenDue (s.elementReady slot i && !s.waitsForPage (.nodeRequestElement slot i)) (.nodeRequestElement slot i) ++
      whenDue (s.streamEnds slot i) (.nodeStreamEnd slot i)) ++
    (s.rows.flatMap fun p => whenDue (s.kstepDue p.1 && !s.waitsForPage (.rowHalfKstep p.1)) (.rowHalfKstep p.1)) ++
    s.rows.flatMap fun p => s.mmaOver p.2

/-- A task's last block is complete (R243). -/
def State.taskOver (s : State) (row : Nat) : Bool :=
  (s.rowTask row).any fun k => decide (k.tile.m * k.tile.n ≤ (s.row row).blocks)

/-- The work of Slate for a lease (R243, R312, R349, R350). -/
def State.slateWork (s : State) (lease : Nat) : List Event :=
  ((s.rowsOf lease).flatMap fun n =>
    whenDue (s.issueDue lease n) (.slateIssueTask lease n) ++ whenDue (s.taskOver n && !s.taskOverrunDue n) (.tileTaskEnd n) ++
    whenDue (s.taskOverrunDue n) (.tileTaskOverrun n)) ++
    whenDue (s.preemptible lease).isSome (.slatePreempt lease)

/-- A leaf that is done sends its done pulse to its controller, once (R25, R28, R322). -/
def State.sendPulse (s : State) (slot n : Nat) : State :=
  match s.rect? slot with
  | some r =>
    if s.pulses slot && s.leafDone slot n && (r.leaves[n]?).any (fun l => !l.pulsed) then
      match r.image.parentOf (.leaf n) with
      | some (i, k) =>
        (s.setRect slot { r with leaves := r.leaves.modify n fun l => { l with pulsed := true } }).post 3 (.ctlDonePulse slot i k)
      | none => s
    else s
  | none => s

/-- What the units of a rectangle send of their own accord, as class 3: cut tokens from an engine's stopping point on, stop
acknowledgements and done pulses (R25, R327). -/
def State.report3 (s : State) (slot : Nat) : State :=
  match s.rect? slot with
  | some r =>
    (List.range r.image.nleaf).foldl (fun t n => t.sendPulse slot n)
      (r.units.foldl (fun t n => (t.passCut slot n).sendAck slot n) s)
  | none => s

/-- The work of a rectangle's director (R20, R26, R50, R345, R394). -/
def State.directorWork (s : State) (slot : Nat) : List Event :=
  whenDue (s.sinksDue slot) (.rectSinksDone slot) ++
    whenDue (s.signalDue slot && !s.waitsForPage (.completionSignalWrite slot)) (.completionSignalWrite slot) ++
    whenDue (s.rectOverrunDue slot) (.rectOverrun slot) ++ whenDue (s.limitPassed slot) (.drainLimitExpiry slot)

/-- What Wyell does for a rectangle once it can: its reel, and its restore (R90, R351, R371). -/
def State.wyellWork (s : State) (slot : Nat) : List Event :=
  whenDue (s.reelReady slot) (.reelWrite slot) ++ whenDue (s.autoDue slot) (.autoRestore slot)

/-- The move that Wyell makes, if it makes one now (R360). -/
def State.wyellMove (s : State) : List Event :=
  match Config.move s.tick with
  | some (slot, col, row) =>
    whenDue ((s.planMove slot col row).isSome && !s.hearthWaits s.net.agenda (.moveStart slot col row)) (.moveStart slot col row)
  | none => []

/-- The hub's work for a lease (R369, R385). -/
def State.leaseWork (s : State) (lease : Nat) : List Event :=
  ((List.range 4).flatMap fun n => whenDue (s.recordDue lease n && s.loadReady lease (.launchRecordRead lease n []))
    (.launchRecordRead lease n [])) ++
    whenDue (s.invalDue lease) (.invalidationDone lease)

/-- The work of the Hearth that falls due at its source: it enters the event queue then (R398, R399). -/
def State.hearthWork (s : State) : List Event :=
  (s.leases.flatMap fun p => s.leaseWork p.1) ++ s.rects.flatMap fun p => s.wyellWork p.1

/-- An event that `hearthWork` brings. -/
def sourced (ev : Event) : Bool :=
  match ev with
  | .launchRecordRead _ _ [] | .invalidationDone _ | .reelWrite _ | .autoRestore _ => true
  | _ => false

/-- The work that is due stands in the queue, once, behind what was queued before it; what is due no longer leaves it (R398, R399). -/
def State.enterHearth (s : State) : State :=
  let due := s.hearthWork
  let kept := s.net.agenda.filter fun f => !sourced f.ev || due.contains f.ev
  (due.filter fun e => !kept.any fun f => f.ev == e).foldl State.queueJob { s with net := { s.net with agenda := kept } }

/-- Work of the Hearth that is done in the upkeep (R367, R377, R386, R399). -/
def State.doJob (s : State) (ev : Event) : State :=
  match ev with
  | .recordWrite lease => s.recordTurn lease
  | .unknownRequest lease => s.answerUnknown lease
  | .unknownCommand lease => s.answerCommand lease
  | _ => s

/-- The hub's own work (R348, R400, R412, R415). -/
def State.hubWork (s : State) : List Event :=
  whenDue s.sampleDue .cinderSample ++ whenDue s.windowDue .shareWindowRoll ++ whenDue s.paceDue .powerPacingTick ++
    whenDue (s.dev.bringing && s.stageLate) .bringupStageTimeout ++
    whenDue (s.dev.bringing && !s.stageLate) (.bringupStageComplete s.stageFinds)

/-! ### Cells (R33, R34, R55) -/

/-- The contexts of a cell that can issue: an OVERRUN that is due comes before the next instruction (R130). -/
def State.issuers (s : State) (k : CellId) : List (CtxId × Ctx) :=
  (s.cellCtxs k).filter fun p => s.canIssue p.1 p.2 && !s.overrunDue p.1

/-- The place of a firing in progress in its cell's choice: from the round-robin pointer on, those that gave the slot up last. -/
def issueRank (rr : Nat) (p : CtxId × Ctx) : Nat := (if p.2.hold = .yielded then 4 else 0) + (p.1.ctx + 4 - rr % 4) % 4

/-- The context that issues next at a cell: the holder of the slot keeps it; else the first that can issue (R33). -/
def State.nextIssuer (s : State) (k : CellId) (d : Cell) : Option CtxId :=
  let ready := s.issuers k
  match ready.find? fun p => d.holder == some p.1.ctx && p.2.hold != .yielded with
  | some p => some p.1
  | none => (leastBy (issueRank d.rr) ready).map Prod.fst

/-- A token or commit mark waits in the input switch of a clock-gated cell (R55). -/
def State.tokenWaits (s : State) (k : CellId) : Bool :=
  s.net.agenda.any fun f => decide (f.due ≤ s.clock.cycles) && s.edgeCells f.ev == some k

/-- What wakes a clock-gated cell: a token, a firing that may start, streams that have ended (R55). -/
def State.wakeDue (s : State) (k : CellId) : Bool :=
  s.tokenWaits k || (s.nextFiring k).isSome || (s.cellCtxs k).any fun p => s.streamsOver p.1

/-- What a cell does next (R33, R34, R55). -/
def State.cellMove (s : State) (k : CellId) (d : Cell) : List Move :=
  match s.nextIssuer k d with
  | some c => [.issue c]
  | none =>
    if s.firingDue k then [.event (.firingStart k)]
    else if d.gated && s.wakeDue k then [.event (.cellWake k)] else []

/-- Events of contexts: an OVERRUN, the end of a task's streams (R32, R215). -/
def State.ctxEvents (s : State) (c : CtxId) : List Event :=
  whenDue (s.overrunDue c) (.firingOverrun c) ++ whenDue (s.eosDue c) (.eosConsume c)

/-! ### The choice -/

/-- The host port over which an event from outside comes (R361). -/
def State.inputPort (s : State) (ev : Event) : Option Nat :=
  match ev with
  | .hostCxlRead l _ _ _ | .hostCxlWrite l _ _ | .hostAtomic l _ _ _ _ _ | .lqTailDoorbell l _ _ | .lqHeadWrite l _ _ | .lqCtlWrite l _ _
  | .fqHeadDoorbell l _ | .fqCtlWrite l _ | .fqResumeWrite l _ | .fqInvcntWrite l _ | .cntWrite l _ _ | .cntselWrite l _ _
  | .registerWrite (.vf l) _ _ => some (s.lease l).port
  | .leaseSchedWrite _ _ | .leasePtWrite _ _ | .devPwrWrite _ | .registerWrite .pf _ _ => some Config.pfPort
  | _ => none

/-- A write of the fault service of a lease, which an access held on an absent page waits for (R363, R389). -/
def serviceWrite (ev : Event) : Bool :=
  match ev with
  | .fqResumeWrite _ _ | .fqHeadDoorbell _ _ | .fqCtlWrite _ _ => true
  | .registerWrite (.vf _) off _ => (decide (0x200 ≤ off) && decide (off < 0x300)) || off == 0x1040
  | _ => false

/-- A write of the host's memory window, or an atomic there (R363). -/
def windowWrite (ev : Event) : Bool :=
  match ev with
  | .hostCxlWrite _ _ _ | .hostAtomic _ _ _ _ _ _ => true
  | _ => false

/-- The host ports a write of which is held on an absent page: what such a port writes later waits for it (R306, R362, R363). -/
def State.heldPorts (s : State) : List Nat :=
  let held := (s.net.agenda.map Flight.ev) ++ s.leases.flatMap fun p => p.2.svcs.flatMap PageSvc.waiters
  (held.filter windowWrite).filterMap s.inputPort

/-- A read of the host's memory window, which no write holds back. -/
def windowRead (ev : Event) : Bool :=
  match ev with
  | .hostCxlRead _ _ _ _ => true
  | _ => false

/-- The first event from outside that can come: writes of one host port stay in order, and what the Hearth takes up waits in the adapter
for its queue (R306, R362, R398, R399). A write of the fault service passes a write that is itself held on a page, and no other: `held`
are the ports of such writes, `blocked` those of which an earlier write still waits in the adapter. -/
def State.inputFrom (s : State) (held blocked : List Nat) : List Event → List Event
  | [] => []
  | e :: es =>
    let port := s.inputPort e
    if !e.outside then s.inputFrom held blocked es
    else if windowRead e then [e]
    else if port.any blocked.contains || (!serviceWrite e && port.any held.contains) || s.hearthWaits s.net.agenda e then
      s.inputFrom held (port.toList ++ blocked) es
    else [e]

/-- The next event from outside. -/
def State.nextInput (s : State) : List Event := s.inputFrom s.heldPorts [] s.net.inputs

/-- A C.FREE names a live child: its slot. -/
def State.freedBy (s : State) (w : CWord) : Option Nat := if cmdOp w = 0x22 then s.live? (cmdA w).toNat else none

/-- A C.BIND at the head of its node's queue. -/
def State.bindsNext (s : State) (p : Port) : Bool := (s.nextCmd p).any fun c => cmdOp c.word == 0x08

/-- A rectangle's children, and theirs in turn (R49). -/
def State.offspring (s : State) (slot : Nat) : Nat → List Nat
  | 0 => []
  | n + 1 =>
    ((s.rect? slot).elim [] Rect.children).flatMap fun k =>
      match s.live? k.handle with
      | some c => c :: s.offspring c n
      | none => []

/-- The directors that a free of a rectangle reaches: its own and those of all that descend from it (R45, R49). -/
def State.freeRanks (s : State) (slot : Nat) : List (Nat × Nat) := (slot :: s.offspring slot 8).map fun n => (n, 5)

/-- The directors that an event reaches, each with its place in the order of R21: fault, kill, completion, cut, start, free. -/
def State.directorRanks (s : State) (ev : Event) : List (Nat × Nat) :=
  match ev with
  | .faultEvent slot _ => [(slot, 0)]
  | .rectOverrun slot => [(slot, 1)]
  | .firingOverrun c => if (s.rect? c.slot).any fun r => r.item.demotePolicy then [] else [(c.slot, 1)]
  | .rectSinksDone slot => [(slot, 2)]
  | .completionSignalWrite slot => (slot, 2) :: if (s.rect? slot).any Rect.retain then [] else (s.offspring slot 8).map fun n => (n, 5)
  | .cutRequest slot _ => [(slot, 3)]
  | .armCheck slot => [(slot, 4)]
  | .engineCommandStart (.memn slot i) => if s.bindsNext (.memn slot i) then [(slot, 4)] else []
  | .launchRecordRead _ _ bs => ((s.live? (recTarget bs)).map fun n => (n, 4)).toList
  | .command _ w => (s.freedBy w).elim [] s.freeRanks
  | .leaseFree lease => (s.argRect lease).elim [] fun p => s.freeRanks p.1
  | .leaseDestroy lease => if (s.lease lease).state = .live then (s.rectsOf lease).map fun p => (p.1, 5) else []
  | _ => []

/-- Of the events that reach one director in the same cycle, those that come first in its order (R21). -/
def State.inOrder (s : State) (evs : List Event) : List Event :=
  let ranks := evs.flatMap s.directorRanks
  evs.filter fun e => (s.directorRanks e).all fun k => !ranks.any fun j => j.1 == k.1 && decide (j.2 < k.2)

/-- Every event that can happen next. -/
def State.events (s : State) : List Event :=
  s.inOrder <|
  s.nextInput ++ s.arrivals ++ s.combining ++ s.evictions ++ s.promotions ++ s.resends ++ s.engineWork ++
    (s.leases.flatMap fun p => s.slateWork p.1) ++
    (s.rects.flatMap fun p => s.directorWork p.1) ++ s.wyellMove ++ s.hubWork ++
    s.ctxs.flatMap fun p => s.ctxEvents p.1

/-- Every move that can be made next. -/
def State.moves (s : State) : List Move := s.events.map Move.event ++ s.cells.flatMap fun p => s.cellMove p.1 p.2

/-- One of several moves: nothing says which. -/
def pickMove (tick : Nat) (ms : List Move) : Option Move :=
  match ms with
  | [] => none
  | [m] => some m
  | _ => ms[Config.schedule tick % ms.length]?

/-- The first flight that carries an event is taken out. -/
def takeFlight (ev : Event) : List Flight → List Flight
  | [] => []
  | f :: fs => if f.ev = ev then fs else f :: takeFlight ev fs

/-- The lease for which a move is made, if it is one's: what accesses and packets carry its tag (R416). -/
def State.moveLease (s : State) (m : Move) : Option Nat :=
  match m with
  | .issue c => (s.ctx? c).map Ctx.lease
  | .event ev =>
    match (ev.slot?.bind s.rect?) with
    | some r => some r.lease
    | none =>
      match ev with
      | .homeReadWrite r => some r.lease
      | .homeAtomic r => some r.lease
      | .homeDequeOp r => some r.lease
      | .homeAcquireRequest r | .homeRelease r => some r.lease
      | .homeWaitaRequest r | .waitaHostPoll r => some r.lease
      | .rowHalfKstep row | .tileTaskEnd row | .tileTaskOverrun row => some (s.row row).lease
      | .hostCxlRead l _ _ _ | .hostCxlWrite l _ _ | .hostAtomic l _ _ _ _ _ => some l
      | e => hearthLock e

/-- The accesses and packets of a move carry the tag of its lease (rows 3, 6 and 7 of R416). -/
def State.noteMove (s : State) (m : Move) : State :=
  match s.moveLease m with
  | some l => if l = 0 ∨ 255 < l then s else s.setMeter l ((s.meter l).note [3, 6, 7])
  | none => s

/-- A move is granted: its flight or input is taken up. -/
def State.grantMove (s0 : State) (m : Move) : State :=
  let s := s0.noteMove m
  let n := { s.net with turn := some m }
  let n1 := match m with
    | .issue _ => n
    | .event ev =>
      match n.agenda.find? fun f => f.ev == ev with
      | some f => { n with agenda := takeFlight ev n.agenda, cls := f.cls }
      | none => { n with inputs := n.inputs.erase ev, cls := 2 }
  { s with net := n1 }.bump

/-! ### Time (R9, R32, R312, R340, R345) -/

/-- Cycles charged to a lease in an engine class: cell 0, row 1, strm 2 (R340, R348). -/
def State.charge (s : State) (lease k n : Nat) : State := s.modLease lease fun l => { l with charge := l.charge.modify k (· + n) }

/-- A rectangle in ARMED, RUNNING or DRAINING (R340). -/
def Rect.charged (r : Rect) : Bool := r.state == .armed || r.state == .running || r.state == .draining

/-- The cells' cycles of a rectangle (R340, R345, R420). -/
def State.ageRect (s : State) (n slot : Nat) : State :=
  match s.rect? slot with
  | none => s
  | some r =>
    if !r.charged then s
    else
      let k := n * (r.image.w * r.image.h)
      let count := if r.state = .running then r.count + n else r.count
      ((s.setRect slot { r with count := count, overdue := r.overdue || s.fallsDue slot r count,
                                item := { r.item with chargedCell := r.item.chargedCell + k } }).charge r.lease 0 k).count r.lease
        0x000 (s.handleOf slot) k

/-- The cycles of a row half (R312, R340, R420), whatever the state of its rectangle: none while it waits for a page. An entry that keeps
the state of a row half beside its rectangle's reel is no row half. -/
def State.ageRow (s : State) (n row : Nat) : State :=
  let r := s.row row
  if 256 ≤ row || s.waitsForPage (.rowHalfKstep row) then s
  else
    match r.bound, r.task with
    | some (slot, _), _ =>
      match s.rect? slot with
      | some q =>
        if r.queue.any Cmd.started then
          ((s.setRect slot { q with item := { q.item with chargedRow := q.item.chargedRow + n } }).charge q.lease 1 n).count q.lease
            0x010 (s.handleOf slot) n
        else s
      | none => s
    | none, some tid =>
      ((s.modTask r.lease tid fun k => { k with charged := k.charged + n }).charge r.lease 1 n).count r.lease 0x010 0 n
    | none, none => s

/-- The cycles in which a streamer moves chunks: how many of those that pass is not given (R340, R420). -/
def State.ageStrm (s : State) (n slot i : Nat) : State :=
  match s.strm? slot i, s.rect? slot with
  | some k, some q =>
    if s.portWorks (.strm slot i) && k.queue.any fun c => c.started && decide (c.sent.length < chunks c.bytes) then
      let m := min n (Config.moving s.tick)
      (((s.setRect slot { q with item := { q.item with chargedStrm := q.item.chargedStrm + m } }).charge q.lease 2 m).count q.lease
        0x018 (s.handleOf slot) m).bump
    else s
  | _, _ => s

/-- A firing's cycles count but for those in which another context of its cell holds the issue slot (R32). -/
def State.ageCtx (s : State) (n : Nat) (c : CtxId) : State :=
  match s.ctx? c with
  | none => s
  | some x =>
    let held := ((s.cell? c.cell).bind Cell.holder).any fun h => h != c.ctx
    if x.firing && s.live c x && !held then s.setCtx c { x with fireCnt := x.fireCnt + n } else s

/-- The rows of R416 in which a lease's own units are active while time passes: cells and the routing inside of rectangles that stand on the
fabric, row halves with a task or a command, streamers and memory nodes. -/
def State.activeRows (s : State) (lease : Nat) : List Nat :=
  let rs := (s.rectsOf lease).filter fun p => p.2.state != .saved
  (if rs.isEmpty then [] else [0, 5]) ++
    (if (s.rowsOf lease).any fun n => (s.row n).task.isSome || (s.row n).queue.any Cmd.started then [1] else []) ++
    if rs.any fun p => !(s.nodesOf p.1).isEmpty || s.strms.any fun q => q.1.1 == p.1 then [2] else []

/-- Time passes for a lease's meter: its leased area for its static power, and what its units are active in (R416). -/
def State.ageMeter (s : State) (n lease : Nat) : State :=
  let m := s.meter lease
  s.setMeter lease (({ m with area := m.area + n * s.leasedArea lease } : Meter).note (if n = 0 then [] else s.activeRows lease))

/-- Cycles pass (R8, R9). What waited for a scratchpad port in the cycle that ends may try again (R72). -/
def State.passTime (s : State) (n : Nat) : State :=
  let held := n != 0 && s.cells.any fun p => p.2.port.1 == s.clock.cycles && p.2.port.2 != 0
  let t := s.rects.foldl (fun u p => u.ageRect n p.1) s
  let t := s.rows.foldl (fun u p => u.ageRow n p.1) t
  let t := s.strms.foldl (fun u p => u.ageStrm n p.1.1 p.1.2) t
  let t := s.ctxs.foldl (fun u p => u.ageCtx n p.1) t
  let t := (s.metered.filter fun k => k != 0).foldl (fun u k => u.ageMeter n k) t
  { t with clock := { t.clock with cycles := t.clock.cycles + n, stamp := if held then t.clock.stamp + 1 else t.clock.stamp } }

/-- The time of a step: any number of cycles, none among them. -/
def State.someTime (s : State) : State := (s.passTime (Config.extraCycles s.tick)).bump

/-! ### Upkeep -/

/-- When a context became runnable (R34). -/
def State.noteRunnable (s : State) (c : CtxId) (x : Ctx) : Ctx :=
  if s.runnable c x then { x with runnableSince := some (x.runnableSince.getD s.clock.cycles) } else { x with runnableSince := none }

/-- When each context became runnable. -/
def State.noteAll (s : State) : State := { s with ctxs := s.ctxs.map fun p => (p.1, s.noteRunnable p.1 p.2) }

/-- The issuing context has been left waiting at issue, with nothing changed. -/
def State.onlyWaits (s : State) (m : Move) : Bool :=
  match m with
  | .issue c => (s.ctx? c).any fun x => x.hold == .blocked s.clock.stamp
  | .event _ => false

/-- What the hub could not write to storage of a carve-out not yet available is written once it is (R260, R373, R386). -/
def State.afterCarve (s : State) (m : Move) : State :=
  match m with
  | .event (.carveRepartition lease) => (s.flushAll lease).serveQueue lease
  | .event _ | .issue _ => s

/-- The Hearth's work of the upkeep whose turn has come, in the order of its queue (R399). -/
def State.runJobs (s : State) : State :=
  (s.net.agenda.foldl (fun (p : State × List Flight) f =>
    if hearthJob f.ev && !p.1.hearthWaits p.2 f.ev then
      ({ p.1 with net := { p.1.net with agenda := takeFlight f.ev p.1.net.agenda } }.doJob f.ev, p.2)
    else (p.1, p.2 ++ [f])) (s, [])).1

/-- After a move: contexts that wait at issue may try again unless nothing has changed. -/
def State.afterMove (s : State) (m : Move) : State :=
  let t := if s.onlyWaits m then s else { s with clock := { s.clock with stamp := s.clock.stamp + 1 } }
  let u := t.afterCarve m
  (u.rects.foldl (fun u p => u.report3 p.1) u).noteAll.enterHearth.runJobs.someTime

/-- An idle cell of a RUNNING rectangle may be clock-gated (R55). -/
def State.gate (s : State) (k : CellId) (d : Cell) : Cell :=
  let idle := (s.rect? k.slot).any (fun r => r.state == .running && r.collector.isNone) && 
    !(s.cellCtxs k).any (fun p => p.2.firing) && !s.wakeDue k
  if idle && Config.gate s.tick k.col k.row then { d with gated := true } else d

/-- Idle cells that are gated now. -/
def State.gateAll (s : State) : State := { s with cells := s.cells.map fun p => (p.1, s.gate p.1 p.2) }

/-- Nothing can happen but that time passes, at least one cycle, and idle cells are gated. -/
def State.idleTime (s : State) : State :=
  (s.gateAll.passTime (1 + Config.extraCycles s.tick)).bump.enterHearth.runJobs

/-- The outcome of a move followed by the upkeep. -/
def afterMove (m : Move) : Host.Outcome State Fault Refusal → Host.Outcome State Fault Refusal
  | .next t => .next (t.afterMove m)
  | .fault r => .fault r
  | .refused r => .refused r

/-- No move is granted: one is chosen, or time passes. -/
def State.choose (s : State) : State :=
  match pickMove s.tick s.moves with
  | some m => s.grantMove m
  | none => s.idleTime

end Sys2Proof.Machine
end

