-- ==== Sys2Proof/Machine/Step.lean ====
section
/-! DEFINITION. One step: a granted move is made, or one is granted, or time passes. -/

namespace Sys2Proof.Machine

/-- One step. A move that has been granted is made: a context has its turn, or an event reaches its unit. Otherwise one of the
moves that can be made is granted, or, where there is none, time passes. -/
def step (s : State) : Host.Outcome State Fault Refusal :=
  match s.net.turn with
  | some m => afterMove m (State.make { s with net := { s.net with turn := none } } m)
  | none => .next s.choose

/-- The state with an instruction placed where the next step runs it: a task word in the code window of a one-cell rectangle of
lease 1, a stream command on its way to its port. -/
def State.withFetchWord (s : State) (nbits w : Nat) : State :=
  if nbits ≤ 32 then s.withTaskWord (BitVec.ofNat 32 w) else s.withCommandWord (BitVec.ofNat 128 w)

end Sys2Proof.Machine
end

