-- ==== Sys2Proof/Safety.lean ====
section
/-! DEFINITION. What counts as a safe run, and the facts about a state that claims use as an invariant. -/

namespace Sys2Proof.Machine

/-- A run of `n` steps that neither faults nor is refused. -/
def State.runs (s : State) (n : Nat) : Prop := ∃ t, Sys2Proof.core.run n s = .next t

/-- A safe state: a run of any length from it goes on. -/
def State.safe (s : State) : Prop := ∀ n, s.runs n

/-- Storage and every scratchpad are in canonical form. -/
def State.canonical (s : State) : Prop := Mem.wf s.mem = true ∧ ∀ p ∈ s.cells, Mem.wf p.2.pad = true

end Sys2Proof.Machine
end

