-- ==== Sys2Proof/WellFormed.lean ====
section
/-! DEFINITION. Well-formed steps: a task instruction whose fields pass every check of R108, and a stream command that stands under the
CMDOP of its own word and names a context that can exist. -/

namespace Sys2Proof

/-- The stream command that a step is: the CMDOP of R113, the issuing context and the issued word; `none` for a task instruction
or a device event. -/
def Instr.command? : Instr → Option (Nat × CtxId × CWord)
  | .cCopy src w => some (0x01, src, w)
  | .cCopyr src w => some (0x02, src, w)
  | .cGath src w => some (0x03, src, w)
  | .cScat src w => some (0x04, src, w)
  | .cFill src w => some (0x05, src, w)
  | .cConv src w => some (0x06, src, w)
  | .cBind src w => some (0x08, src, w)
  | .cUnbind src w => some (0x09, src, w)
  | .cStream src w => some (0x0A, src, w)
  | .cTtask src w => some (0x10, src, w)
  | .cMma src w => some (0x11, src, w)
  | .cAccsv src w => some (0x12, src, w)
  | .cAccld src w => some (0x13, src, w)
  | .cPref src w => some (0x18, src, w)
  | .cFlush src w => some (0x19, src, w)
  | .cLaunch src w => some (0x20, src, w)
  | .cJoin src w => some (0x21, src, w)
  | .cFree src w => some (0x22, src, w)
  | .add _ | .sub _ | .and _ | .or _ | .xor _ | .andn _ => none
  | .shl _ | .shr _ | .sha _ | .rot _ | .min _ | .max _ => none
  | .minz _ | .maxz _ | .sel _ | .mul _ | .mulh _ | .mulhz _ => none
  | .div _ | .divz _ | .rem _ | .remz _ | .mads _ | .clz _ => none
  | .ctz _ | .pop _ | .brev _ | .bswap _ | .ext _ | .ins _ => none
  | .cmpEq _ | .cmpNe _ | .cmpLt _ | .cmpGe _ | .cmpLtz _ | .cmpGez _ => none
  | .lea _ _ | .agen2 _ _ | .bound _ | .addImm _ | .andImm _ | .orImm _ => none
  | .xorImm _ | .shlImm _ | .shrImm _ | .shaImm _ | .rotImm _ | .mulImm _ => none
  | .minImm _ | .maxImm _ | .cmpEqImm _ | .cmpNeImm _ | .cmpLtImm _ | .cmpGeImm _ => none
  | .cmpLtzImm _ | .cmpGezImm _ | .extImm _ | .insImm _ | .lui _ _ | .bccEq _ => none
  | .bccNe _ | .bccLt _ | .bccGe _ | .bccLtz _ | .bccGez _ | .j _ => none
  | .jal _ | .jalr _ | .loop _ | .loopx _ | .done | .yield => none
  | .movq _ | .marke _ | .markf _ | .testf _ | .waitf _ | .waitm _ => none
  | .mfs _ _ _ | .mts _ _ _ | .fadd _ | .fsub _ | .fmul _ | .fma _ => none
  | .fdiv _ | .fsqrt _ | .fmin _ | .fmax _ | .fcmp _ | .fcvt _ => none
  | .fclass _ | .vadd _ | .vsub _ | .vmul _ | .vmulh _ | .vmad _ => none
  | .vand _ | .vor _ | .vxor _ | .vshl _ | .vshr _ | .vsha _ => none
  | .vmin _ | .vmax _ | .vabs _ | .vneg _ | .vcmp _ | .vsel _ => none
  | .vfadd _ | .vfsub _ | .vfmul _ | .vfma _ | .vfms _ | .vfnma _ => none
  | .vfdiv _ | .vfsqrt _ | .vfrcp _ | .vfrsq _ | .vfexp2 _ | .vflog2 _ => none
  | .vfmin _ | .vfmax _ | .vfcmp _ | .vfclass _ | .vcvt _ | .vquant _ => none
  | .vdeq _ | .vdot _ | .vbdot _ | .vredadd _ | .vredmax _ | .vredmin _ => none
  | .vscan _ | .vperm _ | .vshuf _ | .vrot _ | .vbcast _ | .vextr _ => none
  | .vins _ | .mand _ | .mor _ | .mxor _ | .mnot _ _ | .mpop _ _ => none
  | .mfirst _ _ | .vwidth _ _ | .ldB _ | .ldH _ | .ldW _ | .ldD _ => none
  | .stB _ | .stH _ | .stW _ | .stD _ | .ldv _ | .stv _ => none
  | .ldg _ | .stg _ | .ldf _ | .ldp _ | .ste _ | .stx _ => none
  | .xbar _ | .amo _ | .amoC _ | .stOp _ | .stOpC _ | .dqpush _ => none
  | .dqpop _ | .dqsteal _ | .chget _ | .chpeek _ | .chput _ | .chstat _ => none
  | .acq _ | .acqs _ | .rel _ | .fence _ _ _ | .waita _ | .bar _ => none
  | .scmd _ | .scmdw _ | .trap _ | .eret | .rply | .rplys => none
  | .sysc _ | .halt | .bkpt _ | .cntrd _ _ | .cntcfg _ _ _ | .carve _ => none
  | .idle | .engineCommandStart | .copyChunkLand | .engineCommandComplete | .engineCommandError | .nodeSourceDeliver => none
  | .nodeReadResponse | .nodeSinkWrite | .nodeRequestElement | .nodeStreamEnd | .carveRepartition | .firingStart => none
  | .firingOverrun | .channelTokenArrival | .commitMarkArrival | .creditArrival | .eosConsume | .cellWake => none
  | .borderTokenRefuse | .ctlStartPulse | .ctlDonePulse | .replyArrival | .ackArrival | .retryResend => none
  | .homeReadWrite | .homeAtomic | .homeDequeOp | .homeAcquireRequest | .homeRelease | .homeWaitaRequest => none
  | .waitaHostPoll | .scratchpadPortAccess | .presencePortRequest | .xbarArrival | .barArrival | .withdrawalArrival => none
  | .purgeArrival | .combineAtSwitch | .combineWaitExpiry | .combinedReplySplit | .urgentPacketEvict | .evictionResend => none
  | .packetPromotion | .shareWindowRoll | .pageWalkDone | .configWritten | .armCheck | .rectSinksDone => none
  | .completionSignalWrite | .rectOverrun | .cutRequest | .cutTokenArrival | .stopAckArrival | .reelWrite => none
  | .faultEvent | .freezeArrival | .drainLimitExpiry | .moveStart | .autoRestore | .slateIssueTask => none
  | .rowHalfKstep | .tileTaskEnd | .tileTaskOverrun | .slatePreempt | .hostCxlRead | .hostCxlWrite => none
  | .hostAtomic | .lqTailDoorbell | .lqHeadWrite | .lqCtlWrite | .launchRecordRead | .fqHeadDoorbell => none
  | .fqCtlWrite | .fqResumeWrite | .fqInvcntWrite | .invalidationDone | .cntWrite | .cntselWrite => none
  | .writeRegionEntry | .writeFormatWindow | .resumeContext | .attestReport | .keyCertificate | .cinderReading => none
  | .cinderReadingPf | .firmwareStage | .leaseCreate | .leaseDestroy | .grantRow | .revokeRow => none
  | .preempt | .restore | .leaseFree | .dump | .leaseSchedWrite | .leasePtWrite => none
  | .devPwrWrite | .registerWrite | .mctpStatusQuery | .coldPowerUp | .warmReset | .bringupStageComplete => none
  | .bringupStageTimeout | .cinderSample | .powerPacingTick | .junctionTrip | .coolantFlowLow | .softErrorDetected => none
  | .linkRetransmission => none

/-- A name of a context that can exist: one of 1,024 slots (R17), a cell of a rectangle of at most 128 by 64 cells (the shapes before R17), one of four contexts (R33). -/
def CtxId.wf (c : CtxId) : Bool := c.slot < 1024 && c.col < 128 && c.row < 64 && c.ctx < 4

/-- A command agrees with its word (R111, R113). -/
def Instr.wfCommand (i : Instr) : Bool :=
  match i.command? with
  | some (op, src, w) => (cmdOp w).toNat == op && src.wf
  | none => true

/-- A well-formed step (R108, R113). -/
def Instr.wf (i : Instr) : Bool := (defect i).isNone && i.wfCommand

end Sys2Proof
end

