-- ==== Sys2Proof/Effects.lean ====
section
/-! DEFINITION. The words in which claims say what an instruction does to its context: what lets it take effect, what a fixed-latency
result leaves in the registers, how an unfinished instruction departs, and that nothing else changes. -/

namespace Sys2Proof.Machine

/-! ### Before -/

/-- Context `x` is the one that issues, and nothing holds instruction `i` with destination `d` back before it reads its operands:
fewer than 16 instructions are unfinished (R86), the word passes the checks of R108, no producer of `d` is in flight, and no unfinished
instruction has still to read it (R66). -/
structure Presented (s : State) (x : Ctx) (i : Instr) (d : Dest) : Prop where
  here : s.ctx? s.cur = some x
  room : x.unfinished < 16
  legal : defect i = none
  calm : x.hazard d = false

/-- Instruction `i` answers a next state with property `P`. -/
def Completes (i : Instr) (s : State) (P : State → Prop) : Prop := ∃ t, exec i s = .next t ∧ P t

/-- An entry is being re-injected by RPLY, whose pushes go to the trap's snapshot (R257). -/
def Ctx.replaying (x : Ctx) : Bool := x.injecting.isSome && x.injectBy == .rply

/-! ### Registers after -/

/-- A scalar register is an operand register that the completion of its reader empties (R59). -/
def emptied (uses : List SReg) (r : SReg) : Bool := uses.contains r && decide (48 ≤ r.toNat) && decide (r.toNat < 60)

/-- A vector register is an operand register that the completion of its reader empties (R59). -/
def emptiedV (uses : List VReg) (r : VReg) : Bool := uses.contains r && decide (24 ≤ r.toNat) && decide (r.toNat < 30)

/-- `z` is `x` with its operand registers among `uses` empty and nothing else changed (R59, R62). -/
structure Used (x : Ctx) (uses : List SReg) (z : Ctx) : Prop where
  full : ∀ r, z.sFull r = (x.sFull r && !emptied uses r)
  rest : z = { x with sfe := z.sfe }

/-- `z` is `x` after a fixed-latency scalar result `w` for register `d`: `d` holds it and is full, s0 and the last-result file
take no such write, the result is pushed into l0, the operand registers among `uses` are empty, and no other register, mask,
flag or field changes (R57 to R59, R62, R127, R257). -/
structure WroteS (x : Ctx) (uses : List SReg) (d : SReg) (w : BitVec 64) (z : Ctx) : Prop where
  value : ∀ r : SReg, r.toNat < 60 → z.s r = if r = d ∧ d ≠ 0#6 then w else x.s r
  full : ∀ r, z.sFull r = ((x.sFull r && !emptied uses r) || r == d)
  push : x.replaying = false → z.s 60#6 = w ∧ z.s 61#6 = x.s 60#6 ∧ z.s 62#6 = x.s 61#6 ∧ z.s 63#6 = x.s 62#6 ∧ z.snapL = x.snapL
  pushReplay : x.replaying = true → z.snapL = (w :: x.snapL).take 4 ∧ ∀ r : SReg, 60 ≤ r.toNat → z.s r = x.s r
  rest : z = { x with sreg := z.sreg, sfe := z.sfe, snapL := z.snapL }

/-- `z` is `x` after a fixed-latency vector result `ls` for register `d` (R57 to R59, R62, R168). -/
structure WroteV (x : Ctx) (uses : List VReg) (d : VReg) (ls : List Lane) (z : Ctx) : Prop where
  value : ∀ r : VReg, r.toNat < 30 → z.v r = if r = d then ls else x.v r
  full : ∀ r, z.vFull r = ((x.vFull r && !emptiedV uses r) || r == d)
  push : x.replaying = false → z.v 30#5 = ls ∧ z.v 31#5 = x.v 30#5 ∧ z.snapV = x.snapV
  pushReplay : x.replaying = true → z.snapV = (ls :: x.snapV).take 2 ∧ ∀ r : VReg, 30 ≤ r.toNat → z.v r = x.v r
  rest : z = { x with vreg := z.vreg, vfe := z.vfe, snapV := z.snapV }

/-! ### The machine after -/

/-- `t` is `s` after the instruction of the context at hand completed with the context's fields as in `z`, fetch going on after it or
at `goto`: one INSTR event counts for its lease (R420), and no other part of the machine changes, memory and every scratchpad
included. -/
def Completed (s : State) (z : Ctx) (goto : Option PC) (t : State) : Prop :=
  t = { s with ctxs := Tab.put s.ctxs s.cur (z.advance goto), leases := (s.count z.lease 0x001 z.handle 1).leases }

/-- A fixed-latency scalar instruction completed with result `w` for `d`. -/
def ScalarDone (s : State) (x : Ctx) (uses : List SReg) (d : SReg) (w : BitVec 64) (t : State) : Prop :=
  ∃ z, WroteS x uses d w z ∧ Completed s z none t

/-- A fixed-latency vector instruction completed with result `ls` for `d`, the flags and the generator of the context as given. -/
def VectorDone (s : State) (x : Ctx) (uses : List VReg) (d : VReg) (ls : List Lane) (t : State) : Prop :=
  ∃ z, WroteV x uses d ls z ∧ Completed s z none t

/-! ### Instructions that reach outside their context -/

/-- The requests of an unfinished instruction of kind `k` can leave the cell: no older unacknowledged write of the context overlaps their
places (R199), no DQPOP or DQSTEAL is unanswered (R291), fewer than 16 atomic and deque requests (R207) or remote-cell reads (R353) are
unanswered, and the permits towards their slices are free (R353). -/
structure MayDepart (s : State) (x : Ctx) (k : Kind) (outs : List Out) : Prop where
  order : x.overlapsTag (outs.map Out.place) = false
  takes : x.takeLeft = false
  atomics : k.atomic = true → x.atomics < 16
  remote : k.remote = true → x.remoteReads < 16
  permits : s.permitsFree s.cur.cell (outs.map Out.slice) = true

/-- What the events on their way are, in the order in which they were sent. -/
def State.sent (s : State) : List Event := s.net.agenda.map Flight.ev

/-- Storage, every scratchpad and every other context are as they were. -/
structure Untouched (s t : State) : Prop where
  mem : t.mem = s.mem
  pads : ∀ c, (t.cell? c).map Cell.pad = (s.cell? c).map Cell.pad
  others : ∀ c, c ≠ s.cur → t.ctx? c = s.ctx? c

/-- Instruction `i` has departed: its destination is empty, it stands among the unfinished instructions with as many answers to come as
it has requests and, for an atomic or deque request, the sequence number that its answer carries back (R307), its requests are on their way in order, fetch goes on, and nothing else of the context or of memory has changed (R62,
R63, R86). -/
def Departed (s : State) (x : Ctx) (i : Instr) (d : Dest) (k : Kind) (outs : List Out) (t : State) : Prop :=
  Untouched s t ∧
  ∃ p : Pend, p.id = s.clock.nextId ∧ p.instr = i ∧ p.pc = x.at ∧ p.dest = d ∧ p.left = outs.length ∧ p.hold = k.hold ∧
    p.atomic = k.atomic ∧ p.remote = k.remote ∧ p.seq = (if k.atomic then some x.seq else none) ∧
    t.sent = s.sent ++ outs.map (fun o => (o.req (.ctxReply s.cur x.handle s.clock.nextId o.slice p.seq)).event) ∧
    t.ctx? s.cur = some (({ (x.await d).addPend p with seq := if k.atomic then x.seq + 1 else x.seq } : Ctx).advance none)

/-- The requests of a posted write can leave the cell: one of 64 write tags is free (R307), fewer than 16 atomic requests are unanswered
where it is one (R207), and the permits are free (R353). -/
structure MayPost (s : State) (x : Ctx) (seq : Option (BitVec 16)) (outs : List Out) : Prop where
  tags : x.tags.length < 64
  atomics : seq.isSome = true → x.atomics < 16
  permits : s.permitsFree s.cur.cell (outs.map Out.slice) = true

/-- A posted write has completed: its sources are consumed, its requests are on their way in order under one write tag that waits for as
many acknowledgements, fetch goes on, and nothing else of the context or of memory has changed (R196, R307). -/
def Posted (s : State) (x : Ctx) (uses : List SReg) (vuses : List VReg) (seq : Option (BitVec 16)) (outs : List Out) (t : State) : Prop :=
  Untouched s t ∧ ∃ w : WriteTag, (∀ v ∈ x.tags, v.tag ≠ w.tag) ∧ w.tag < 64 ∧ w.left = outs.length ∧ w.places = outs.map Out.place ∧
    w.seq = seq ∧
    t.sent = s.sent ++ outs.map (fun o => (o.req (.ctxAck s.cur x.handle w.tag o.slice seq)).event) ∧
    t.ctx? s.cur = some (({ (x.useAll uses).useVAll vuses with
      tags := if outs = [] then x.tags else x.tags ++ [w], seq := if seq.isSome then x.seq + 1 else x.seq } : Ctx).advance none)

end Sys2Proof.Machine
end

