-- ==== Sys2Proof/Certificates/Slice0/Obligations.lean ====
section
/-! DEFINITION. The statements for the provers, one for each part of the machine. -/

open Sys2Proof Sys2Proof.Machine

/-! ### Encoding, stepping and the state after reset -/

/-- Decoding takes the encoding of every task instruction back, with each operand at every value that its field holds; a word that decodes is
the encoding of what it decodes to, so that no bit of a word is dropped and no two words mean one instruction; a stream command's word decodes to the
command that its CMDOP names (R91 to R94, R106, R108, R111, R113). -/
def Obligations.DecodingAndEncodingAgree : Prop :=
  (∀ (i : Instr) (w : IWord), encode i = some w → decode w = .ok i) ∧
  (∀ (i : Instr) (w : IWord), decode w = .ok i → encode i = some w) ∧
  (∀ (i : Instr) (op : Nat) (src : CtxId) (w : CWord), i.command? = some (op, src, w) →
    (decodeCmd src w = some i ↔ (cmdOp w).toNat = op)) ∧
  ∀ (i : Instr) (src : CtxId) (w : CWord), decodeCmd src w = some i → i.command? = some ((cmdOp w).toNat, src, w)

/-- Words laid out field by field as the formats of R93 place them decode to the instruction whose opcode and function R96 to R98 give them. A free opcode and the
permanently illegal 0x00, a function that R96 leaves unallocated, a nonzero field marked "—" and a loop of no word are refused, each by the check whose SUB
R108 gives; and a four-byte sequence is read lowest byte first (R6, R91). -/
def Obligations.WordsOfTheSpecDecodeToTheirInstruction : Prop :=
  decode (0x01#8 ++ 5#6 ++ 6#6 ++ 48#6 ++ 1#1 ++ 0#1 ++ 0x0#4 : BitVec 32) = .ok (.add ⟨5, 6, 48, true, false⟩) ∧
  decode (0x01#8 ++ 5#6 ++ 6#6 ++ 48#6 ++ 0#1 ++ 1#1 ++ 0x1#4 : BitVec 32) = .ok (.sub ⟨5, 6, 48, false, true⟩) ∧
  decode (0x10#8 ++ 5#6 ++ 6#6 ++ 0#1 ++ 0x7FF#11 : BitVec 32) = .ok (.addImm ⟨5, 6, false, 0x7FF⟩) ∧
  decode (0x30#8 ++ 1#6 ++ 0x3FFFF#18 : BitVec 32) = .ok (.lui 1 0x3FFFF) ∧
  decode (0x40#8 ++ 3#6 ++ 4#6 ++ 0xFFF#12 : BitVec 32) = .ok (.bccEq ⟨3, 4, 0xFFF⟩) ∧
  decode 0xFF000000#32 = .error .opcode ∧ decode 0x00000000#32 = .error .opcode ∧
  decode (0x01#8 ++ 5#6 ++ 6#6 ++ 48#6 ++ 0#1 ++ 0#1 ++ 0xF#4 : BitVec 32) = .error .code ∧
  decode (0x05#8 ++ 5#6 ++ 6#6 ++ 48#6 ++ 0#1 ++ 0#1 ++ 0x9#4 : BitVec 32) = .error .code ∧
  decode (0x4D#8 ++ 5#6 ++ 6#6 ++ 1#6 ++ 0#1 ++ 0#1 ++ 0x0#4 : BitVec 32) = .error .reserved ∧
  decode (0x49#8 ++ 0#6 ++ 6#6 ++ 0#1 ++ 0#11 : BitVec 32) = .error .operand ∧
  Illegal.opcode.sub = 0x00 ∧ Illegal.code.sub = 0x02 ∧ Illegal.reserved.sub = 0x03 ∧ Illegal.operand.sub = 0x04 ∧
  decodeBytes [0x80#8, 0x6C#8, 0x14#8, 0x01#8] = some (.ok (.add ⟨5, 6, 50, false, false⟩), [])

/-- A step at which context `c` has its turn and no queue entry to re-inject runs the instruction that the word at its PC decodes to, at the state in which the
context holds its cell's issue slot, or, where it is left waiting there, at the state in which the slot stays where it was; a word that does not decode raises ILLEGAL with
the SUB of R108, and a fetch outside the code window ILLEGAL with SUB 0x01, no queue entry of its own and the faulting address in TRAPPC. A step at which an event reaches its
unit makes the step of the event's row. Either is followed by the upkeep alone, in which time passes, cut tokens, stop acknowledgements and done pulses leave as class 3
packets, and the Hearth's work that is due joins its queue: but for what the hub writes as a carve-out's storage comes and for the records and answers that wait in the
Hearth's queue, memory, scratchpads, channels, the homes and every other packet stay as they are (R25, R33, R91, R94, R108, R115). Where the spec leaves it open this is the model's choice: log entries 2, 4. -/
def Obligations.AStepRunsTheDecodedInstruction : Prop :=
  ∀ s : State, let at' : State := { s with net := { s.net with turn := none } }
    (∀ (c : CtxId) (x : Ctx) (w : IWord), s.net.turn = some (.issue c) → s.ctx? c = some x → x.inject = [] → x.window[x.pc.toNat]? = some w →
      (∀ i, decode w = .ok i →
        (∀ t, exec i (at'.takeSlot c) = .next t → t.leftWaiting c = false → step s = .next (t.afterMove (.issue c))) ∧
        (∀ t, exec i (at'.takeSlot c) = .next t → t.leftWaiting c = true → step s = afterMove (.issue c) (exec i { at' with cur := c })) ∧
        ∀ f, exec i (at'.takeSlot c) = .fault f → step s = .fault f) ∧
      (∀ e, decode w = .error e → x.pend.length < 16 →
        step s = afterMove (.issue c) (.next ((at'.takeSlot c).raiseWith x .done w ⟨0x01, e.sub, 0, 0⟩ 3 false)))) ∧
    (∀ (c : CtxId) (x : Ctx), s.net.turn = some (.issue c) → s.ctx? c = some x → x.inject = [] → x.window.length ≤ x.pc.toNat →
      step s = afterMove (.issue c)
        (.next ((at'.takeSlot c).enterTrap c x ⟨0x01, 0x01, 0, 0⟩ (x.pend.map Pend.entry) x.pc false))) ∧
    (∀ (ev : Event) (i : Instr), s.net.turn = some (.event ev) → ev.instr = some i →
      step s = afterMove (.event ev) (settled (exec i { at' with net := { at'.net with hand := some ev } }))) ∧
    (∀ c : CtxId, (at'.takeSlot c).cur = c ∧ (at'.takeSlot c).mem = s.mem ∧ (at'.takeSlot c).ctx? c = s.ctx? c ∧
      (at'.takeSlot c).net = at'.net) ∧
    ∀ (m : Move) (t : State), (∀ l, m ≠ .event (.carveRepartition l)) → (∀ f ∈ t.net.agenda, hearthJob f.ev = false) →
      let u := t.afterMove m; let others := fun (y : State) => y.net.agenda.filter fun f => !sourced f.ev
      afterMove m (.next t) = .next u ∧ u.mem = t.mem ∧ u.homes = t.homes ∧ u.edges = t.edges ∧ u.cells = t.cells ∧
      t.clock.cycles ≤ u.clock.cycles ∧ u.net = { t.net with agenda := u.net.agenda } ∧
      (∃ fs : List Flight, others u = others t ++ fs) ∧ ∀ f ∈ u.net.agenda, f ∉ t.net.agenda → f.cls = 3

/-- Every step keeps storage and every scratchpad in canonical form: addresses strictly rising, and no entry equal to what an unlisted address reads as. Where the spec leaves it open this is the model's choice: log entry 5. -/
def Obligations.EveryStepKeepsMemoryCanonical : Prop :=
  ∀ s t : State, s.canonical → step s = .next t → t.canonical

/-- The state after reset has its memory and scratchpads in canonical form. Where the spec leaves it open this is the model's choice: log entry 5. -/
def Obligations.ResetIsCanonical : Prop := State.reset.canonical

/-- After reset DTIME is 0, DEV_STATUS reads 0, DEV_PWR.CAP is 3,400 and DEV_ERR is 0; no slot holds a rectangle, no context exists, and each lease is NONE, with no share, no queue
enabled and its counters off. A context that a load writes holds zero in every main and last-result register, which are full, zero in every operand register, which
are empty, and ones in every mask over its lanes; FSTAT, both loops and the trap registers are 0 (R9, R61, R80, R368, R371, R376, R386, R402, R411, R419, R423). -/
def Obligations.ResetLeavesTheStatedValues : Prop :=
  (State.reset.dtime = 0 ∧ State.reset.dev.status = 0 ∧ State.reset.dev.cap = 3400 ∧ State.reset.dev.ce = 0 ∧ State.reset.dev.ue = 0 ∧
    (∀ n, State.reset.rect? n = none) ∧ (∀ c, State.reset.ctx? c = none) ∧
    ∀ l, (State.reset.lease l).state = .none ∧ (State.reset.lease l).sched = 0 ∧ (State.reset.lease l).vfCtl = 0 ∧
      (∀ n, ((State.reset.lease l).queue n).en = false ∧ ((State.reset.lease l).queue n).head = 0 ∧ ((State.reset.lease l).queue n).state = 0) ∧
      (State.reset.lease l).fq.en = false ∧ (State.reset.lease l).fq.head = 0 ∧ (State.reset.lease l).fq.tail = 0 ∧
      ∀ k ∈ (State.reset.lease l).counters.toList, k.value = 0 ∧ k.cfg = 0) ∧
  ∀ (k : TaskE) (handle lease : Nat) (repro : Bool), let x := k.context handle lease repro
    (∀ r : SReg, x.s r = 0 ∧ x.sFull r = !(decide (48 ≤ r.toNat) && decide (r.toNat < 60))) ∧
    (∀ r : VReg, x.v r = List.replicate x.width (.plain 0) ∧ x.vFull r = !(decide (24 ≤ r.toNat) && decide (r.toNat < 30))) ∧
    (∀ (m : BitVec 3) (l : Nat), (x.m m).getLsbD l = (decide (l < 128) && decide (l < x.width))) ∧
    x.fstat = 0 ∧ x.loop0 = ⟨0, 0, 0⟩ ∧ x.loop1 = ⟨0, 0, 0⟩ ∧ x.trapEn = false ∧ x.trapBase = 0 ∧ x.act = false ∧ x.cause = 0 ∧ x.sub = 0 ∧
    x.trapPc = 0 ∧ x.trapAddr = 0 ∧ x.rq = [] ∧ x.rqsel = 0 ∧ x.fireCnt = 0

/-! ### Scalar integer and address instructions -/

/-- Register forms of opcodes 0x01, 0x02, 0x04 and 0x05 that cannot trap once their sources are read, with their results
(R134, R135, R137, R138). -/
def scalarForms : List ((OpR3 → Instr) × (BitVec 64 → BitVec 64 → BitVec 64)) :=
  [(.add, fun a b => a + b), (.sub, fun a b => a - b), (.and, fun a b => a &&& b), (.or, fun a b => a ||| b),
   (.xor, fun a b => a ^^^ b), (.andn, fun a b => a &&& ~~~b), (.shl, fun a b => a <<< (b.toNat % 64)),
   (.shr, fun a b => a >>> (b.toNat % 64)), (.sha, fun a b => a.sshiftRight (b.toNat % 64)),
   (.rot, fun a b => a.rotateRight (b.toNat % 64)), (.min, fun a b => if a.sle b then a else b),
   (.max, fun a b => if b.sle a then a else b), (.minz, fun a b => if a ≤ b then a else b),
   (.maxz, fun a b => if b ≤ a then a else b), (.mul, fun a b => a * b),
   (.mulh, fun a b => BitVec.ofInt 64 (a.toInt * b.toInt / 2 ^ 64)),
   (.mulhz, fun a b => BitVec.ofNat 64 (a.toNat * b.toNat / 2 ^ 64)),
   (.cmpEq, fun a b => if a = b then 1 else 0), (.cmpNe, fun a b => if a = b then 0 else 1),
   (.cmpLt, fun a b => if a.slt b then 1 else 0), (.cmpGe, fun a b => if a.slt b then 0 else 1),
   (.cmpLtz, fun a b => if a < b then 1 else 0), (.cmpGez, fun a b => if a < b then 0 else 1)]

/-- Division rounds toward zero, the remainder has the sign of the dividend, −2^63 by −1 gives −2^63 and 0, and a zero divisor raises
DIVZERO, cause 0x08 and SUB 0x00, with no write (R135). -/
def Obligations.DivisionWritesOrTrapsOnZero : Prop :=
  ∀ (s : State) (x : Ctx) (o : OpR3) (a b : BitVec 64), x.readA o.ea o.a = .ok a → x.readB o.eb o.b = .ok b →
    ∀ p ∈ ([(.div, fun a b => if a = 0x8000000000000000#64 ∧ b = -1#64 then 0x8000000000000000#64
              else BitVec.ofInt 64 (a.toInt.tdiv b.toInt)),
            (.divz, fun a b => a / b), (.rem, fun a b => BitVec.ofInt 64 (a.toInt - a.toInt.tdiv b.toInt * b.toInt)),
            (.remz, fun a b => a % b)] : List ((OpR3 → Instr) × (BitVec 64 → BitVec 64 → BitVec 64))),
      Presented s x (p.1 o) (.sreg o.d) →
        (b ≠ 0 → Completes (p.1 o) s fun t => ScalarDone s x [o.a, o.b] o.d (p.2 a b) t) ∧
        (b = 0 → exec (p.1 o) s = .next (s.raise x (p.1 o) ⟨0x08, 0x00, 0, 0⟩))

/-- A signed 64-bit value: an integer clamped to the range (R135). -/
def clamp64 (i : Int) : BitVec 64 := BitVec.ofInt 64 (max (-(2 ^ 63)) (min (2 ^ 63 - 1) i))

/-- MADS adds the exact product to the old destination and saturates once; INS replaces a field of the old destination, which must be
full; EXT takes a field. A field that leaves the register raises ILLEGAL with SUB 0x05 (R135, R136). -/
def Obligations.MadsAndBitFieldFormsWriteTheirResult : Prop :=
  ∀ (s : State) (x : Ctx) (o : OpR3) (a b : BitVec 64), x.readA o.ea o.a = .ok a → x.readB o.eb o.b = .ok b →
    (x.sFull o.d = true → Presented s x (.mads o) (.sreg o.d) →
      Completes (.mads o) s fun t =>
        ScalarDone s x [o.a, o.b] o.d (clamp64 ((x.s o.d).toInt + a.toInt * b.toInt)) t) ∧
    (Presented s x (.ext o) (.sreg o.d) →
      (b.toNat % 64 + (b.toNat / 256 % 64 + 1) ≤ 64 → Completes (.ext o) s fun t => ∃ w : BitVec 64,
        ScalarDone s x [o.a, o.b] o.d w t ∧
          ∀ i, w.getLsbD i = (decide (i < b.toNat / 256 % 64 + 1) && a.getLsbD (b.toNat % 64 + i))) ∧
      (64 < b.toNat % 64 + (b.toNat / 256 % 64 + 1) → exec (.ext o) s = .next (s.raise x (.ext o) ⟨0x01, 0x05, 0, 0⟩))) ∧
    (x.sFull o.d = true → Presented s x (.ins o) (.sreg o.d) →
      (b.toNat % 64 + (b.toNat / 256 % 64 + 1) ≤ 64 → Completes (.ins o) s fun t => ∃ w : BitVec 64,
        ScalarDone s x [o.a, o.b] o.d w t ∧
          ∀ i, w.getLsbD i = if b.toNat % 64 ≤ i ∧ i < b.toNat % 64 + (b.toNat / 256 % 64 + 1) then a.getLsbD (i - b.toNat % 64)
            else (x.s o.d).getLsbD i) ∧
      (64 < b.toNat % 64 + (b.toNat / 256 % 64 + 1) → exec (.ins o) s = .next (s.raise x (.ins o) ⟨0x01, 0x05, 0, 0⟩)))

/-- The register forms of opcode 0x01 write their result, and nothing else changes; so do the other forms that cannot trap once their sources are read, LEA and AGEN2; BOUND passes an address below its bound and raises ACCESS with SUB 0x20 and the address in TRAPADDR otherwise (R134, R138). -/
def Obligations.ScalarRegisterFormsWriteTheirResult : Prop :=
  (∀ (s : State) (x : Ctx) (o : OpR3) (a b : BitVec 64), x.readA o.ea o.a = .ok a → x.readB o.eb o.b = .ok b →
      ∀ p ∈ scalarForms, Presented s x (p.1 o) (.sreg o.d) →
        Completes (p.1 o) s fun t => ScalarDone s x [o.a, o.b] o.d (p.2 a b) t) ∧
  (∀ (s : State) (x : Ctx) (o : OpR3) (k : BitVec 2) (a b : BitVec 64), x.readA o.ea o.a = .ok a → x.readB o.eb o.b = .ok b →
      (Presented s x (.sel o) (.sreg o.d) →
        Completes (.sel o) s fun t => ScalarDone s x [o.a, o.b] o.d (if x.s 60#6 = 0 then b else a) t) ∧
      (Presented s x (.lea o k) (.sreg o.d) →
        Completes (.lea o k) s fun t => ScalarDone s x [o.a, o.b] o.d (a + b * 2 ^ k.toNat) t) ∧
      (Presented s x (.agen2 o k) (.sreg o.d) →
        Completes (.agen2 o k) s fun t => ScalarDone s x [o.a, o.b] o.d
          (a + ((b >>> 44) * ((b >>> 24) &&& 0xFFFFF#64) + (b &&& 0xFFFFFF#64)) * 2 ^ k.toNat) t)) ∧
  (∀ (s : State) (x : Ctx) (o : OpR3) (a b : BitVec 64), x.readA o.ea o.a = .ok a → x.readB o.eb o.b = .ok b →
      Presented s x (.bound o) (.sreg o.d) →
        (a < b → Completes (.bound o) s fun t => ScalarDone s x [o.a, o.b] o.d a t) ∧
        (¬a < b → exec (.bound o) s = .next (s.raise x (.bound o) ⟨0x05, 0x20, a, 0⟩)))

/-- What each unary form says of its result `w` for a source `a` (R136). -/
def unaryForms : List ((OpR2 → Instr) × (BitVec 64 → BitVec 64 → Prop)) :=
  [(.clz, fun a w => (a = 0 → w = 64) ∧ (a ≠ 0 → w.toNat < 64 ∧ a.getLsbD (63 - w.toNat) = true ∧
      ∀ i, 63 - w.toNat < i → a.getLsbD i = false)),
   (.ctz, fun a w => (a = 0 → w = 64) ∧ (a ≠ 0 → w.toNat < 64 ∧ a.getLsbD w.toNat = true ∧ ∀ i, i < w.toNat → a.getLsbD i = false)),
   (.pop, fun a w => w.toNat = ((List.range 64).filter fun i => a.getLsbD i).length),
   (.brev, fun a w => ∀ i, i < 64 → w.getLsbD i = a.getLsbD (63 - i)),
   (.bswap, fun a w => ∀ k, k < 8 → w.extractLsb' (8 * k) 8 = a.extractLsb' (8 * (7 - k)) 8)]

/-- Every unary form writes its result (R136). -/
def Obligations.UnaryFormsWriteTheirResult : Prop :=
  ∀ (s : State) (x : Ctx) (o : OpR2) (a : BitVec 64), x.readA o.ea o.a = .ok a →
    ∀ p ∈ unaryForms, Presented s x (p.1 o) (.sreg o.d) →
      Completes (p.1 o) s fun t => ∃ w, p.2 a w ∧ ScalarDone s x [o.a] o.d w t

/-- Immediate forms with their results: arithmetic and comparison sign-extend imm11, logic zero-extends it (R97, R139). -/
def immediateForms : List ((OpI → Instr) × (BitVec 64 → BitVec 11 → BitVec 64)) :=
  [(.addImm, fun a i => a + i.signExtend 64), (.andImm, fun a i => a &&& i.zeroExtend 64), (.orImm, fun a i => a ||| i.zeroExtend 64),
   (.xorImm, fun a i => a ^^^ i.zeroExtend 64), (.mulImm, fun a i => a * i.signExtend 64),
   (.minImm, fun a i => if a.sle (i.signExtend 64) then a else i.signExtend 64),
   (.maxImm, fun a i => if (i.signExtend 64).sle a then a else i.signExtend 64),
   (.cmpEqImm, fun a i => if a = i.signExtend 64 then 1 else 0), (.cmpNeImm, fun a i => if a = i.signExtend 64 then 0 else 1),
   (.cmpLtImm, fun a i => if a.slt (i.signExtend 64) then 1 else 0), (.cmpGeImm, fun a i => if a.slt (i.signExtend 64) then 0 else 1),
   (.cmpLtzImm, fun a i => if a < i.signExtend 64 then 1 else 0), (.cmpGezImm, fun a i => if a < i.signExtend 64 then 0 else 1)]

/-- Immediate forms write the result of their register form, LUI its shifted and sign-extended immediate (R97, R139, R140). -/
def Obligations.ImmediateFormsWriteTheirResult : Prop :=
  ∀ (s : State) (x : Ctx) (a : BitVec 64),
    (∀ o : OpI, x.readA o.ea o.a = .ok a → ∀ p ∈ immediateForms, Presented s x (p.1 o) (.sreg o.d) →
      Completes (p.1 o) s fun t => ScalarDone s x [o.a] o.d (p.2 a o.imm) t) ∧
    (∀ o : OpSh, x.readA o.ea o.a = .ok a →
      ∀ p ∈ ([(.shlImm, fun a n => a <<< n), (.shrImm, fun a n => a >>> n), (.shaImm, fun a n => a.sshiftRight n),
              (.rotImm, fun a n => a.rotateRight n)] : List ((OpSh → Instr) × (BitVec 64 → Nat → BitVec 64))),
        Presented s x (p.1 o) (.sreg o.d) → Completes (p.1 o) s fun t => ScalarDone s x [o.a] o.d (p.2 a o.n.toNat) t) ∧
    (∀ o : OpBf, x.readA o.ea o.a = .ok a →
      (Presented s x (.extImm o) (.sreg o.d) → Completes (.extImm o) s fun t => ∃ w : BitVec 64,
        ScalarDone s x [o.a] o.d w t ∧ ∀ i, w.getLsbD i = (decide (i < o.w.toNat + 1) && a.getLsbD (o.p.toNat + i))) ∧
      (x.sFull o.d = true → Presented s x (.insImm o) (.sreg o.d) → Completes (.insImm o) s fun t => ∃ w : BitVec 64,
        ScalarDone s x [o.a] o.d w t ∧ ∀ i, w.getLsbD i =
          if o.p.toNat ≤ i ∧ i < o.p.toNat + (o.w.toNat + 1) then a.getLsbD (i - o.p.toNat) else (x.s o.d).getLsbD i)) ∧
    (∀ (d : SReg) (imm : BitVec 18), Presented s x (.lui d imm) (.sreg d) →
      Completes (.lui d imm) s fun t => ScalarDone s x [] d (BitVec.ofInt 64 (imm.toInt * 2 ^ 14)) t)

/-! ### Control flow and the register hierarchy -/

/-- Conditional branches with their conditions (R137, R141). -/
def branchForms : List ((OpB → Instr) × (BitVec 64 → BitVec 64 → Bool)) :=
  [(.bccEq, fun a b => decide (a = b)), (.bccNe, fun a b => decide (a ≠ b)), (.bccLt, fun a b => a.slt b),
   (.bccGe, fun a b => b.sle a), (.bccLtz, fun a b => decide (a < b)), (.bccGez, fun a b => decide (b ≤ a))]

/-- BCC goes to PC plus off12 where its condition holds and falls through where it does not; J, JAL and JALR go to their target, and
JAL and JALR leave PC plus 1 in their link register (R141, R142). Where the spec leaves it open this is the model's choice: log entry 118. -/
def Obligations.BranchesAndJumpsGoToTheirTarget : Prop :=
  ∀ (s : State) (x : Ctx),
    (∀ (o : OpB) (a b : BitVec 64), x.readA false o.a = .ok a → x.readB false o.b = .ok b → ∀ p ∈ branchForms,
      Presented s x (p.1 o) .none → Completes (p.1 o) s fun t => ∃ z, Used x [o.a, o.b] z ∧
        Completed s z (if p.2 a b then some (x.at + o.off) else none) t) ∧
    (∀ off, Presented s x (.j off) .none → Completes (.j off) s fun t => Completed s x (some (x.at + off)) t) ∧
    (∀ off, Presented s x (.jal off) (.sreg 47#6) → Completes (.jal off) s fun t =>
      ∃ z, WroteS x [] 47#6 ((x.at + 1).zeroExtend 64) z ∧ Completed s z (some (x.at + off)) t) ∧
    (∀ (o : OpI) (a : BitVec 64), x.readA o.ea o.a = .ok a → Presented s x (.jalr o) (.sreg o.d) → Completes (.jalr o) s fun t =>
      ∃ z, WroteS x [o.a] o.d ((x.at + 1).zeroExtend 64) z ∧
        Completed s z (some (BitVec.ofNat 12 (a + o.imm.signExtend 64).toNat)) t)

/-- LOOP opens the inner and LOOPX the outer loop over the words up to the labelled one where the nesting allows it, and a count of 0 skips the body. Fetch goes on at the next word or back at START: LOOP1 first, LOOP0 at the same word only where LOOP1 has just reached 0, and neither inside a handler; a transfer of control applies none (R143, R144). Where the spec leaves it open this is the model's choice: log entry 119. -/
def Obligations.LoopsOpenAndFetchGoesBack : Prop :=
  (∀ (s : State) (x : Ctx) (o : OpLoop) (n : BitVec 64), x.readA o.ea o.a = .ok n → n.toNat < 2 ^ 32 → x.loop1.count = 0 →
      (x.loop0.count = 0 ∨ x.loop0.last ≠ x.at) →
      (Presented s x (.loop o) .none →
        (x.loop0.count = 0 ∨ (x.loop0.first ≤ x.at + 1 ∧ x.at + o.imm.zeroExtend 12 ≤ x.loop0.last)) →
        Completes (.loop o) s fun t => ∃ z, Used x [o.a] z ∧
          if n = 0 then Completed s z (some (x.at + o.imm.zeroExtend 12 + 1)) t
          else Completed s { z with loop1 := ⟨n.truncate 32, x.at + o.imm.zeroExtend 12, x.at + 1⟩ } (some (x.at + 1)) t) ∧
      (Presented s x (.loopx o) .none → x.loop0.count = 0 →
        Completes (.loopx o) s fun t => ∃ z, Used x [o.a] z ∧
          if n = 0 then Completed s z (some (x.at + o.imm.zeroExtend 12 + 1)) t
          else Completed s { z with loop0 := ⟨n.truncate 32, x.at + o.imm.zeroExtend 12, x.at + 1⟩ } (some (x.at + 1)) t)) ∧
  (∀ x : Ctx, x.injecting = none →
      (∀ t, x.advance (some t) = { x with pc := t, hold := .free, walk := .none }) ∧
      (x.act = true → x.advance none = { x with pc := x.pc + 1, hold := .free, walk := .none }) ∧
      (x.act = false →
        ((x.loop1.count = 0 ∨ x.loop1.last ≠ x.pc) → (x.loop0.count = 0 ∨ x.loop0.last ≠ x.pc) →
          x.advance none = { x with pc := x.pc + 1, hold := .free, walk := .none }) ∧
        (1 < x.loop1.count → x.loop1.last = x.pc →
          x.advance none = { x with loop1 := { x.loop1 with count := x.loop1.count - 1 }, pc := x.loop1.first, hold := .free, walk := .none }) ∧
        (x.loop1.count = 1 → x.loop1.last = x.pc → (x.loop0.count = 0 ∨ x.loop0.last ≠ x.pc) →
          x.advance none = { x with loop1 := { x.loop1 with count := 0 }, pc := x.pc + 1, hold := .free, walk := .none }) ∧
        ((x.loop1.count = 0 ∨ x.loop1.last ≠ x.pc) → x.loop0.count ≠ 0 → x.loop0.last = x.pc →
          x.advance none = { x with
            loop0 := { x.loop0 with count := x.loop0.count - 1 }, hold := .free, walk := .none,
            pc := if x.loop0.count = 1 then x.pc + 1 else x.loop0.first }) ∧
        (x.loop1.count = 1 → x.loop1.last = x.pc → x.loop0.count ≠ 0 → x.loop0.last = x.pc →
          x.advance none = { x with
            loop1 := { x.loop1 with count := 0 }, loop0 := { x.loop0 with count := x.loop0.count - 1 }, hold := .free, walk := .none,
            pc := if x.loop0.count = 1 then x.pc + 1 else x.loop0.first })))

/-- `t` is `s` after the firing of the context at hand, `x`, has committed its channels (R31, R77): the claimed tokens of each input have left its
buffer, CLAIM and USED of every channel of the task are 0, and no other channel changes. One commit mark for the tokens written leaves towards each
consumer and one credit for those consumed towards each producer. A task without inputs then ends its streams: an end-of-stream token leaves on each
output with a free slot and is owed to the others (R215). -/
def FiringCommitted (s : State) (x : Ctx) (t : State) : Prop :=
  let slot := s.cur.slot; let source := (s.ins slot x.node).isEmpty
  let ends := fun (e : Edge) => source && e.src == x.node && decide (0 < e.free)
  (∀ n e, s.edge? slot n = some e → t.edge? slot n = some { e with
    pclaim := if e.src = x.node then 0 else e.pclaim, pused := if e.src = x.node then 0 else e.pused
    buf := if e.dst = x.node then e.buf.drop e.cclaim else e.buf
    cclaim := if e.dst = x.node then 0 else e.cclaim, cused := if e.dst = x.node then 0 else e.cused
    free := if ends e then e.free - 1 else e.free, eosOut := e.eosOut || ends e }) ∧
  (∀ a n, a ≠ slot → t.edge? a n = s.edge? a n) ∧
  ∃ fs, t.net = { s.net with agenda := s.net.agenda ++ fs } ∧ ∀ ev, ev ∈ fs.map Flight.ev ↔
    (∃ n e, s.edge? slot n = some e ∧
      ((e.src = x.node ∧ 0 < e.pused ∧ ev = .commitMarkArrival slot n e.pused) ∨
       (e.dst = x.node ∧ 0 < e.cclaim ∧ ev = .creditArrival slot n e.cclaim) ∨ (ends e = true ∧ ev = .channelTokenArrival slot n .eos)))

/-- DONE ends and commits the firing of a context that is in no handler, has no unfinished instruction and has written p_k tokens to each output: the
next firing starts at ENTRY with both loops inactive, and every register, mask, flag and full/empty bit stays. With fewer tokens in some output, or
in a handler, it is ILLEGAL with SUB 0x05 and commits nothing; with an unfinished instruction it waits. YIELD gives up the issue slot and
changes no register (R31, R77, R145, R146, R215). -/
def Obligations.DoneEndsTheFiringAndYieldKeepsIt : Prop :=
  ∀ (s : State) (x : Ctx),
    (Presented s x .done .none → x.act = false → x.pend = [] →
      ((∀ p ∈ s.outs s.cur.slot x.node, p.2.prate ≤ p.2.pused) → (s.edges.map Prod.fst).Nodup →
        Completes .done s fun t => t.mem = s.mem ∧ FiringCommitted s x t ∧
          let source := (s.ins s.cur.slot x.node).isEmpty
          t.ctx? s.cur = some { x with
            firing := false, pc := x.entry, loop0 := { x.loop0 with count := 0 }, loop1 := { x.loop1 with count := 0 },
            inject := [], injecting := none, hold := .free, sourceDue := false, demoted := false, ended := x.ended || source,
            eosOwed := if source then ((s.outs s.cur.slot x.node).filter fun p => p.2.free == 0).map Prod.fst else x.eosOwed }) ∧
      ((∃ p ∈ s.outs s.cur.slot x.node, p.2.pused < p.2.prate) → exec .done s = .next (s.raise x .done ⟨0x01, 0x05, 0, 0⟩))) ∧
    (Presented s x .done .none → x.act = true → exec .done s = .next (s.raise x .done ⟨0x01, 0x05, 0, 0⟩)) ∧
    (Presented s x .done .none → x.act = false → x.pend ≠ [] → exec .done s = .next (s.block x)) ∧
    (Presented s x .yield .none → Completes .yield s fun t =>
      t.ctx? s.cur = some { x.advance none with hold := .yielded } ∧ t.mem = s.mem ∧ t.edges = s.edges ∧
        ∀ k, t.cell? s.cur.cell = some k → k.holder = none)

/-- A long-latency producer of a scalar register is in flight: an unfinished instruction, an INFLIGHT entry of a replay queue, or a command whose token
the register is (R65, R69). -/
def Produces (x : Ctx) (r : SReg) : Prop :=
  r ≠ 0#6 ∧ ((∃ q ∈ x.pend, q.dest = .sreg r) ∨ r ∈ x.tokens ∨ ∃ e ∈ x.rq ++ x.inject, e.status = 1#4 ∧ e.file = 0#2 ∧ e.dest = r)

/-- What an empty source does to instruction `i`: under policy 1 it raises EMPTYREAD with SUB `sub`; under policy 0 it waits for a producer in flight,
and raises EMPTYREAD with 16 more where there is none (R64, R65, R131). -/
def EmptyRead (s : State) (x : Ctx) (i : Instr) (pol : Bool) (producer : Prop) (sub : BitVec 8) : Prop :=
  (pol = true → exec i s = .next (s.raise x i ⟨0x02, sub, 0, 0⟩)) ∧
  (pol = false → producer → exec i s = .next (s.block x)) ∧
  (pol = false → ¬producer → exec i s = .next (s.raise x i ⟨0x02, sub + 0x10, 0, 0⟩))

/-- An empty source raises EMPTYREAD under policy 1 and, where no producer of it is in flight, under policy 0, which else waits; an instruction also waits while a producer of its destination is in flight, or an unfinished LDG still reads that vector register. MOVQ copies, TESTF samples a full/empty bit, MARKE and MARKF set one and leave the value, WAITF completes on a full register and traps under policy 1 on an empty one; WAITM completes once every chunk bit of its mask is set, traps on an error word with SUB 0x21, in its .t form at once with SUB 0x22 where a bit is missing, and else with SUB 0x20 where no chunk is still to come (R64 to R66, R131, R147 to R151). Where the spec leaves it open this is the model's choice: log entry 20. -/
def Obligations.RegisterHierarchyInstructionsComplete : Prop :=
  (∀ (s : State) (x : Ctx),
      (∀ (o : OpR2e) (a : BitVec 64), x.readA o.ea o.a = .ok a → Presented s x (.movq o) (.sreg o.d) →
        Completes (.movq o) s fun t => ScalarDone s x [o.a] o.d a t) ∧
      (∀ o : OpTestf, Presented s x (.testf o) (.sreg o.d) → Completes (.testf o) s fun t =>
        ScalarDone s x [] o.d (if (if o.vec then x.vFull (o.a.truncate 5) else x.sFull o.a) then 1 else 0) t) ∧
      (∀ (o : OpMark) (full : Bool) (i : Instr), i = (if full then .markf o else .marke o) →
        Presented s x i (if o.vec then .vreg (o.r.truncate 5) else .sreg o.r) → Completes i s fun t => ∃ z, Completed s z none t ∧
          if o.vec then z = { x with vfe := z.vfe } ∧ ∀ r, z.vFull r = if r = o.r.truncate 5 then full else x.vFull r
          else z = { x with sfe := z.sfe } ∧ ∀ r, z.sFull r = if r = o.r then full else x.sFull r) ∧
      (∀ o : OpWaitf, Presented s x (.waitf o) .none →
        ((if o.vec then x.vFull (o.a.truncate 5) else x.sFull o.a) = true → Completes (.waitf o) s fun t => Completed s x none t) ∧
        ((if o.vec then x.vFull (o.a.truncate 5) else x.sFull o.a) = false → o.ea = true →
          exec (.waitf o) s = .next (s.raise x (.waitf o) ⟨0x02, 0x00, 0, 0⟩)))) ∧
  (∀ (s : State) (x : Ctx) (o : OpR3), x.injecting = none →
      (∀ p ∈ scalarForms,
        (Presented s x (p.1 o) (.sreg o.d) →
          (x.sFull o.a = false → EmptyRead s x (p.1 o) o.ea (Produces x o.a) 0x00) ∧
          (x.sFull o.a = true → x.sFull o.b = false → EmptyRead s x (p.1 o) o.eb (Produces x o.b) 0x01)) ∧
        (s.ctx? s.cur = some x → x.unfinished < 16 → defect (p.1 o) = none → Produces x o.d → exec (p.1 o) s = .next (s.block x))) ∧
      ∀ v : OpV3,
        let produced := fun (r : VReg) => (∃ q ∈ x.pend, q.dest = .vreg r) ∨
          ∃ e ∈ x.rq ++ x.inject, e.status = 1#4 ∧ e.file = 1#2 ∧ e.dest = r.setWidth 6
        (Presented s x (.vadd v) (.vreg v.vd) →
          (x.vFull v.va = false → EmptyRead s x (.vadd v) v.ea (produced v.va) 0x00) ∧
          (x.vFull v.va = true → x.vFull v.vb = false → EmptyRead s x (.vadd v) v.ea (produced v.vb) 0x01)) ∧
        (s.ctx? s.cur = some x → x.unfinished < 16 → defect (.vadd v) = none →
          (produced v.vd ∨ ∃ q ∈ x.pend, ∃ g : OpGath, q.instr = .ldg g ∧ g.idx = v.vd) → exec (.vadd v) s = .next (s.block x))) ∧
  (∀ (s : State) (x : Ctx) (o : OpWaitm) (m a : BitVec 64) (full : Bool), x.readB o.eb o.b = .ok m → Presented s x (.waitm o) .none →
      ((a, full) = match x.injecting with
        | some e => if e.va then (e.a, true) else (x.s o.a, x.sFull o.a)
        | none => (x.s o.a, x.sFull o.a)) →
      let bad := full = true ∧ a.getLsbD 63 = true ∧ a.extractLsb' 16 47 = 0
      (bad → exec (.waitm o) s = .next (s.raise x (.waitm o) ⟨0x02, 0x21, 0, 0⟩)) ∧
      (¬bad → a &&& m = m → Completes (.waitm o) s fun t => ∃ z, Used x [o.b] z ∧
        Completed (s.dropCopies x.lease (s.dieOf s.cur.cell) fun _ => true) z none t) ∧
      (¬bad → a &&& m ≠ m → o.t = true → exec (.waitm o) s = .next (s.raise x (.waitm o) ⟨0x02, 0x22, 0, 0⟩)) ∧
      (¬bad → a &&& m ≠ m → o.t = false → (full = true ∨ o.a ∉ x.tokens) →
        exec (.waitm o) s = .next (s.raise x (.waitm o) ⟨0x02, 0x20, 0, 0⟩)))

/-- What MFS reads by special-register number (R80 to R83, R152). -/
def specialValues (s : State) (x : Ctx) : List (Nat × BitVec 64) :=
  [(0x001, BitVec.ofNat 64 s.dtime), (0x002, BitVec.ofNat 64 x.fireCnt), (0x003, BitVec.ofNat 64 x.budget),
   (0x008, x.fstat.zeroExtend 64), (0x009, x.srseed.zeroExtend 64), (0x00A, if x.repro then 1 else 0),
   (0x010, x.cmdbase.zeroExtend 64 <<< 2),
   (0x011, (x.loop0.count ++ 0#8 ++ x.loop0.last ++ x.loop0.first : BitVec 64)),
   (0x012, (x.loop1.count ++ 0#8 ++ x.loop1.last ++ x.loop1.first : BitVec 64)),
   (0x018, (if x.trapEn then 0x1000 else 0) ||| x.trapBase.zeroExtend 64),
   (0x019, (if x.act then 0x10000 else 0) ||| x.sub.zeroExtend 64 <<< 8 ||| x.cause.zeroExtend 64),
   (0x01A, x.trapPc.zeroExtend 64), (0x01B, x.trapAddr), (0x01C, BitVec.ofNat 64 x.rq.length), (0x01D, x.rqsel.zeroExtend 64),
   (0x030, (s.cell? s.cur.cell).elim 0 fun k => (if k.front then 2 else 0) ||| if k.xch then 1 else 0)] ++
  (List.range 8).map (fun j => (0x040 + j, s.chanStatus s.cur.slot x.node false j)) ++
  (List.range 8).map (fun j => (0x048 + j, s.chanStatus s.cur.slot x.node true j))

/-- The numbers of the special registers that MFS reads (R80). -/
def readNumbers : List Nat :=
  [0x000, 0x001, 0x002, 0x003, 0x008, 0x009, 0x00A, 0x010, 0x011, 0x012, 0x018, 0x019, 0x01A, 0x01B, 0x01C, 0x01D, 0x01E, 0x01F, 0x020,
   0x028, 0x029, 0x030] ++ (List.range 16).map (0x040 + ·)

/-- The numbers of those that MTS writes (R80). -/
def writtenNumbers : List Nat := [0x008, 0x009, 0x010, 0x011, 0x012, 0x018, 0x01A, 0x01D, 0x01E, 0x01F, 0x020]

/-- The fields of CTXID (R81). -/
def isCtxId (s : State) (x : Ctx) (w : BitVec 64) : Prop :=
  (w.extractLsb' 57 7).toNat = s.cur.col % 128 ∧ (w.extractLsb' 51 6).toNat = s.cur.row % 64 ∧
  (∀ k, k < 5 → x.width = 8 * 2 ^ k → (w.extractLsb' 48 3).toNat = k) ∧ (w.extractLsb' 46 2).toNat = s.cur.ctx % 4 ∧
  (w.extractLsb' 44 2).toNat = s.classOf x ∧ w.extractLsb' 32 12 = 0 ∧ (w.extractLsb' 0 32).toNat = x.handle % 2 ^ 32

/-- MFS reads the register that its number names, field by field for CTXID, FEMAP, VFEMAP, SPCFG and the control word of a replay entry, and MTS writes it and no other field, an entry of the replay queue among them; an entry that RQSEL does not reach, and a value that R144 or R153 forbids, is ILLEGAL with SUB 0x05, and a number of no register, or for MTS of one that is only read, with SUB 0x04 (R79 to R83, R87, R144, R152, R153). Where the spec leaves it open this is the model's choice: log entries 78, 82. -/
def Obligations.SpecialRegistersAreReadAndWritten : Prop :=
  (∀ (s : State) (x : Ctx) (d : SReg) (e : Bool),
      let reads := fun (n : BitVec 11) (p : BitVec 64 → Prop) => Presented s x (.mfs d e n) (.sreg d) →
        Completes (.mfs d e n) s fun t => ∃ w, p w ∧ ScalarDone s x [] d w t
      (∀ p ∈ specialValues s x, reads (BitVec.ofNat 11 p.1) (· = p.2)) ∧
      reads 0x000#11 (isCtxId s x) ∧
      reads 0x028#11 (fun w => ∀ r : SReg, w.getLsbD r.toNat = x.sFull r) ∧
      reads 0x029#11 (fun w => w.extractLsb' 32 32 = 0 ∧ ∀ r : VReg, w.getLsbD r.toNat = x.vFull r) ∧
      (∀ q, x.rq[x.rqsel.toNat]? = some q → reads 0x01E#11 fun w =>
        w.extractLsb' 52 12 = q.pc ∧ w.extractLsb' 50 2 = q.file ∧ w.extractLsb' 44 6 = q.dest ∧ w.extractLsb' 40 4 = q.status ∧
        w.getLsbD 39 = q.va ∧ w.getLsbD 38 = q.vb ∧ w.extractLsb' 32 6 = 0 ∧ w.extractLsb' 0 32 = q.instr) ∧
      (∀ n : BitVec 11, n.toNat ∉ readNumbers → s.ctx? s.cur = some x → x.unfinished < 16 →
        exec (.mfs d e n) s = .next (s.raise x (.mfs d e n) ⟨0x01, 0x04, 0, 0⟩)) ∧
      (∀ q, x.rq[x.rqsel.toNat]? = some q →
        (Presented s x (.mfs d e 0x1F#11) (.sreg d) → Completes (.mfs d e 0x1F#11) s fun t => ScalarDone s x [] d q.a t) ∧
        (Presented s x (.mfs d e 0x20#11) (.sreg d) → Completes (.mfs d e 0x20#11) s fun t => ScalarDone s x [] d q.b t)) ∧
      (x.rq.length ≤ x.rqsel.toNat → ∀ n ∈ [0x1E#11, 0x1F#11, 0x20#11], Presented s x (.mfs d e n) (.sreg d) →
        exec (.mfs d e n) s = .next (s.raise x (.mfs d e n) ⟨0x01, 0x05, 0, 0⟩))) ∧
  (∀ (s : State) (x : Ctx) (a : SReg) (ea : Bool) (w : BitVec 64), x.readA ea a = .ok w →
      let wrote (n : BitVec 11) (f : Ctx → Ctx) : Prop :=
        Presented s x (.mts a ea n) .none → Completes (.mts a ea n) s fun t => ∃ z, Used x [a] z ∧ Completed s (f z) none t
      let refused (n : BitVec 11) : Prop :=
        Presented s x (.mts a ea n) .none → exec (.mts a ea n) s = .next (s.raise x (.mts a ea n) ⟨0x01, 0x05, 0, 0⟩)
      (w.toNat % 8 ≤ 4 → wrote 0x008 fun z =>
        { z with fstat := ((x.fstat.extractLsb' 3 5 &&& ~~~(w.extractLsb' 3 5)) ++ w.extractLsb' 0 3 : BitVec 8) }) ∧
      (5 ≤ w.toNat % 8 → refused 0x008) ∧ (x.repro = true → refused 0x009) ∧
      (x.repro = false → wrote 0x009 fun z => { z with srseed := if w.truncate 32 = 0#32 then 1 else w.truncate 32 }) ∧
      (w.toNat / 4 % 2048 ≤ 1024 → wrote 0x010 fun z => { z with cmdbase := w.extractLsb' 2 11 }) ∧
      (1024 < w.toNat / 4 % 2048 → refused 0x010) ∧
      (let count := w.extractLsb' 32 32; let last := w.extractLsb' 12 12; let first := w.extractLsb' 0 12
       let clear0 := count = 0 ∨ x.loop1.count = 0 ∨ (first ≤ x.loop1.first ∧ x.loop1.last ≤ last)
       let clear1 := count = 0 ∨ x.loop0.count = 0 ∨ (x.loop0.first ≤ first ∧ last ≤ x.loop0.last)
       (first ≤ last → clear0 → wrote 0x011 fun z => { z with loop0 := ⟨count, last, first⟩ }) ∧
       (first ≤ last → clear1 → wrote 0x012 fun z => { z with loop1 := ⟨count, last, first⟩ }) ∧
       (last < first ∨ ¬clear0 → refused 0x011) ∧ (last < first ∨ ¬clear1 → refused 0x012)) ∧
      wrote 0x018 (fun z => { z with trapEn := w.getLsbD 12, trapBase := w.truncate 12 }) ∧
      wrote 0x01A (fun z => { z with trapPc := w.truncate 12 }) ∧ wrote 0x01D (fun z => { z with rqsel := w.truncate 4 }) ∧
      (x.rq.length ≤ x.rqsel.toNat → refused 0x01E ∧ refused 0x01F ∧ refused 0x020) ∧
      (let status := w.extractLsb' 40 4
       (status = 1 ∨ 5 ≤ status.toNat → refused 0x01E) ∧
       ∀ q, x.rq[x.rqsel.toNat]? = some q →
        let put := fun (f : RqEntry) (z : Ctx) => { z with rq := x.rq.set x.rqsel.toNat f }
        (status ≠ 1 → status.toNat < 5 → wrote 0x01E (put { q with
          pc := w.extractLsb' 52 12, file := w.extractLsb' 50 2, dest := w.extractLsb' 44 6, status := status,
          va := w.getLsbD 39, vb := w.getLsbD 38, instr := w.extractLsb' 0 32 })) ∧
        wrote 0x01F (put { q with a := w }) ∧ wrote 0x020 (put { q with b := w })) ∧
      ∀ n : BitVec 11, n.toNat ∉ writtenNumbers → s.ctx? s.cur = some x → x.unfinished < 16 →
        exec (.mts a ea n) s = .next (s.raise x (.mts a ea n) ⟨0x01, 0x04, 0, 0⟩))

/-! ### Numbers and floating point -/

/-- The exact value of a finite number. -/
def exactValue : FpVal → Rat
  | .fin neg m e _ => (if neg then -1 else 1) * (m : Rat) * (2 : Rat) ^ e
  | .nan _ | .inf _ => 0

/-- The magnitude of a finite code without its sign (R263). -/
def codeValue (f : FF) (c : Nat) : Rat :=
  let m : Rat := ((c % 2 ^ f.frac : Nat) : Rat) / (2 : Rat) ^ f.frac
  if c / 2 ^ f.frac = 0 then m * (2 : Rat) ^ (1 - (f.bias : Int)) else (1 + m) * (2 : Rat) ^ (((c / 2 ^ f.frac : Nat) : Int) - f.bias)

/-- The neighbour that a mode picks for a magnitude `q` of a unit above the lower one, `low`: the nearer and on a tie the even one, the lower, the
one that lies above or below, or, under SR, the higher where the draw is below q · 2^32 (R274). -/
def chosen (mode : RMode) (neg : Bool) (r low : Nat) (q : Rat) : Nat :=
  if q = 0 then low
  else match mode with
    | .rne => if q < 1 / 2 ∨ (q = 1 / 2 ∧ low % 2 = 0) then low else low + 1
    | .rtz | .dyn => low
    | .rup => if neg then low else low + 1
    | .rdn => if neg then low + 1 else low
    | .sr => if (r : Int) < (q * (2 : Rat) ^ 32).floor then low + 1 else low

/-- The code and the flags of Round for a number of magnitude `x` above zero (R274, R275): `y` is rounded to M + 1 significant bits; below the least
normal value it is rounded once more to the subnormal grid; above the greatest finite one it overflows. -/
def Rounded (f : FF) (mode : RMode) (r : Nat) (neg : Bool) (x : Rat) (answer : Nat × Flags) : Prop :=
  ∃ (low : Nat) (j : Int), 2 ^ f.frac ≤ low ∧ low < 2 ^ (f.frac + 1) ∧ (low : Rat) * (2 : Rat) ^ j ≤ x ∧ x < ((low : Rat) + 1) * (2 : Rat) ^ j ∧
    let y : Rat := (chosen mode neg r low (x / (2 : Rat) ^ j - low) : Rat) * (2 : Rat) ^ j
    let sign := if neg then 2 ^ (f.width - 1) else 0
    let tiny : Rat := (2 : Rat) ^ (1 - (f.bias : Int) - f.frac)
    let endless := match f, mode with
      | .f64, .rne | .f32, .rne | .bf16, .rne | .f16, .rne | .f64, .sr | .f32, .sr | .bf16, .sr | .f16, .sr => true
      | .f64, .rup | .f32, .rup | .bf16, .rup | .f16, .rup => !neg
      | .f64, .rdn | .f32, .rdn | .bf16, .rdn | .f16, .rdn => neg
      | _, _ => false
    if y < (2 : Rat) ^ (1 - (f.bias : Int)) then
      ∃ k : Nat, (k : Rat) * tiny ≤ y ∧ y < ((k : Rat) + 1) * tiny ∧
        let z := chosen mode neg r k (y / tiny - k)
        answer = (sign + z, if (z : Rat) * tiny = x then 0 else flagNX ||| flagUF)
    else if codeValue f f.maxCode < y then
      answer = (sign + (if endless then f.infCode.getD f.maxCode else f.maxCode), flagOF ||| flagNX)
    else ∃ c, c ≤ f.maxCode ∧ codeValue f c = y ∧ answer = (sign + c, if y = x then 0 else flagNX)

/-- Codes hold the values of R263 and R264, and Round maps an exact number to the value of a format as R274 states, with the overflow results of R275; it
leaves a finite value of the format as it is, under every mode, and raises no flag. A number of which only a unit is known, far below the last
bit of the format, is rounded as every value within that unit is. -/
def Obligations.RoundingKeepsRepresentableValues : Prop :=
  (∀ (f : FF) (mode : RMode) (r w : Nat), w < 2 ^ f.width →
    (∀ g, f.decode w ≠ .nan g) → (∀ g, f.decode w ≠ .inf g) → f.round mode r (f.decode w) = (w, 0)) ∧
  ([FF.f64, .f32, .bf16, .f16, .e5m2, .e4m3, .e2m1].map fun f => (f.width, f.ebits, f.frac, f.bias)) =
    [(64, 11, 52, 1023), (32, 8, 23, 127), (16, 8, 7, 127), (16, 5, 10, 15), (8, 5, 2, 15), (8, 4, 3, 7), (4, 2, 1, 1)] ∧
  (∀ f ∈ [FF.f64, .f32, .bf16, .f16, .e5m2], f.infCode = some ((2 ^ f.ebits - 1) * 2 ^ f.frac) ∧ f.maxCode = (2 ^ f.ebits - 1) * 2 ^ f.frac - 1) ∧
  (codeValue .e4m3 FF.e4m3.maxCode = 448 ∧ FF.e4m3.infCode = none ∧ codeValue .e2m1 FF.e2m1.maxCode = 6 ∧ FF.e2m1.infCode = none) ∧
  (∀ (f : FF) (w : Nat), w < 2 ^ f.width → let c := w % 2 ^ (f.width - 1); let neg := w.testBit (f.width - 1)
    (c ≤ f.maxCode → (∃ m e, f.decode w = .fin neg m e false) ∧ exactValue (f.decode w) = (if neg then -1 else 1) * codeValue f c) ∧
    (f.infCode = some c → f.decode w = .inf neg) ∧
    (f.maxCode < c → f.infCode ≠ some c → f.decode w =
      .nan ((f = .f64 ∨ f = .f32 ∨ f = .bf16 ∨ f = .f16) && !w.testBit (f.frac - 1)))) ∧
  ∀ (f : FF) (mode : RMode) (r : Nat) (neg : Bool), let sign := if neg then 2 ^ (f.width - 1) else 0
    (∀ (m : Nat) (e : Int), 0 < m → Rounded f mode r neg ((m : Rat) * (2 : Rat) ^ e) (f.round mode r (.fin neg m e false))) ∧
    (∀ (m : Nat) (e : Int) (x : Rat), 2 ^ (f.frac + 40) ≤ m → (m : Rat) * (2 : Rat) ^ e < x → x < ((m : Rat) + 1) * (2 : Rat) ^ e →
      Rounded f mode r neg x (f.round mode r (.fin neg m e true))) ∧
    (∀ e, f.round mode r (.fin neg 0 e false) = (sign, 0)) ∧
    f.round mode r (.inf neg) = (match f.infCode with | some c => (sign + c, 0) | none => (sign + f.maxCode, flagNV)) ∧
    ∀ g, f.round mode r (.nan g) = (match f with
      | .f64 => (0x7FF8000000000000, if g then flagNV else 0) | .f32 => (0x7FC00000, if g then flagNV else 0)
      | .bf16 => (0x7FC0, if g then flagNV else 0) | .f16 => (0x7E00, if g then flagNV else 0)
      | .e5m2 => (0x7E, if g then flagNV else 0) | .e4m3 => (0x7F, if g then flagNV else 0) | .e2m1 => (0, flagNV))

/-- The stochastic-rounding generator never reaches zero: no draw leaves a nonzero state at zero, and a seed of zero becomes 1. A draw
is 32 steps of the shift register (R277). -/
def Obligations.StochasticGeneratorNeverReachesZero : Prop :=
  (∀ s : BitVec 32, s ≠ 0 → srDraw s ≠ 0) ∧ srSeed 0 = 1 ∧ (∀ s, s ≠ 0 → srSeed s = s) ∧
    ∀ s, srDraw s = (List.range 32).foldl (fun t _ => if t.getLsbD 0 then (t >>> 1) ^^^ 0x80200003#32 else t >>> 1) s

/-- The format of a scalar floating-point instruction (R99). -/
def scalarFormat (wide : Bool) : FF := if wide then .f64 else .f32

/-- The number in the low bits of a register (R154). -/
def numberIn (f : FF) (w : BitVec 64) : FpVal := f.decode (w.toNat % 2 ^ f.width)

/-- Rounding instructions with two sources and the exact operation of each, flags of the operands with it (R155, R156). -/
def roundingForms : List ((OpF3 → Instr) × (RMode → FpVal → FpVal → FpVal × Flags)) :=
  [(.fadd, numAdd), (.fsub, fun m a b => numAdd m a b.negate), (.fmul, fun _ a b => numMul a b), (.fdiv, fun _ a b => numDiv a b)]

/-- A scalar floating-point result: the exact number of `p` rounded once into the low bits of `d`, one draw taken under SR, and the
flags of the operation and of the rounding set in FSTAT, none cleared (R82, R154, R155). -/
def RoundedDone (s : State) (x : Ctx) (uses : List SReg) (d : SReg) (f : FF) (mode : RMode) (p : FpVal × Flags) (t : State) : Prop :=
  let q := f.round mode (srDraw x.srseed).toNat p.1
  ScalarDone s ({ x with
      srseed := if mode = .sr then srDraw x.srseed else x.srseed
      fstat := x.fstat ||| ((p.2 ||| q.2) ++ 0#3 : BitVec 8) }) uses d (BitVec.ofNat 64 q.1) t

/-- The operations that the floating-point instructions round are exact, or exact to a unit far below the last bit, with the special cases, signs of zero and flags of R155 to R160. Scalar floating-point instructions write their rounded result, FMA with one rounding of the exact sum with its old destination, and FMIN, FMAX, FCMP and FCLASS their exact one; FCVT converts between the formats of R100: a floating-point destination takes the rounded value, an integer one the value rounded to an integer and clamped to its range, an s32 result sign-extended and a z32 one zero-extended (R154 to R160). -/
def Obligations.ScalarFloatingPointWritesItsResult : Prop :=
  (∀ (s : State) (x : Ctx) (a b : BitVec 64),
      (∀ o : OpF3, x.readA o.ea o.a = .ok a → x.readB o.eb o.b = .ok b →
        let f := scalarFormat o.wide
        let mode := x.rounding o.rm
        (∀ p ∈ roundingForms, Presented s x (p.1 o) (.sreg o.d) → Completes (p.1 o) s fun t =>
          RoundedDone s x [o.a, o.b] o.d f mode (p.2 mode (numberIn f a) (numberIn f b)) t) ∧
        (x.sFull o.d = true → Presented s x (.fma o) (.sreg o.d) → Completes (.fma o) s fun t =>
          RoundedDone s x [o.a, o.b] o.d f mode (numFma mode (numberIn f a) (numberIn f b) (numberIn f (x.s o.d))) t)) ∧
      (∀ o : OpF2, x.readA o.ea o.a = .ok a → Presented s x (.fsqrt o) (.sreg o.d) → Completes (.fsqrt o) s fun t =>
        RoundedDone s x [o.a] o.d (scalarFormat o.wide) (x.rounding o.rm) (numSqrt (numberIn (scalarFormat o.wide) a)) t) ∧
      (∀ (o : OpFm) (big : Bool) (i : Instr), i = (if big then .fmax o else .fmin o) → x.readA o.ea o.a = .ok a →
        x.readB o.eb o.b = .ok b → Presented s x i (.sreg o.d) → Completes i s fun t =>
          let f := scalarFormat o.wide
          let q := f.minMax big (a.toNat % 2 ^ f.width) (b.toNat % 2 ^ f.width)
          ScalarDone s (x.raiseFlags q.2) [o.a, o.b] o.d (BitVec.ofNat 64 q.1) t) ∧
      (∀ o : OpFc, x.readA o.ea o.a = .ok a → x.readB o.eb o.b = .ok b → Presented s x (.fcmp o) (.sreg o.d) →
        Completes (.fcmp o) s fun t =>
          let q := numCmp o.cond (numberIn (scalarFormat o.wide) a) (numberIn (scalarFormat o.wide) b)
          ScalarDone s (x.raiseFlags q.2) [o.a, o.b] o.d (if q.1 then 1 else 0) t) ∧
      (∀ o : OpFk, x.readA o.ea o.a = .ok a → Presented s x (.fclass o) (.sreg o.d) → Completes (.fclass o) s fun t =>
        let f := scalarFormat o.wide
        ScalarDone s x [o.a] o.d (BitVec.ofNat 64 (f.classify (a.toNat % 2 ^ f.width))) t)) ∧
  ((∀ (mode : RMode) (n1 : Bool) (m1 : Nat) (e1 : Int) (n2 : Bool) (m2 : Nat) (e2 : Int),
      let x : FpVal := .fin n1 m1 e1 false; let y : FpVal := .fin n2 m2 e2 false
      let a := (m1 : Rat) * (2 : Rat) ^ e1; let b := (m2 : Rat) * (2 : Rat) ^ e2
      (∃ n m e, numAdd mode x y = (.fin n m e false, 0) ∧ exactValue (.fin n m e false) = exactValue x + exactValue y ∧
        (m = 0 → n = if n1 = n2 then n1 else mode == .rdn)) ∧
      (∃ m e, numMul x y = (.fin (n1 != n2) m e false, 0) ∧ exactValue (.fin (n1 != n2) m e false) = exactValue x * exactValue y) ∧
      (m1 ≠ 0 → m2 ≠ 0 → ∃ q e g, numDiv x y = (.fin (n1 != n2) q e g, 0) ∧ 2 ^ 96 ≤ q ∧ (q : Rat) * (2 : Rat) ^ e * b ≤ a ∧
        a < ((q : Rat) + 1) * (2 : Rat) ^ e * b ∧ (g = false ↔ (q : Rat) * (2 : Rat) ^ e * b = a)) ∧
      (m2 = 0 → numDiv x y = if m1 = 0 then (.nan false, flagNV) else (.inf (n1 != n2), flagDZ)) ∧
      (m1 = 0 → m2 ≠ 0 → numDiv x y = (.zero (n1 != n2), 0)) ∧
      (m1 ≠ 0 → n1 = false → ∃ q e g, numSqrt x = (.fin false q e g, 0) ∧ 2 ^ 95 ≤ q ∧ ((q : Rat) * (2 : Rat) ^ e) ^ 2 ≤ a ∧
        a < (((q : Rat) + 1) * (2 : Rat) ^ e) ^ 2 ∧ (g = false ↔ ((q : Rat) * (2 : Rat) ^ e) ^ 2 = a)) ∧
      (m1 ≠ 0 → n1 = true → numSqrt x = (.nan false, flagNV)) ∧ (m1 = 0 → numSqrt x = (x, 0)) ∧
      (numLt x y = true ↔ exactValue x < exactValue y)) ∧
    (∀ (mode : RMode) (x y : FpVal), (x.isNan || y.isNan) = true → let fl := if x.isSig || y.isSig then flagNV else 0
      numAdd mode x y = (.nan false, fl) ∧ numMul x y = (.nan false, fl) ∧ numDiv x y = (.nan false, fl) ∧ numLt x y = false) ∧
    (∀ (mode : RMode) (p q n g : Bool) (m : Nat) (e : Int), let x : FpVal := .fin n m e g
      numAdd mode (.inf p) (.inf q) = (if p = q then (.inf p, 0) else (.nan false, flagNV)) ∧
      numAdd mode (.inf p) x = (.inf p, 0) ∧ numAdd mode x (.inf p) = (.inf p, 0) ∧ numMul (.inf p) (.inf q) = (.inf (p != q), 0) ∧
      numMul (.inf p) x = (if m = 0 then (.nan false, flagNV) else (.inf (p != n), 0)) ∧
      numMul x (.inf p) = (if m = 0 then (.nan false, flagNV) else (.inf (n != p), 0)) ∧
      numDiv (.inf p) (.inf q) = (.nan false, flagNV) ∧ numDiv (.inf p) x = (.inf (p != n), 0) ∧ numDiv x (.inf p) = (.zero (n != p), 0) ∧
      numSqrt (.inf p) = (if p then (.nan false, flagNV) else (.inf false, 0)) ∧ numSqrt (.nan p) = (.nan false, if p then flagNV else 0) ∧
      numLt (.inf p) (.inf q) = (p && !q) ∧ numLt (.inf p) x = p ∧ numLt x (.inf p) = !p) ∧
    (∀ (mode : RMode) (x y z : FpVal), numFma mode x y z = ((numAdd mode (numMul x y).1 z).1,
      (numMul x y).2 ||| (numAdd mode (numMul x y).1 z).2 ||| if x.isSig || y.isSig || z.isSig then flagNV else 0)) ∧
    (∀ x y : FpVal, let nan := x.isNan || y.isNan; let same := !nan && !numLt x y && !numLt y x
      let quiet : Flags := if x.isSig || y.isSig then flagNV else 0; let loud : Flags := if nan then flagNV else 0
      numCmp .eq x y = (same, quiet) ∧ numCmp .lt x y = (numLt x y, loud) ∧ numCmp .le x y = (numLt x y || same, loud) ∧ numCmp .un x y = (nan, quiet)) ∧
    (∀ (f : FF) (a b : Nat), let x := f.decode a; let y := f.decode b
      let less := fun (u v : FpVal) => numLt u v || (u.isZero && v.isZero && u.neg? && !v.neg?)
      let fl : Flags := if x.isSig || y.isSig then flagNV else 0
      ((x.isNan && y.isNan) = true → ∀ big, f.minMax big a b = (f.nanCode.getD 0, fl)) ∧
      (x.isNan = true → y.isNan = false → ∀ big, f.minMax big a b = (b, fl)) ∧ (x.isNan = false → y.isNan = true → ∀ big, f.minMax big a b = (a, fl)) ∧
      (x.isNan = false → y.isNan = false → f.minMax false a b = (if less y x then b else a, fl) ∧ f.minMax true a b = (if less x y then b else a, fl))) ∧
    (∀ (f : FF) (w : Nat), w < 2 ^ f.width → let c := w % 2 ^ (f.width - 1); let neg := w.testBit (f.width - 1)
      (c = 0 → f.classify w = if neg then 2 ^ 3 else 2 ^ 4) ∧ (0 < c → c < 2 ^ f.frac → f.classify w = if neg then 2 ^ 2 else 2 ^ 5) ∧
      (2 ^ f.frac ≤ c → c ≤ f.maxCode → f.classify w = if neg then 2 ^ 1 else 2 ^ 6) ∧
      (f.infCode = some c → f.classify w = if neg then 2 ^ 0 else 2 ^ 7) ∧ ∀ g, f.decode w = .nan g → f.classify w = if g then 2 ^ 8 else 2 ^ 9) ∧
    ∀ (lo hi : Int) (mode : RMode) (r : Nat), lo ≤ hi →
      (∀ g, FpVal.toRange lo hi mode r (.nan g) = (0, flagNV)) ∧ (∀ n, FpVal.toRange lo hi mode r (.inf n) = (if n then lo else hi, flagNV)) ∧
      ∀ (n : Bool) (m : Nat) (e : Int), let v := (m : Rat) * (2 : Rat) ^ e; let low := v.floor.toNat
        let k : Int := (if n then -1 else 1) * (chosen mode n r low (v - low) : Int)
        FpVal.toRange lo hi mode r (.fin n m e false) =
          if k < lo then (lo, flagNV) else if hi < k then (hi, flagNV) else (k, if v = low then 0 else flagNX)) ∧
  (∀ (s : State) (x : Ctx) (o : OpCvt) (a : BitVec 64), x.readA o.ea o.a = .ok a → Presented s x (.fcvt o) (.sreg o.d) →
      let n : FpVal := match o.src with
        | .f32 => numberIn .f32 a | .f64 => numberIn .f64 a | .bf16 => numberIn .bf16 a | .f16 => numberIn .f16 a
        | .s32 => .ofInt (a.truncate 32 : BitVec 32).toInt | .z32 => .ofInt (a.truncate 32 : BitVec 32).toNat
        | .s64 => .ofInt a.toInt | .z64 => .ofInt a.toNat
      let draw := (srDraw x.srseed).toNat
      let mode := x.rounding o.rm
      let float (f : FF) : BitVec 64 × Flags := (BitVec.ofNat 64 (f.round mode draw n).1, (f.round mode draw n).2)
      let int (lo hi : Int) : BitVec 64 × Flags := (BitVec.ofInt 64 (n.toRange lo hi mode draw).1, (n.toRange lo hi mode draw).2)
      let q := match o.dst with
        | .f32 => float .f32 | .f64 => float .f64 | .bf16 => float .bf16 | .f16 => float .f16
        | .s32 => int (-(2 ^ 31)) (2 ^ 31 - 1) | .z32 => int 0 (2 ^ 32 - 1) | .s64 => int (-(2 ^ 63)) (2 ^ 63 - 1) | .z64 => int 0 (2 ^ 64 - 1)
      Completes (.fcvt o) s fun t => ScalarDone s ((x.drawn mode).raiseFlags q.2) [o.a] o.d q.1 t)

/-! ### Vector instructions -/

/-- Integer operations on two elements of a type (R170). -/
def vectorIntForms : List ((OpV3 → Instr) × (Ty → Nat → Nat → Nat)) :=
  [(.vadd, fun t a b => (a + b) % 2 ^ t.width), (.vsub, fun t a b => wrapTo t.width ((a : Int) - b)),
   (.vmul, fun t a b => a * b % 2 ^ t.width), (.vmulh, fun t a b => wrapTo t.width (intOf t a * intOf t b / 2 ^ t.width)),
   (.vand, fun _ a b => a &&& b), (.vor, fun _ a b => a ||| b), (.vxor, fun _ a b => a ^^^ b),
   (.vshl, fun t a b => a * 2 ^ (b % t.width) % 2 ^ t.width), (.vshr, fun t a b => a / 2 ^ (b % t.width)),
   (.vsha, fun t a b => wrapTo t.width ((if a.testBit (t.width - 1) then (a : Int) - 2 ^ t.width else a) / 2 ^ (b % t.width))),
   (.vmin, fun t a b => if intOf t b < intOf t a then b else a), (.vmax, fun t a b => if intOf t a < intOf t b then b else a)]

/-- Writing elements under a mask takes the new lane where the mask governs it and the old one elsewhere, and lanes built from elements hold those elements, with side-bands of zero. Integer vector instructions compute every governed element and keep every other lane; VMAD adds to the old destination; VABS and VNEG act on the value of an integer type and on the sign bit of a floating-point one (R60, R161 to R163, R170). -/
def Obligations.VectorIntegerFormsWriteTheirElements : Prop :=
  ((∀ (ty : Ty) (m : BitVec 128) (new old : List Lane) (l : Nat), new.length = old.length → l < old.length →
      (mergeLanes ty m new old)[l]? = if governsLane ty m l then new[l]? else old[l]?) ∧
    (∀ (ty : Ty) (n : Nat) (es : List Nat), n % 2 = 0 → es.length = ty.count n →
      elemsOf ty (lanesOf ty n es) = es.map (· % 2 ^ ty.width) ∧ ∀ l ∈ lanesOf ty n es, l.blk = 0 ∧ l.band = 0)) ∧
  (∀ (s : State) (x : Ctx),
      (∀ (o : OpV3) (a b : List Lane), x.readV .a o.ea o.va = .ok a → x.readV .b o.ea o.vb = .ok b →
        (∀ p ∈ vectorIntForms, Presented s x (p.1 o) (.vreg o.vd) → Completes (p.1 o) s fun t =>
          VectorDone s x [o.va, o.vb] o.vd (mapElems o.ty x.width (x.m o.m) (x.v o.vd) fun k =>
            p.2 o.ty ((elemsOf o.ty a).getD k 0) ((elemsOf o.ty b).getD k 0)) t) ∧
        (x.vFull o.vd = true → Presented s x (.vmad o) (.vreg o.vd) → Completes (.vmad o) s fun t =>
          VectorDone s x [o.va, o.vb] o.vd (mapElems o.ty x.width (x.m o.m) (x.v o.vd) fun k =>
            ((elemsOf o.ty (x.v o.vd)).getD k 0 + (elemsOf o.ty a).getD k 0 * (elemsOf o.ty b).getD k 0) % 2 ^ o.ty.width) t)) ∧
      (∀ (o : OpV2) (a : List Lane), x.readV .a o.ea o.va = .ok a →
        ∀ p ∈ ([(.vabs, fun t v => if t.isInt then (intOf t v).natAbs % 2 ^ t.width else v % 2 ^ (t.width - 1)),
                (.vneg, fun t v => if t.isInt then wrapTo t.width (-(v : Int)) else v ^^^ 2 ^ (t.width - 1))]
                : List ((OpV2 → Instr) × (Ty → Nat → Nat))),
          Presented s x (p.1 o) (.vreg o.vd) → Completes (p.1 o) s fun t =>
            VectorDone s x [o.va] o.vd (mapElems o.ty x.width (x.m o.m) (x.v o.vd) fun k =>
              p.2 o.ty ((elemsOf o.ty a).getD k 0)) t))

/-- A mask instruction completed: mask `d` holds `w`, unless it is m0, and no other register changes (R60). -/
def MaskDone (s : State) (x : Ctx) (uses : List VReg) (d : BitVec 3) (w : BitVec 128) (t : State) : Prop :=
  ∃ z, Completed s z none t ∧ z = { x with vfe := z.vfe, mreg := z.mreg } ∧
    (∀ r, z.vFull r = (x.vFull r && !emptiedV uses r)) ∧ ∀ r, z.m r = if r = d ∧ d ≠ 0#3 then w else x.m r

/-- Compares write the mask bits of governed lanes and keep the others; mask logic, MPOP, MFIRST and VWIDTH act over the lanes of the
crew; VSEL takes va in governed lanes and vb elsewhere, side-bands included (R163, R171 to R173, R190). -/
def Obligations.VectorComparesMasksAndSelectComplete : Prop :=
  ∀ (s : State) (x : Ctx), x.width ≤ 128 →
    (∀ (o : OpVCmp) (a b : List Lane), x.readV .a o.ea o.va = .ok a → x.readV .b o.ea o.vb = .ok b →
      Presented s x (.vcmp o) .none → Completes (.vcmp o) s fun t => ∃ w, MaskDone s x [o.va, o.vb] o.k w t ∧
        ∀ l, l < x.width → w.getLsbD l =
          if governsLane o.ty (x.m o.m) l then
            (let k := if o.ty.width = 64 then l / 2 else l
             let u := (elemsOf o.ty a).getD k 0
             let v := (elemsOf o.ty b).getD k 0
             match o.cond with
             | .eq => u == v | .ne => u != v | .lt => decide (intOf o.ty u < intOf o.ty v) | .ge => decide (intOf o.ty v ≤ intOf o.ty u))
          else (x.m o.k).getLsbD l) ∧
    (∀ (o : OpVFCmp) (a b : List Lane), x.readV .a o.ea o.va = .ok a → x.readV .b o.ea o.vb = .ok b →
      Presented s x (.vfcmp o) .none → Completes (.vfcmp o) s fun t => ∃ w, MaskDone s (x.raiseFlags (unionFlags o.ty (x.m o.m) (o.ty.count x.width) fun k =>
          (numCmp o.cond ((ffOf o.ty).decode ((elemsOf o.ty a).getD k 0)) ((ffOf o.ty).decode ((elemsOf o.ty b).getD k 0))).2))
          [o.va, o.vb] o.k w t ∧
        ∀ l, l < x.width → w.getLsbD l =
          if governsLane o.ty (x.m o.m) l then
            (let k := if o.ty.width = 64 then l / 2 else l
             (numCmp o.cond ((ffOf o.ty).decode ((elemsOf o.ty a).getD k 0)) ((ffOf o.ty).decode ((elemsOf o.ty b).getD k 0))).1)
          else (x.m o.k).getLsbD l) ∧
    (∀ o : OpM3, ∀ p ∈ ([(.mand, fun a b => a &&& b), (.mor, fun a b => a ||| b), (.mxor, fun a b => a ^^^ b)]
        : List ((OpM3 → Instr) × (BitVec 128 → BitVec 128 → BitVec 128))),
      Presented s x (p.1 o) .none → Completes (p.1 o) s fun t => MaskDone s x [] o.d (p.2 (x.m o.a) (x.m o.b)) t) ∧
    (∀ d a, Presented s x (.mnot d a) .none → Completes (.mnot d a) s fun t => MaskDone s x [] d (x.m a ^^^ x.m 0) t) ∧
    (∀ d a, Presented s x (.mpop d a) (.sreg (d.zeroExtend 6)) → Completes (.mpop d a) s fun t =>
      ScalarDone s x [] (d.zeroExtend 6) (BitVec.ofNat 64 ((List.range x.width).filter fun l => (x.m a).getLsbD l).length) t) ∧
    (∀ d a, Presented s x (.mfirst d a) (.sreg (d.zeroExtend 6)) → Completes (.mfirst d a) s fun t =>
      ScalarDone s x [] (d.zeroExtend 6)
        (BitVec.ofNat 64 (((List.range x.width).find? fun l => (x.m a).getLsbD l).getD x.width)) t) ∧
    (∀ d ea, Presented s x (.vwidth d ea) (.sreg (d.zeroExtend 6)) → Completes (.vwidth d ea) s fun t =>
      ScalarDone s x [] (d.zeroExtend 6) (BitVec.ofNat 64 x.width) t) ∧
    (∀ (o : OpV3) (a b : List Lane), x.readV .a o.ea o.va = .ok a → x.readV .b o.ea o.vb = .ok b →
      Presented s x (.vsel o) (.vreg o.vd) → Completes (.vsel o) s fun t =>
        VectorDone s x [o.va, o.vb] o.vd ((List.range x.width).map fun l =>
          if governsLane o.ty (x.m o.m) l then a.getD l (.plain 0) else b.getD l (.plain 0)) t)

/-- Floating-point vector instructions compute each element exactly and round it once under FSTAT.RM (the functions of R175 once to FP32 and once to a narrower type), with the flags of the governed elements; VFMIN, VFMAX and VFCLASS are exact. The reciprocal and the reciprocal square root are exact to a unit far below the last bit, so that their rounding is correct; a power of two with an integer exponent and the logarithm of a power of two are exact, every other finite result of these two is inexact and lies between its neighbouring powers or integers, and the special inputs give the values and flags of the table (R167, R174 to R176). -/
def Obligations.VectorFloatingPointWritesItsElements : Prop :=
  (∀ (s : State) (x : Ctx),
      (∀ (o : OpV3) (a b : List Lane), x.readV .a o.ea o.va = .ok a → x.readV .b o.ea o.vb = .ok b →
        let g := ffOf o.ty
        let ea := fun k => g.decode ((elemsOf o.ty a).getD k 0)
        let eb := fun k => g.decode ((elemsOf o.ty b).getD k 0)
        let ed := fun k => g.decode ((elemsOf o.ty (x.v o.vd)).getD k 0)
        let done (f : Nat → FpVal × Flags) (t : State) : Prop :=
          let r := vecFp x o.ty (x.m o.m) (x.v o.vd) x.rm true f
          VectorDone s r.1 [o.va, o.vb] o.vd r.2 t
        (∀ p ∈ ([(.vfadd, fun m u v => numAdd m u v), (.vfsub, fun m u v => numAdd m u v.negate), (.vfmul, fun _ u v => numMul u v),
                 (.vfdiv, fun _ u v => numDiv u v)] : List ((OpV3 → Instr) × (RMode → FpVal → FpVal → FpVal × Flags))),
          Presented s x (p.1 o) (.vreg o.vd) → Completes (p.1 o) s (done fun k => p.2 x.rm (ea k) (eb k))) ∧
        (x.vFull o.vd = true →
          ∀ p ∈ ([(.vfma, fun m u v w => numFma m u v w), (.vfms, fun m u v w => numFma m u v w.negate),
                  (.vfnma, fun m u v w => numFma m u.negate v w)] : List ((OpV3 → Instr) × (RMode → FpVal → FpVal → FpVal → FpVal × Flags))),
            Presented s x (p.1 o) (.vreg o.vd) → Completes (p.1 o) s (done fun k => p.2 x.rm (ea k) (eb k) (ed k))) ∧
        (∀ p ∈ ([(.vfmin, false), (.vfmax, true)] : List ((OpV3 → Instr) × Bool)),
          Presented s x (p.1 o) (.vreg o.vd) → Completes (p.1 o) s fun t =>
            let r := fun k => g.minMax p.2 ((elemsOf o.ty a).getD k 0) ((elemsOf o.ty b).getD k 0)
            VectorDone s (x.raiseFlags (unionFlags o.ty (x.m o.m) (o.ty.count x.width) fun k => (r k).2)) [o.va, o.vb] o.vd
              (mapElems o.ty x.width (x.m o.m) (x.v o.vd) fun k => (r k).1) t)) ∧
      (∀ (o : OpV2) (a : List Lane), x.readV .a o.ea o.va = .ok a →
        let ea := fun k => (ffOf o.ty).decode ((elemsOf o.ty a).getD k 0)
        (Presented s x (.vfsqrt o) (.vreg o.vd) → Completes (.vfsqrt o) s fun t =>
          let r := vecFp x o.ty (x.m o.m) (x.v o.vd) x.rm true fun k => numSqrt (ea k)
          VectorDone s r.1 [o.va] o.vd r.2 t) ∧
        (∀ p ∈ ([(.vfrcp, numRcp), (.vfrsq, numRsq), (.vfexp2, numExp2), (.vflog2, numLog2)] : List ((OpV2 → Instr) × (FpVal → FpVal × Flags))),
          Presented s x (p.1 o) (.vreg o.vd) → Completes (p.1 o) s fun t =>
            let r := vecFp x o.ty (x.m o.m) (x.v o.vd) x.rm (o.ty != .f32) fun k =>
              let q := FF.f32.round .rne 0 (p.2 (ea k)).1
              (FF.f32.decode q.1, (p.2 (ea k)).2 ||| q.2)
            VectorDone s r.1 [o.va] o.vd r.2 t) ∧
        (Presented s x (.vfclass o) (.vreg o.vd) → Completes (.vfclass o) s fun t =>
          VectorDone s x [o.va] o.vd (mapElems o.ty x.width (x.m o.m) (x.v o.vd) fun k =>
            (ffOf o.ty).classify ((elemsOf o.ty a).getD k 0)) t))) ∧
  ((∀ (n : Bool) (m : Nat) (e : Int), let x : FpVal := .fin n m e false; let a := (m : Rat) * (2 : Rat) ^ e; let v := exactValue x
      (numRcp x = numDiv (.fin false 1 0 false) x) ∧ (m = 0 → numRcp x = (.inf n, flagDZ)) ∧
      (m ≠ 0 → n = false → ∃ q k g, numRsq x = (.fin false q k g, 0) ∧ 2 ^ 90 ≤ q ∧ ((q : Rat) * (2 : Rat) ^ k) ^ 2 * a ≤ 1 ∧
        1 < (((q : Rat) + 1) * (2 : Rat) ^ k) ^ 2 * a ∧ (g = false ↔ ((q : Rat) * (2 : Rat) ^ k) ^ 2 * a = 1)) ∧
      (m ≠ 0 → n = true → numRsq x = (.nan false, flagNV)) ∧ (m = 0 → numRsq x = (.inf n, flagDZ)) ∧
      (-320 ≤ e → ∀ i : Int, -256 < i → i < 256 →
        (v = i → ∃ q k, numExp2 x = (.fin false q k false, 0) ∧ exactValue (.fin false q k false) = (2 : Rat) ^ i) ∧
        (-256 < v → v < 256 → (i : Rat) < v → v < (i : Rat) + 1 → ∃ q k, numExp2 x = (.fin false q k true, 0) ∧ 2 ^ 199 ≤ q ∧
          (2 : Rat) ^ i ≤ (q : Rat) * (2 : Rat) ^ k ∧ ((q : Rat) + 1) * (2 : Rat) ^ k ≤ (2 : Rat) ^ (i + 1))) ∧
      (v ≤ -256 → (FF.f32.round .rne 0 (numExp2 x).1) = (0, flagNX ||| flagUF) ∧ (numExp2 x).2 = 0) ∧
      (256 ≤ v → (FF.f32.round .rne 0 (numExp2 x).1) = (0x7F800000, flagOF ||| flagNX) ∧ (numExp2 x).2 = 0) ∧
      (m = 0 → numLog2 x = (.inf true, flagDZ)) ∧ (m ≠ 0 → n = true → numLog2 x = (.nan false, flagNV)) ∧
      (n = false → ∀ i : Int, (a = (2 : Rat) ^ i → numLog2 x = (.ofInt i, 0)) ∧
        (m < 2 ^ 320 → (2 : Rat) ^ i < a → a < (2 : Rat) ^ (i + 1) → ∃ p q, numLog2 x = (.fin p q (-120) true, 0) ∧
          let low : Int := if p then -((q : Int) + 1) else q
          i * 2 ^ 120 ≤ low ∧ low + 1 ≤ (i + 1) * 2 ^ 120))) ∧
    (∀ n : Bool, numRcp (.inf n) = (.zero n, 0) ∧ numRsq (.inf n) = (if n then (.nan false, flagNV) else (.zero false, 0)) ∧
      numExp2 (.inf n) = (if n then (.zero false, 0) else (.inf false, 0)) ∧
      numLog2 (.inf n) = (if n then (.nan false, flagNV) else (.inf false, 0))) ∧
    ∀ g : Bool, let answer : FpVal × Flags := (.nan false, if g then flagNV else 0)
      numRcp (.nan g) = answer ∧ numRsq (.nan g) = answer ∧ numExp2 (.nan g) = answer ∧ numLog2 (.nan g) = answer)

/-- The E2M1 code of element `t` of a block (R267). -/
def blockCode (l : Lane) (t : Nat) : Nat := l.data.toNat / 16 ^ t % 16

/-- The magnitude of a finite number. -/
def magnitude (x : FpVal) : Rat := if exactValue x < 0 then -exactValue x else exactValue x

/-- An exact finite number. -/
def isExact (x : FpVal) : Prop := ∃ n m e, x = .fin n m e false

/-- VCVT converts and writes zero past the elements converted; VQUANT forms one block of eight elements in each lane under the tensor scale that the destination holds, by the least block scale that fits; VDEQ gives each element of a block its value; VDOT adds the exact products of a lane to the destination; VBDOT accumulates the exact block products of the governed lanes, rounding once for each; E2M1 and E3M5 codes hold their values, and a NaN scale makes NaN (R177 to R182, R265, R266, R280, R281). Where the spec leaves it open this is the model's choice: log entry 17. -/
def Obligations.VectorConversionsAndDotProductsWriteTheirElements : Prop :=
  ((∀ c : Nat, c < 0xFF → isExact (e3m5 (BitVec.ofNat 8 c)) ∧ exactValue (e3m5 (BitVec.ofNat 8 c)) =
      if c < 32 then (c : Rat) / 128 else (1 + ((c % 32 : Nat) : Rat) / 32) * (2 : Rat) ^ (((c / 32 : Nat) : Int) - 3)) ∧
    e3m5 0xFF#8 = .nan false ∧
    ((List.range 16).map fun c => exactValue (FF.e2m1.decode c)) =
      [0, 1 / 2, 1, 3 / 2, 2, 3, 4, 6, 0, -1 / 2, -1, -3 / 2, -2, -3, -4, -6] ∧
    (∀ a b : Lane, (a.blk = 0xFF ∨ b.blk = 0xFF → blockDot a b = .nan false) ∧
      (a.blk ≠ 0xFF → b.blk ≠ 0xFF → isExact (blockDot a b) ∧ exactValue (blockDot a b) =
        ((List.range 8).foldl (fun acc t => acc + exactValue (FF.e2m1.decode (blockCode a t)) * exactValue (FF.e2m1.decode (blockCode b t))) 0) *
          exactValue (e3m5 a.blk) * exactValue (e3m5 b.blk))) ∧
    (∀ (w : Nat) (fl : Flags) (c : FpVal), let p := numAdd .rne (FF.f32.decode w) c; let q := FF.f32.round .rne 0 p.1
      accStep (w, fl) c = (q.1, fl ||| p.2 ||| q.2)) ∧
    (∀ (l : Lane) (t : Nat), t < 8 → (l.blk = 0xFF → blockElem l t = (.nan false, 0)) ∧
      (l.blk ≠ 0xFF → isExact (FF.bf16.decode l.band.toNat) → isExact (blockElem l t).1 ∧ (blockElem l t).2 = 0 ∧
        exactValue (blockElem l t).1 = exactValue (FF.e2m1.decode (blockCode l t)) * exactValue (e3m5 l.blk) * exactValue (FF.bf16.decode l.band.toNat))) ∧
    (∀ (mode : RMode) (ps : List (FpVal × Flags)), (∀ p ∈ ps, isExact p.1 ∧ p.2 = 0) → isExact (numTotal mode ps).1 ∧ (numTotal mode ps).2 = 0 ∧
      exactValue (numTotal mode ps).1 = ps.foldl (fun acc p => acc + exactValue p.1) 0) ∧
    ∀ (band : BitVec 16) (xs : List FpVal) (mode : RMode) (ds : List Nat), xs.length = 8 → let g := FF.bf16.decode band.toNat
      let bad := ¬(isExact g ∧ 0 < exactValue g) ∨ ∃ x ∈ xs, x.isNan = true ∨ ∃ n, x = .inf n
      (bad → quantBlock band xs mode ds = (⟨0, 0xFF, band⟩, flagNV)) ∧
      (¬bad → (∀ x ∈ xs, isExact x) → ∃ (l : Lane) (fl : Flags), quantBlock band xs mode ds = (l, fl) ∧ l.band = band ∧ l.blk ≠ 0xFF ∧
        let fits := fun (c : Nat) => ∀ x ∈ xs, magnitude x ≤ 6 * exactValue (e3m5 (BitVec.ofNat 8 c)) * exactValue g
        (fits l.blk.toNat ∧ (∀ c, c < l.blk.toNat → ¬fits c) ∨ l.blk = 0xFE ∧ ¬fits 0xFE) ∧
        (∀ t x, xs[t]? = some x → x.isZero = true → blockCode l t = if x.neg? then 8 else 0) ∧
        ∃ fls : Nat → Flags, fl = ((List.range 8).foldl (fun acc t => acc ||| fls t) 0) &&& (flagOF ||| flagNX) ∧
          ∀ t x, xs[t]? = some x → (x.isZero = true → fls t = 0) ∧ (x.isZero = false →
            Rounded .e2m1 mode (ds.getD t 0) x.neg? (magnitude x / (exactValue g * exactValue (e3m5 l.blk))) (blockCode l t, fls t)))) ∧
  (∀ (s : State) (x : Ctx),
      (∀ (o : OpVCvt) (a : List Lane), x.readV .a o.ea o.va = .ok a →
        (Presented s x (.vcvt o) (.vreg o.vd) → Completes (.vcvt o) s fun t =>
          let nd := o.dst.count x.width
          let mode := if o.dst.isInt && o.src.isInt then .rne else x.rm
          let rs := (List.range nd).map fun k =>
            if k < o.src.count x.width then cvtElem o.dst o.src mode ((x.draws mode nd).getD k 0) ((elemsOf o.src a).getD k 0) else (0, 0)
          VectorDone s ((x.afterDraws mode nd).raiseFlags (unionFlags o.dst (x.m o.m) nd fun k => (rs.getD k (0, 0)).2)) [o.va] o.vd
            (mergeLanes o.dst (x.m o.m) (lanesOf o.dst x.width (rs.map Prod.fst)) (x.v o.vd)) t) ∧
        (x.vFull o.vd = true → Presented s x (.vquant o) (.vreg o.vd) → Completes (.vquant o) s fun t =>
          let es := (elemsOf o.src a).map (numOf o.src)
          let ds := x.draws x.rm (8 * x.width)
          let block := fun j =>
            let band := ((x.v o.vd).getD j (.plain 0)).band
            if j < o.src.count x.width / 8 then quantBlock band ((es.drop (8 * j)).take 8) x.rm ((ds.drop (8 * j)).take 8)
            else (⟨0, 0, band⟩, 0)
          VectorDone s ((x.afterDraws x.rm (8 * x.width)).raiseFlags
              (unionFlags .f32 (x.m o.m) x.width fun j => (((List.range x.width).map block).getD j (.plain 0, 0)).2)) [o.va] o.vd
            (mergeLanes .f32 (x.m o.m) (((List.range x.width).map block).map Prod.fst) (x.v o.vd)) t) ∧
        (Presented s x (.vdeq o) (.vreg o.vd) → Completes (.vdeq o) s fun t =>
          let r := vecFp x o.dst (x.m o.m) (x.v o.vd) x.rm true fun k => blockElem (a.getD (k / 8) (.plain 0)) (k % 8)
          VectorDone s r.1 [o.va] o.vd r.2 t)) ∧
      (∀ (o : OpV3) (a b : List Lane), x.readV .a o.ea o.va = .ok a → x.readV .b o.ea o.vb = .ok b → x.vFull o.vd = true →
        let pairs := fun l => List.zip (laneElems o.ty.width (a.getD l (.plain 0)).data) (laneElems o.ty.width (b.getD l (.plain 0)).data)
        let old := fun l => ((x.v o.vd).getD l (.plain 0)).data.toNat
        (o.ty.isInt = true → Presented s x (.vdot o) (.vreg o.vd) → Completes (.vdot o) s fun t =>
          VectorDone s x [o.va, o.vb] o.vd (mapElems .z32 x.width (x.m o.m) (x.v o.vd) fun l =>
            wrapTo 32 ((pairs l).foldl (fun acc p => acc + intOf o.ty p.1 * intOf o.ty p.2) (old l : Int))) t) ∧
        (o.ty.isInt = false → Presented s x (.vdot o) (.vreg o.vd) → Completes (.vdot o) s fun t =>
          let r := vecFp x .f32 (x.m o.m) (x.v o.vd) x.rm true fun l =>
            let sum := numTotal x.rm ((pairs l).map fun p => numMul ((ffOf o.ty).decode p.1) ((ffOf o.ty).decode p.2))
            let q := numAdd x.rm (FF.f32.decode (old l)) sum.1
            (q.1, sum.2 ||| q.2)
          VectorDone s r.1 [o.va, o.vb] o.vd r.2 t) ∧
        (Presented s x (.vbdot o) (.vreg o.vd) → Completes (.vbdot o) s fun t =>
          let cs := ((List.range x.width).filter fun j => (x.m o.m).getLsbD j).map fun j =>
            blockDot (a.getD j (.plain 0)) (b.getD j (.plain 0))
          let r := fun l => cs.foldl accStep (old l, 0)
          VectorDone s (x.raiseFlags (unionFlags .f32 (x.m o.m) x.width fun l => (r l).2)) [o.va, o.vb] o.vd
            (mapElems .f32 x.width (x.m o.m) (x.v o.vd) fun l => (r l).1) t)))

/-- One addition of a reduction, rounded under a mode that draws nothing. -/
def roundedSum (f : FF) (mode : RMode) (a b : Nat) : Nat := (f.round mode 0 (numAdd mode (f.decode a) (f.decode b)).1).1

/-- Additions one at a time, in order; none of an empty list. -/
def chainOf (add : Nat → Nat → Nat) : List Nat → Nat
  | [] => 0
  | a :: l => l.foldl add a

/-- The balanced pairwise tree over the 2^k elements from number `i` on: what is missing is passed over (R184). -/
def treeOf (add : Nat → Nat → Nat) (es : Nat → Option Nat) : Nat → Nat → Option Nat
  | 0, i => es i
  | k + 1, i =>
    match treeOf add es k i, treeOf add es k (i + 2 ^ k) with
    | some a, some b => some (add a b)
    | some a, none => some a
    | none, o => o

/-- An integer VREDADD, VREDMAX or VREDMIN reduces the governed elements exactly into a scalar register; a floating-point VREDADD adds them in ascending order under REPRO, and otherwise by a balanced tree in each member, the members' sums in an order the part chooses; VSCAN writes the running sums of the governed elements, a chain in ascending order. The generator advances once for each addition (R167, R183 to R185). Where the spec leaves it open this is the model's choice: log entries 18, 83, 84, 85. -/
def Obligations.VectorReductionsAndScansComplete : Prop :=
  ((∀ (x : Ctx) (t : Ty) (m : BitVec 128) (es : List Nat) (k levels : Nat),
      (t, levels) ∈ [(Ty.f32, 3), (.bf16, 4), (.f16, 4), (.f64, 2)] → x.width % 8 = 0 → es.length = t.count x.width →
      let f := if t = .f64 then FF.f64 else FF.f32
      let code := fun (i : Nat) => if governs t m i then (es[i]?).map fun e => (redIn t e).1 else none
      let add := roundedSum f x.rm; let some' := (List.range es.length).filterMap code
      (redSum x t m es k).2.1 = (if x.rm = RMode.sr then (List.range (some'.length - 1)).foldl (fun g _ => srDraw g) x.srseed else x.srseed) ∧
      (x.rm ≠ RMode.sr → x.repro = true → (redSum x t m es k).1 = chainOf add some') ∧
      (x.rm ≠ RMode.sr → x.repro = false → 0 < x.width → ∃ others : List Nat,
        others.Perm ((List.range (x.width / 8 - 1)).filterMap fun j => treeOf add code levels (2 ^ levels * (j + 1))) ∧
        (redSum x t m es k).1 = chainOf add ((treeOf add code levels 0).toList ++ others))) ∧
    ∀ (f : FF) (mode : RMode) (before after : List (Nat × Bool)) (e : Nat) (st : BitVec 32 × Flags), mode ≠ RMode.sr →
      (scanFp f mode (before ++ (e, true) :: after) none st).1[before.length]? = some
        (match (before.filter Prod.snd).map Prod.fst ++ [e] with
          | [] => 0
          | a :: l => l.foldl (roundedSum f mode) (f.round .rne 0 (f.decode a)).1)) ∧
  (∀ (s : State) (x : Ctx) (o : OpV2) (a : List Lane), x.readV .a o.ea o.va = .ok a →
      let es := elemsOf o.ty a
      let gs := (governed o.ty (x.m o.m) es).map (intOf o.ty)
      let d : SReg := o.vd.zeroExtend 6
      let done (y : Ctx) (w : BitVec 64) (t : State) : Prop := ScalarDone s.bump (y.useV o.va) [] d w t
      (Presented s x (.vredadd o) (.sreg d) →
        (o.ty.isInt = true → Completes (.vredadd o) s (done x (BitVec.ofInt 64 (gs.foldl (· + ·) 0)))) ∧
        (o.ty.isInt = false → Completes (.vredadd o) s fun t =>
          let r := redSum x o.ty (x.m o.m) es (Config.memberOrder s.tick)
          done (({ x with srseed := if x.rm = RMode.sr then r.2.1 else x.srseed }).raiseFlags r.2.2) (BitVec.ofNat 64 r.1) t)) ∧
      (∀ p ∈ ([(.vredmax, true), (.vredmin, false)] : List ((OpV2 → Instr) × Bool)), Presented s x (p.1 o) (.sreg d) →
        (o.ty.isInt = true → Completes (p.1 o) s (done x (BitVec.ofInt 64
          (gs.foldl (fun u v => if p.2 then max u v else min u v) (if p.2 then (rangeOf o.ty).1 else (rangeOf o.ty).2))))) ∧
        (o.ty.isInt = false → Completes (p.1 o) s fun t =>
          let r := redPick o.ty p.2 (governed o.ty (x.m o.m) es)
          done (x.raiseFlags r.2) (BitVec.ofNat 64 r.1) t)) ∧
      (Presented s x (.vscan o) (.vreg o.vd) →
        let flagged := es.zipIdx.map fun p => (p.1, governs o.ty (x.m o.m) p.2)
        (o.ty.isInt = true → Completes (.vscan o) s fun t => VectorDone s x [o.va] o.vd
          (mergeLanes o.ty (x.m o.m) (lanesOf o.ty x.width (scanInt o.ty.width flagged 0)) (x.v o.vd)) t) ∧
        (o.ty.isInt = false → Completes (.vscan o) s fun t =>
          let r := scanFp (ffOf o.ty) x.rm flagged none (x.srseed, 0)
          VectorDone s (({ x with srseed := if x.rm = RMode.sr then r.2.1 else x.srseed }).raiseFlags r.2.2) [o.va] o.vd
            (mergeLanes o.ty (x.m o.m) (lanesOf o.ty x.width r.1) (x.v o.vd)) t)))

/-- VPERM, VSHUF and VROT move lanes with their side-bands; VBCAST copies a scalar to every governed element; VEXTR takes one element and
VINS replaces one, an index past the last element raising ILLEGAL with SUB 0x05 (R186 to R189). -/
def Obligations.VectorLaneMovementAndExchangeComplete : Prop :=
  ∀ (s : State) (x : Ctx),
    let at' := fun (ls : List Lane) (l : Nat) => ls.getD l (.plain 0)
    (∀ (o : OpV3) (a b : List Lane), x.readV .a o.ea o.va = .ok a → x.readV .b o.ea o.vb = .ok b →
      Presented s x (.vperm o) (.vreg o.vd) → Completes (.vperm o) s fun t =>
        VectorDone s x [o.va, o.vb] o.vd (mergeLanes o.ty (x.m o.m) ((List.range x.width).map fun l =>
          if o.ty.width = 64 then
            let p := (at' b (l / 2 * 2)).data.toNat % 64
            if p < x.width / 2 then at' a (2 * p + l % 2) else .plain 0
          else
            let k := (at' b l).data.toNat % 128
            if k < x.width then at' a k else .plain 0) (x.v o.vd)) t) ∧
    (∀ (o : OpShuf) (a b : List Lane), x.readV .a o.ea o.va = .ok a →
      (if o.pat = .rev ∨ o.pat = .swp2 then b = a else x.readV .b o.ea o.vb = .ok b) →
      Presented s x (.vshuf o) (.vreg o.vd) → Completes (.vshuf o) s fun t =>
        let h := x.width / 2
        let pick := fun l => match o.pat with
          | .ziplo => at' (if l % 2 = 0 then a else b) (l / 2)
          | .ziphi => at' (if l % 2 = 0 then a else b) (h + l / 2)
          | .uzpev => if l < h then at' a (2 * l) else at' b (2 * (l - h))
          | .uzpod => if l < h then at' a (2 * l + 1) else at' b (2 * (l - h) + 1)
          | .catlo => if l < h then at' a l else at' b (l - h)
          | .cathi => if l < h then at' a (h + l) else at' b l
          | .rev => at' a (x.width - 1 - l)
          | .swp2 => at' a (l ^^^ 1)
        VectorDone s x [o.va, if o.pat = .rev ∨ o.pat = .swp2 then o.va else o.vb] o.vd
          (mergeLanes .f32 (x.m o.m) ((List.range x.width).map pick) (x.v o.vd)) t) ∧
    (∀ (o : OpV3) (a : List Lane) (b : BitVec 64), x.readV .a o.ea o.va = .ok a → x.read .b o.ea (o.vb.zeroExtend 6) = .ok b →
      Presented s x (.vrot o) (.vreg o.vd) → Completes (.vrot o) s fun t =>
        let n := if o.ty.width = 64 then 2 * (b.toNat % (x.width / 2)) else b.toNat % x.width
        VectorDone s x [o.va] o.vd (mergeLanes o.ty (x.m o.m) ((List.range x.width).map fun l =>
          at' a ((l + x.width - n) % x.width)) (x.v o.vd)) t) ∧
    (∀ (o : OpV2) (a : BitVec 64), x.read .a o.ea (o.va.zeroExtend 6) = .ok a → Presented s x (.vbcast o) (.vreg o.vd) →
      Completes (.vbcast o) s fun t => VectorDone s x [] o.vd
        (if o.ty = .fp4b then mergeLanes .f32 (x.m o.m)
            ((List.range x.width).map fun _ => ⟨a.truncate 32, a.extractLsb' 32 8, a.extractLsb' 48 16⟩) (x.v o.vd)
         else mapElems o.ty x.width (x.m o.m) (x.v o.vd) fun _ => a.toNat % 2 ^ o.ty.width) t) ∧
    (∀ (o : OpVX) (a : List Lane) (b : BitVec 64), x.readV .a o.ea o.va = .ok a → x.read .b o.ea (o.vb.zeroExtend 6) = .ok b →
      let n := if o.ty = .fp4b then x.width else o.ty.count x.width
      let d : SReg := o.vd.zeroExtend 6
      Presented s x (.vextr o) (.sreg d) →
        (b.toNat < n → Completes (.vextr o) s fun t => ScalarDone s (x.useV o.va) [] d
          (if o.ty = .fp4b then ((at' a b.toNat).band ++ 0#8 ++ (at' a b.toNat).blk ++ (at' a b.toNat).data : BitVec 64)
           else BitVec.ofInt 64 (intOf o.ty ((elemsOf o.ty a).getD b.toNat 0))) t) ∧
        (n ≤ b.toNat → exec (.vextr o) s = .next (s.raise x (.vextr o) ⟨0x01, 0x05, 0, 0⟩))) ∧
    (∀ (o : OpVX) (a b : BitVec 64), x.read .a o.ea (o.va.zeroExtend 6) = .ok a → x.read .b o.ea (o.vb.zeroExtend 6) = .ok b →
      x.vFull o.vd = true → Presented s x (.vins o) (.vreg o.vd) →
        let n := if o.ty = .fp4b then x.width else o.ty.count x.width
        (b.toNat < n → Completes (.vins o) s fun t => ∃ ls, VectorDone s x [] o.vd ls t ∧
          ∀ l, l < x.width →
            let hit := if o.ty = .fp4b then l = b.toNat else if o.ty.width = 64 then l / 2 = b.toNat else l = b.toNat * o.ty.width / 32
            ls[l]? = some (if hit then
                if o.ty = .fp4b then ⟨a.truncate 32, a.extractLsb' 32 8, a.extractLsb' 48 16⟩
                else at' (lanesOf o.ty x.width ((elemsOf o.ty (x.v o.vd)).set b.toNat (a.toNat % 2 ^ o.ty.width))) l
              else at' (x.v o.vd) l)) ∧
        (n ≤ b.toNat → exec (.vins o) s = .next (s.raise x (.vins o) ⟨0x01, 0x05, 0, 0⟩)))

/-! ### Loads and stores -/

/-- What the checks of a global address `va` make of instruction `i`, once those before them in the order of R194 have passed: ALIGN, ACCESS for
bits above the address space, beyond the carve-out's grant, without write permission and for an atomic that the host does not execute, PAGE of an
unmapped page or a malformed entry, ACCESS for a synchronisation object of another device, WATCH. Carve-out storage that has still to come is waited for, and a
translation that no cache holds is walked for (R191 to R194, R260, R305, R374). -/
def GlobalChecked (s : State) (x : Ctx) (i : Instr) (va : BitVec 64) (n : Nat) (write : Bool) (fn : Option AmoFn) (sync : Bool) : Prop :=
  let a := va.toNat; let l := s.lease x.lease; let known := s.cached s.cur x a
  let failed := x.walk.failed.find? fun p => p.1 == a / 65536
  let trap := fun (cause sub : BitVec 8) (detail : Nat) => exec i s = .next (s.raise x i ⟨cause, sub, va, detail⟩)
  (a % n ≠ 0 → trap 0x06 0x00 0) ∧
  (a % n = 0 →
    (2 ^ 57 ≤ a → trap 0x05 0x00 0) ∧
    (a < 2 ^ 57 → carveBase ≤ a →
      (l.grant * 1048576 ≤ a - carveBase → trap 0x05 0x08 0) ∧
      (a - carveBase < l.grant * 1048576 → l.granted * 1048576 ≤ a - carveBase → exec i s = .next (s.block x))) ∧
    (a < carveBase →
      (∀ e, known = some e → write = true → e.w = false → trap 0x05 0x05 0) ∧
      (∀ e f, known = some e → (write = true → e.w = true) → (e.loc a).isHost = true → fn = some f → f ∉ [AmoFn.add, .swap, .cas] →
        trap 0x05 0x06 0) ∧
      (∀ p, known = none → failed = some p → trap 0x04 (if write then 0x01 else 0x00) (if p.2 then 2 else 1)) ∧
      (known = none → failed = none → exec i s = .next (s.startWalk x ⟨x.lease, a, write, some s.cur, s.dieOf s.cur.cell⟩))) ∧
    ∀ p, s.translate s.cur x a write fn = .ok p →
      (sync = true → isRemote p = true → trap 0x05 0x07 0) ∧
      (sync = false ∨ isRemote p = false → (l.watches.any fun q => q.hits false a n write) = true →
        trap 0x09 (if write then 0x01 else 0x00) 0))

/-- LD reads its own scratchpad at issue and departs towards another cell or global memory; ST writes its own scratchpad at issue and posts its bytes, lowest first, towards another cell or global memory; a misaligned p: address raises ALIGN, one past the scratchpad ACCESS with SUB 0x03, and one that a debugger watches WATCH, each with its address (R191, R192, R194, R195, R196, R199). Where the spec leaves it open this is the model's choice: log entries 91, 94. -/
def Obligations.ScalarLoadsAndStoresComplete : Prop :=
  (∀ (s : State) (x : Ctx) (o : OpMem) (base : BitVec 64), x.readA o.ea o.base = .ok base →
      ∀ p ∈ ([(.ldB, 1), (.ldH, 2), (.ldW, 4), (.ldD, 8)] : List ((OpMem → Instr) × Nat)), Presented s x (p.1 o) (.sreg o.d) →
        let a : BitVec 64 := base + o.imm.signExtend 64 * BitVec.ofNat 64 p.2
        (o.sp = .p → ∀ k, s.cell? s.cur.cell = some k →
          (a.toNat % p.2 ≠ 0 → exec (p.1 o) s = .next (s.raise x (p.1 o) ⟨0x06, 0, a, 0⟩)) ∧
          (a.toNat % p.2 = 0 → k.limit < a.toNat + p.2 → exec (p.1 o) s = .next (s.raise x (p.1 o) ⟨0x05, 0x03, a, 0⟩)) ∧
          (a.toNat % p.2 = 0 → a.toNat + p.2 ≤ k.limit →
            ((s.lease x.lease).watches.any fun q => q.hits true (padWord s.cur.cell a.toNat) p.2 false) = true →
            exec (p.1 o) s = .next (s.raise x (p.1 o) ⟨0x09, 0x00, BitVec.ofNat 64 (padWord s.cur.cell a.toNat), 0⟩)) ∧
          (a.toNat % p.2 = 0 → a.toNat + p.2 ≤ k.limit →
            ((s.lease x.lease).watches.any fun q => q.hits true (padWord s.cur.cell a.toNat) p.2 false) = false →
            s.padReady x [.pad s.cur.cell a.toNat p.2 false] = .ok () → Completes (p.1 o) s fun t =>
              ScalarDone s x [o.base] o.d (BitVec.ofNat 64 (leNat (k.get a.toNat p.2 false))) t)) ∧
        (o.sp = .c → ∀ k off, s.padReach x base o.imm p.2 0 0 false false = .ok (k, off) →
          let outs := [s.padOut x k off p.2 false [] false false 0]
          MayDepart s x ⟨false, false, true⟩ outs → Completes (p.1 o) s (Departed s x (p.1 o) (.sreg o.d) ⟨false, false, true⟩ outs)) ∧
        (o.sp = .g → GlobalChecked s x (p.1 o) a p.2 false none false) ∧
        (o.sp = .g → a.toNat % p.2 = 0 → ∀ l, s.reach x a.toNat p.2 false none = .ok l →
          let outs := [s.rwOut x l p.2 false [] false 0 false]
          MayDepart s x ⟨false, false, false⟩ outs → Completes (p.1 o) s (Departed s x (p.1 o) (.sreg o.d) ⟨false, false, false⟩ outs))) ∧
  (∀ (s : State) (x : Ctx) (o : OpMem) (base data : BitVec 64), x.readA o.ea o.base = .ok base → x.readB o.ea o.d = .ok data →
      ∀ p ∈ ([(.stB, 1), (.stH, 2), (.stW, 4), (.stD, 8)] : List ((OpMem → Instr) × Nat)), Presented s x (p.1 o) .none →
        let a : BitVec 64 := base + o.imm.signExtend 64 * BitVec.ofNat 64 p.2
        let bs := leBytes p.2 data.toNat
        (o.sp = .p → ∀ k, s.cell? s.cur.cell = some k →
          (a.toNat % p.2 ≠ 0 → exec (p.1 o) s = .next (s.raise x (p.1 o) ⟨0x06, 0, a, 0⟩)) ∧
          (a.toNat % p.2 = 0 → k.limit < a.toNat + p.2 → exec (p.1 o) s = .next (s.raise x (p.1 o) ⟨0x05, 0x03, a, 0⟩)) ∧
          (a.toNat % p.2 = 0 → a.toNat + p.2 ≤ k.limit →
            ((s.lease x.lease).watches.any fun q => q.hits true (padWord s.cur.cell a.toNat) p.2 true) = true →
            exec (p.1 o) s = .next (s.raise x (p.1 o) ⟨0x09, 0x01, BitVec.ofNat 64 (padWord s.cur.cell a.toNat), 0⟩)) ∧
          (a.toNat % p.2 = 0 → a.toNat + p.2 ≤ k.limit →
            ((s.lease x.lease).watches.any fun q => q.hits true (padWord s.cur.cell a.toNat) p.2 true) = false →
            s.padReady x [.pad s.cur.cell a.toNat p.2 false] = .ok () → Completes (p.1 o) s fun t =>
              ∃ z, Used x [o.base, o.d] z ∧ Completed (s.padPut s.cur.cell a.toNat bs false) z none t)) ∧
        (o.sp = .c → ∀ k off, s.padReach x base o.imm p.2 0 0 false true = .ok (k, off) →
          let outs := [s.padOut x k off p.2 true bs false false 0]
          MayPost s x none outs → Completes (p.1 o) s (Posted s x [o.base, o.d] [] none outs)) ∧
        (o.sp = .g → GlobalChecked s x (p.1 o) a p.2 true none false) ∧
        (o.sp = .g → a.toNat % p.2 = 0 → ∀ l, s.reach x a.toNat p.2 true none = .ok l →
          let outs := [s.rwOut x l p.2 true bs false 0 false]
          MayPost s x none outs → Completes (p.1 o) s (Posted s x [o.base, o.d] [] none outs)))

/-- A write at a scratchpad port on which nothing is parked: the bytes stand where they were written, every other byte of the
scratchpad is as before, every word they touch is full, and nothing else of the machine changes (R70, R71). -/
def Obligations.ScratchpadWritesLandAndFillTheirWords : Prop :=
  ∀ (s : State) (id : CellId) (k : Cell) (off : Nat) (bs : List Byte) (back : Bool), s.cell? id = some k → k.parked = [] →
    Mem.wf k.pad = true → bs ≠ [] → ∃ j : Cell, s.padPut id off bs back = s.setCell id j ∧
      j = { k with pad := j.pad, empties := j.empties } ∧ Mem.wf j.pad = true ∧
      (∀ i (h : i < bs.length), j.pad.read (k.phys off back + i) = bs[i]) ∧
      (∀ a, (a < k.phys off back ∨ k.phys off back + bs.length ≤ a) → j.pad.read a = k.pad.read a) ∧
      ∀ w, j.isFull w = (k.isFull w || decide (k.phys off back / 8 ≤ w ∧ w ≤ (k.phys off back + bs.length - 1) / 8))

/-- A c: or x: base word names a cell of the rectangle and an offset of its scratchpad, checked in this order: alignment, the cell, the
reserved bits, the 17-bit offset, the back half's existence, the range (R73, R74, R191, R204). Where the spec leaves it open this is the model's choice: log entries 9, 16. -/
def Obligations.RemoteScratchpadAddressesAreChecked : Prop :=
  ∀ (s : State) (c : CtxId) (base : BitVec 64) (imm : BitVec 9) (size : Nat) (back : Bool) (r : Rect),
    s.rect? c.slot = some r →
    let id : CellId := ⟨c.slot, base.toNat / 2 ^ 56 % 128, base.toNat / 2 ^ 48 % 64⟩
    let off := base.toNat % 2 ^ 17 + imm.toNat * size
    let word := BitVec.ofNat 64 (base.toNat / 2 ^ 17 * 2 ^ 17 + off)
    let answer := s.remoteTarget c base imm size size 0 0 back;
      (off % size ≠ 0 → answer = .error (.trap ⟨0x06, 0, word, 0⟩)) ∧
      (off % size = 0 → (r.image.w ≤ id.col ∨ r.image.h ≤ id.row) → answer = .error (.trap ⟨0x05, 0x01, word, 0⟩)) ∧
      (off % size = 0 → id.col < r.image.w → id.row < r.image.h → ∀ k, s.cell? id = some k →
        let reserved := base.getLsbD 63 = true ∨ base.extractLsb' 54 2 ≠ 0 ∨ base.extractLsb' 17 31 ≠ 0
        (reserved → answer = .error (.trap ⟨0x05, 0x02, word, 0⟩)) ∧
        (¬reserved → 2 ^ 17 ≤ off → answer = .error (.trap ⟨0x05, 0x03, word, 0⟩)) ∧
        (¬reserved → off < 2 ^ 17 → back = true → k.xch = false → answer = .error (.trap ⟨0x05, 0x04, word, 0⟩)) ∧
        (¬reserved → off < 2 ^ 17 → (back = true → k.xch = true) →
          let limit := if back then 65536 else k.limit
          answer = if limit < off + size then .error (.trap ⟨0x05, 0x03, word, 0⟩) else .ok (id, off)))

/-- The address of a governed lane of LDG or STG (R198). -/
def laneVa (o : OpGath) (base : BitVec 64) (idx : List Lane) (l : Nat) : BitVec 64 :=
  base + ((idx.getD l (.plain 0)).data.setWidth 64) * (if o.x4 then 4 else 1)

/-- LDV and STV move eight lanes for each member of the crew: in p: at issue, each member its own scratchpad, in c: and g: by requests, one for each piece within
a 128-byte line; LDG and STG move one lane for each governed lane, and with none LDG completes at once. The address of a one-cell context's vector access in g: is checked as
a whole, that of LDG and STG lane by lane, the first failing lane deciding; an index vector that is empty is EMPTYREAD with SUB 0x03 or 0x13 (R38, R194, R195, R197,
R198). The traps of the c: and p: forms are not stated here. Where the spec leaves it open this is the model's choice: log entries 86, 91, 94. -/
def Obligations.VectorLoadsAndStoresComplete : Prop :=
  ∀ (s : State) (x : Ctx) (base : BitVec 64),
    (∀ o : OpMem, x.readA o.ea o.base = .ok base →
      let d : VReg := o.d.truncate 5
      (Presented s x (.ldv o) (.vreg d) →
        (o.sp = .p → ∀ off ms, s.crewOffset x base o.imm false = .ok (off, ms) →
          s.padReady x (ms.map fun k => .pad k off 32 false) = .ok () → Completes (.ldv o) s fun t =>
            ∃ z, WroteV x [] d (ms.flatMap fun k => (lanesOfBytes noBand 8 0 0 (s.padGet k off 32)).map Prod.snd) z ∧
              ∃ y, Used z [o.base] y ∧ Completed s y none t) ∧
        (o.sp = .c → ∀ ts, s.memberTargets x base o.imm false = .ok ts →
          let outs := ts.map fun t => s.padOut x t.2.1 t.2.2 32 false [] false true (8 * t.1)
          MayDepart s x ⟨false, false, true⟩ outs → Completes (.ldv o) s (Departed s x (.ldv o) (.vreg d) ⟨false, false, true⟩ outs)) ∧
        (o.sp = .g → x.width = 8 → GlobalChecked s x (.ldv o) (base + o.imm.signExtend 64 * 32#64) 32 false none false) ∧
        (o.sp = .g → ∀ va ps, globalVa base o.imm 32 = .ok va → s.vectorPieces x va false = .ok ps →
          let outs := ps.map fun p => s.rwOut x p.2.1 p.2.2 false [] true (p.1 / 4) true
          MayDepart s x ⟨false, false, false⟩ outs →
            Completes (.ldv o) s (Departed s x (.ldv o) (.vreg d) ⟨false, false, false⟩ outs))) ∧
      (∀ ls, x.readV .b o.ea d = .ok ls → Presented s x (.stv o) .none →
        let bs := laneBytes ls
        (o.sp = .p → ∀ off ms, s.crewOffset x base o.imm true = .ok (off, ms) →
          s.padReady x (ms.map fun k => .pad k off 32 false) = .ok () → Completes (.stv o) s fun t =>
            Completed ((List.zip (List.range ms.length) ms).foldl
              (fun u m => u.padPut m.2 off ((bs.drop (32 * m.1)).take 32) false) s) ((x.useS o.base).useV d) none t) ∧
        (o.sp = .c → ∀ ts, s.memberTargets x base o.imm true = .ok ts →
          let outs := ts.map fun t => s.padOut x t.2.1 t.2.2 32 true ((bs.drop (32 * t.1)).take 32) false true (8 * t.1)
          MayPost s x none outs → Completes (.stv o) s (Posted s x [o.base] [d] none outs)) ∧
        (o.sp = .g → x.width = 8 → GlobalChecked s x (.stv o) (base + o.imm.signExtend 64 * 32#64) 32 true none false) ∧
        (o.sp = .g → ∀ va ps, globalVa base o.imm 32 = .ok va → s.vectorPieces x va true = .ok ps →
          let outs := ps.map fun p => s.rwOut x p.2.1 p.2.2 true ((bs.drop p.1).take p.2.2) true (p.1 / 4) false
          MayPost s x none outs → Completes (.stv o) s (Posted s x [o.base] [d] none outs)))) ∧
    (∀ o : OpGath, x.readA o.ea o.base = .ok base → x.vFull o.idx = false →
      let producer := x.inFlight (.vreg o.idx) = true
      (Presented s x (.ldg o) (.vreg (o.d.truncate 5)) → EmptyRead s x (.ldg o) o.ea producer 0x03) ∧
      (∀ ls, x.readV .b o.ea (o.d.truncate 5) = .ok ls → Presented s x (.stg o) .none → EmptyRead s x (.stg o) o.ea producer 0x03)) ∧
    (∀ (o : OpGath) (idx : List Lane), x.readA o.ea o.base = .ok base → x.readIndex o.ea o.idx = .ok idx →
      let d : VReg := o.d.truncate 5
      (∀ (l : Nat) (write : Bool), l < x.width → (x.m o.m).getLsbD l = true →
        (∀ k, k < l → (x.m o.m).getLsbD k = true → (laneVa o base idx k).toNat % 4 = 0 ∧
          ∃ p, s.reach x (laneVa o base idx k).toNat 4 write none = .ok p) →
        (write = false → Presented s x (.ldg o) (.vreg d) → GlobalChecked s x (.ldg o) (laneVa o base idx l) 4 false none false) ∧
        (∀ ls, write = true → x.readV .b o.ea d = .ok ls → Presented s x (.stg o) .none →
          GlobalChecked s x (.stg o) (laneVa o base idx l) 4 true none false)) ∧
      (∀ ps, s.gatherPlaces x o base idx false = .ok ps → Presented s x (.ldg o) (.vreg d) →
        let outs := ps.map fun p => s.rwOut x p.2 4 false [] true p.1 false
        (ps = [] → Completes (.ldg o) s fun t => Completed s (((x.useS o.base).useV o.idx).markV d true) none t) ∧
        (ps ≠ [] → MayDepart s x ⟨false, false, false⟩ outs →
          Completes (.ldg o) s (Departed s x (.ldg o) (.vreg d) ⟨false, false, false⟩ outs))) ∧
      (∀ ls ps, x.readV .b o.ea d = .ok ls → s.gatherPlaces x o base idx true = .ok ps → Presented s x (.stg o) .none →
        let outs := ps.map fun p => s.rwOut x p.2 4 true (leBytes 4 (ls.getD p.1 (.plain 0)).data.toNat) true p.1 false
        MayPost s x none outs → Completes (.stg o) s (Posted s x [o.base] [d, o.idx] none outs)))

/-! ### Atomics, deques and synchronisation -/

/-- LDF, LDP and STE depart towards the scratchpad port of their word, STX posts into the back half of its target. AMO, AMO.c, DQPOP and DQSTEAL depart with the context's sequence number and await a reply, ST.op and ST.op.c are posted with it, and DQPUSH, which refuses an all-ones item, leaves once every older write is acknowledged (R200, R204, R206 to R208, R210, R211). Where the spec leaves it open this is the model's choice: log entry 19. -/
def Obligations.PresenceAtomicsAndDequesDepart : Prop :=
  (∀ (s : State) (x : Ctx) (base : BitVec 64),
      (∀ (o : OpMem) (k : CellId) (off : Nat), x.readA o.ea o.base = .ok base →
        (s.presTarget x o base false = .ok (k, off) → ∀ p ∈ ([(.ldf, .ldf), (.ldp, .ldp)] : List ((OpMem → Instr) × PresOp)), Presented s x (p.1 o) (.sreg o.d) →
          let kind : Kind := ⟨false, false, o.sp != .p⟩
          MayDepart s x kind [s.presOut x k off p.2] →
            Completes (p.1 o) s (Departed s x (p.1 o) (.sreg o.d) kind [s.presOut x k off p.2])) ∧
        (∀ data, x.readB o.ea o.d = .ok data → s.presTarget x o base true = .ok (k, off) → Presented s x (.ste o) .none →
          MayDepart s x ⟨true, false, false⟩ [s.presOut x k off (.ste data)] →
            Completes (.ste o) s (Departed s x (.ste o) .none ⟨true, false, false⟩ [s.presOut x k off (.ste data)]))) ∧
      (∀ (o : OpStx) (data : BitVec 64) (k : CellId) (off : Nat), x.readA o.ea o.base = .ok base → x.readB o.ea o.d = .ok data →
        s.padReach x base o.imm 8 0 0 true true = .ok (k, off) → Presented s x (.stx o) .none →
          let outs := [s.padOut x k off 8 true (leBytes 8 data.toNat) true false 0]
          MayPost s x none outs → Completes (.stx o) s (Posted s x [o.base, o.d] [] none outs))) ∧
  (∀ (s : State) (x : Ctx) (a b : BitVec 64) (l : Loc),
      (∀ o : OpAmo, x.readA o.ea o.a = .ok a → x.readB o.eb o.b = .ok b →
        ∀ p ∈ ([.amo, .amoC] : List (OpAmo → Instr)), Presented s x (p o) (.sreg o.d) →
          (o.fn = .cas → x.sFull o.d = false → exec (p o) s = .next (s.raise x (p o) ⟨0x02, 0x12, 0, 0⟩)) ∧
          ((o.fn = .cas → x.sFull o.d = true) → GlobalChecked s x (p o) a 8 true (some o.fn) false)) ∧
      (∀ o : OpSt, x.readA o.ea o.a = .ok a → x.readB o.eb o.b = .ok b → ∀ p ∈ ([.stOp, .stOpC] : List (OpSt → Instr)),
        Presented s x (p o) .none → GlobalChecked s x (p o) a 8 true (some o.fn) false) ∧
      (∀ o : OpPush, x.readA o.ea o.a = .ok a → x.readB o.eb o.b = .ok b → b ≠ -1#64 → Presented s x (.dqpush o) .none →
        GlobalChecked s x (.dqpush o) a 64 true none false) ∧
      (∀ o : OpPop, x.readA o.ea o.a = .ok a → ∀ p ∈ ([.dqpop, .dqsteal] : List (OpPop → Instr)), Presented s x (p o) (.sreg o.d) →
        GlobalChecked s x (p o) a 64 true none false) ∧
      (∀ (o : OpAmo) (c : BitVec 64), x.readA o.ea o.a = .ok a → x.readB o.eb o.b = .ok b → (o.fn = .cas → x.read .d false o.d = .ok c) →
        (o.fn ≠ .cas → c = 0) → s.rPlace x a 8 true (some o.fn) = .ok l →
        ∀ p ∈ ([(.amo, false), (.amoC, true)] : List ((OpAmo → Instr) × Bool)), Presented s x (p.1 o) (.sreg o.d) →
          let outs := [s.amoOut x l o.fn b c true p.2]
          MayDepart s x ⟨false, true, false⟩ outs → Completes (p.1 o) s (Departed s x (p.1 o) (.sreg o.d) ⟨false, true, false⟩ outs)) ∧
      (∀ o : OpSt, x.readA o.ea o.a = .ok a → x.readB o.eb o.b = .ok b → s.rPlace x a 8 true (some o.fn) = .ok l →
        ∀ p ∈ ([(.stOp, false), (.stOpC, true)] : List ((OpSt → Instr) × Bool)), Presented s x (p.1 o) .none →
          let outs := [s.amoOut x l o.fn b 0 false p.2]
          MayPost s x (some x.seq) outs → Completes (p.1 o) s (Posted s x [o.a, o.b] [] (some x.seq) outs)) ∧
      (∀ o : OpPush, x.readA o.ea o.a = .ok a → x.readB o.eb o.b = .ok b → Presented s x (.dqpush o) .none →
        (b = -1#64 → exec (.dqpush o) s = .next (s.raise x (.dqpush o) ⟨0x01, 0x05, 0, 0⟩)) ∧
        (b ≠ -1#64 → s.rPlace x a 64 true none = .ok l → x.tags = [] → (∀ p ∈ x.pend, p.atomic = false) →
          (∀ q ∈ x.rq, q.inflight writesFirst = false) →
          let outs := [s.dqOut x l a.toNat (.push b)]
          MayDepart s x ⟨true, true, false⟩ outs → Completes (.dqpush o) s (Departed s x (.dqpush o) .none ⟨true, true, false⟩ outs))) ∧
      (∀ o : OpPop, x.readA o.ea o.a = .ok a → s.rPlace x a 64 true none = .ok l →
        ∀ p ∈ ([(.dqpop, .pop), (.dqsteal, .steal)] : List ((OpPop → Instr) × DqOp)), Presented s x (p.1 o) (.sreg o.d) →
          let outs := [s.dqOut x l a.toNat p.2]
          MayDepart s x ⟨false, true, false⟩ outs → Completes (p.1 o) s (Departed s x (p.1 o) (.sreg o.d) ⟨false, true, false⟩ outs)))

/-- ACQ, ACQS and WAITA depart and hold their context; REL leaves once every older write is acknowledged and completes as it leaves; BAR and XBAR depart after the context's reads and writes are performed at their scope, XBAR only where a scratchpad is in exchange mode. FENCE waits for the context's older accesses that its kind names and then completes; its acquiring kinds drop the die copies of the lease on the context's die and, from rectangle scope on, have later reads served at the home (R205, R216 to R219, R292, R296). Where the spec leaves it open this is the model's choice: log entries 19, 20. -/
def Obligations.SynchronisationAndFencesComplete : Prop :=
  (∀ (s : State) (x : Ctx) (a b : BitVec 64) (l : Loc),
      (∀ o : OpSync, x.readA o.ea o.a = .ok a →
        (∀ p ∈ ([.acq, .acqs] : List (OpSync → Instr)), Presented s x (p o) .none → GlobalChecked s x (p o) a 64 false none true) ∧
        (Presented s x (.rel o) .none → GlobalChecked s x (.rel o) a 64 true none true) ∧
        (∀ p ∈ ([(.acq, false), (.acqs, true)] : List ((OpSync → Instr) × Bool)), s.syncPlace x a false = .ok l →
          Presented s x (p.1 o) .none →
            let outs : List Out := [⟨s.sliceNo l, .mem l 0, fun dst => .acquire (s.syncReq x l a.toNat p.2 dst)⟩]
            MayDepart s x ⟨true, false, false⟩ outs → Completes (p.1 o) s (Departed s x (p.1 o) .none ⟨true, false, false⟩ outs)) ∧
        (s.syncPlace x a true = .ok l → Presented s x (.rel o) .none → x.tags = [] → (∀ p ∈ x.pend, p.atomic = false) →
          (∀ q ∈ x.rq, q.inflight writesFirst = false) → s.permitsFree s.cur.cell [s.sliceNo l] = true → Completes (.rel o) s fun t => Untouched s t ∧
            t.sent = s.sent ++ [.homeRelease (s.syncReq x l a.toNat false (.ctxAck s.cur x.handle 64 (s.sliceNo l) none))] ∧
            ∃ z, Used x [o.a] z ∧ t.ctx? s.cur = some (z.advance none))) ∧
      (∀ o : OpWaita, x.readA o.ea o.a = .ok a → x.readB o.eb o.b = .ok b → Presented s x (.waita o) .none →
        GlobalChecked s x (.waita o) a (if o.w32 then 4 else 8) false none false) ∧
      (∀ o : OpWaita, x.readA o.ea o.a = .ok a → x.readB o.eb o.b = .ok b →
        s.rPlace x a (if o.w32 then 4 else 8) false none = .ok l → Presented s x (.waita o) .none →
          let outs : List Out := [⟨s.sliceNo l, .mem l (if o.w32 then 4 else 8),
            fun dst => .waita ⟨x.src s.cur, x.lease, l, o.w32, o.cond, b, dst, s.ctxClass x⟩⟩]
          MayDepart s x ⟨true, false, false⟩ outs → Completes (.waita o) s (Departed s x (.waita o) .none ⟨true, false, false⟩ outs)) ∧
      (∀ (rect : Bool) (i : Instr) (ev : Event),
        (i = .bar rect ∧ ev = .barArrival s.cur rect s.clock.nextId) ∨
          (i = .xbar rect ∧ ev = .xbarArrival s.cur rect s.clock.nextId ∧ s.exchanges s.cur x rect ≠ []) →
        Presented s x i .none → (∀ p ∈ x.pend, p.hold = true ∧ p.atomic = false) → x.tags = [] →
          (∀ q ∈ x.rq, q.inflight isRead = false ∧ q.inflight writesFirst = false) → Completes i s fun t =>
          t.sent = s.sent ++ [ev] ∧ t.mem = s.mem ∧ ∃ p : Pend, p.id = s.clock.nextId ∧ p.instr = i ∧ p.left = 1 ∧ p.hold = true ∧
            t.ctx? s.cur = some ((({ x with fenced := x.fenced || rect } : Ctx).addPend p).advance none))) ∧
  (∀ (s : State) (x : Ctx) (e : Bool) (kind : FenceKind) (sc : Scope), Presented s x (.fence e kind sc) .none →
      let reads := (∀ p ∈ x.pend, p.hold = true) ∧ ∀ q ∈ x.rq, q.inflight isRead = false
      let near := sc = .cell ∨ sc = .crew
      let writes := (∀ p ∈ x.pend, p.atomic = false) ∧ (∀ q ∈ x.rq, q.inflight writesFirst = false) ∧ ∀ w ∈ x.tags, near ∧ w.own = true ∧ w.taken = 0
      let met := match kind with
        | .acq => reads
        | .rel => writes
        | .full => reads ∧ writes
        | .ack => x.tags = []
      let acquires := kind = .acq ∨ kind = .full
      (met → Completes (.fence e kind sc) s fun t => Completed
        (if acquires then s.dropCopies x.lease (s.dieOf s.cur.cell) fun _ => true else s)
        (if acquires then { x with fenced := x.fenced || !decide near } else x) none t) ∧
      (¬met → exec (.fence e kind sc) s = .next (s.block x)))

/-! ### Channels, command issue and system instructions -/

/-- CHGET and CHPEEK read claimed tokens of an input channel into a register that is then full and push nothing, CHPUT sends the tokens of
a register on an output channel in order, and CHSTAT reads a channel's status word; a token that the firing has not claimed is ILLEGAL with
SUB 0x05. Reading an element that a memory node delivers drops the die copies of the lease on the reader's die (R77, R78, R212 to R214,
R292, R299). Where the spec leaves it open this is the model's choice: log entries 28, 106, 116. -/
def Obligations.ChannelInstructionsMoveTokens : Prop :=
  ∀ (s : State) (x : Ctx),
    let many := fun (v : Bool) => if v then x.width / 8 else 1
    let dest := fun (v : Bool) (d : SReg) => if v then Dest.vreg (d.truncate 5) else Dest.sreg d
    let holds := fun (v : Bool) (d : SReg) (ls : List Lane) (z : Ctx) =>
      if v then (z = { x with vreg := z.vreg, vfe := z.vfe, sfe := z.sfe } ∧ z.v (d.truncate 5) = ls ∧ z.vFull (d.truncate 5) = true ∧
          ∀ r, r ≠ d.truncate 5 → z.v r = x.v r ∧ z.vFull r = x.vFull r)
      else (z = { x with sreg := z.sreg, sfe := z.sfe } ∧ z.sFull d = true ∧
          (d ≠ 0#6 → (z.s d).extractLsb' 0 32 = (ls.headD (.plain 0)).data) ∧ ∀ r, r ≠ d → z.s r = x.s r)
    let seen := fun (e : Edge) =>
      if s.nodes.any (fun p => p.1.1 == s.cur.slot && p.2.node == e.src) then s.dropCopies x.lease (s.dieOf s.cur.cell) fun _ => true else s
    (∀ (o : OpGet) (n : Nat) (e : Edge), s.inChan s.cur.slot x.node o.ch.toNat = some (n, e) → e.vec = o.v →
      Presented s x (.chget o) (dest o.v o.d) →
        (e.cused + many o.v ≤ e.cclaim → Completes (.chget o) s fun t => ∃ z,
          holds o.v o.d (((e.buf.drop e.cused).take (many o.v)).flatMap fun b => Tok.lanes b.tok) z ∧
          Completed (((seen e).setEdge s.cur.slot n { e with cused := e.cused + many o.v }).bump) z none t) ∧
        (e.cclaim < e.cused + many o.v → exec (.chget o) s = .next (s.raise x (.chget o) ⟨0x01, 0x05, 0, 0⟩))) ∧
    (∀ (o : OpPeek) (a : BitVec 64) (n : Nat) (e : Edge), x.readA o.ea o.a = .ok a →
      s.inChan s.cur.slot x.node o.ch.toNat = some (n, e) → e.vec = o.v → Presented s x (.chpeek o) (dest o.v o.d) →
        (a.toNat + many o.v ≤ e.cclaim → Completes (.chpeek o) s fun t => ∃ z,
          holds o.v o.d (((e.buf.drop a.toNat).take (many o.v)).flatMap fun b => Tok.lanes b.tok) z ∧ Completed (seen e).bump z none t) ∧
        (e.cclaim < a.toNat + many o.v → exec (.chpeek o) s = .next (s.raise x (.chpeek o) ⟨0x01, 0x05, 0, 0⟩))) ∧
    (∀ (o : OpPut) (n : Nat) (e : Edge) (ts : List (List Lane)), s.outChan s.cur.slot x.node o.ch.toNat = some (n, e) → e.vec = o.v →
      (if o.v then ∃ ls, x.readV .a o.ea (o.a.truncate 5) = .ok ls ∧ ts = splitTokens (x.width / 8) ls
       else ∃ a, x.readA o.ea o.a = .ok a ∧ ts = [[⟨a.truncate 32, 0, 0⟩]]) → Presented s x (.chput o) .none →
        (e.pused + many o.v ≤ e.pclaim → Completes (.chput o) s fun t => Untouched s t ∧
          t.edge? s.cur.slot n = some { e with pused := e.pused + many o.v } ∧
          t.sent = s.sent ++ ts.map (fun ls => .channelTokenArrival s.cur.slot n (.data ls)) ∧
          t.ctx? s.cur = some ((if o.v then x.useV (o.a.truncate 5) else x.useS o.a).advance none)) ∧
        (e.pclaim < e.pused + many o.v → exec (.chput o) s = .next (s.raise x (.chput o) ⟨0x01, 0x05, 0, 0⟩))) ∧
    (∀ o : OpStat, Presented s x (.chstat o) (.sreg o.d) → Completes (.chstat o) s fun t =>
      ScalarDone s x [] o.d (s.chanStatus s.cur.slot x.node o.out o.ch.toNat) t)

/-- SCMD sends the table word at CMDBASE plus n, its operands patched where the word asks for it and the token register written into it;
the token register holds zero, is empty and has a command in flight. SCMDW does the same and stands among the unfinished instructions
until its token fills (R67, R69, R111, R114, R220). -/
def Obligations.CommandIssueSendsThePatchedWord : Prop :=
  ∀ (s : State) (x : Ctx) (o : OpCmd) (a b : BitVec 64) (e : CWord), x.readA o.ea o.a = .ok a → x.readB o.eb o.b = .ok b →
    x.tableWord ((x.cmdbase.toNat + o.n.toNat) * 16) = some e → e.extractLsb' 96 6 = 0 →
    (e.getLsbD 112 = false → o.a = 0#6) → (e.getLsbD 113 = false → o.b = 0#6) →
    let ab : BitVec 64 := if e.getLsbD 112 then a else e.extractLsb' 0 64
    let c : BitVec 32 := if e.getLsbD 113 then b.truncate 32 else e.extractLsb' 64 32
    let w : CWord := (e.extractLsb' 102 26 ++ o.d ++ c ++ ab : BitVec 128)
    s.portLoad s.cur.slot w < 16 →
    let marked (z : Ctx) : Prop := (o.d = 0#6 → z.sreg = x.sreg ∧ z.tokens = x.tokens) ∧
      (o.d ≠ 0#6 → z.s o.d = 0 ∧ z.sFull o.d = false ∧ z.tokens = x.tokens ++ [o.d] ∧ ∀ r, r ≠ o.d → z.s r = x.s r) ∧
      z = { x with sreg := z.sreg, sfe := z.sfe, tokens := z.tokens }
    (Presented s x (.scmd o) (.sreg o.d) → Completes (.scmd o) s fun t => Untouched s t ∧ t.sent = s.sent ++ [.command s.cur w] ∧
      ∃ z, marked z ∧ t.ctx? s.cur = some (z.advance none)) ∧
    (Presented s x (.scmdw o) (.sreg o.d) → Completes (.scmdw o) s fun t => Untouched s t ∧ t.sent = s.sent ++ [.command s.cur w] ∧
      ∃ z p, marked z ∧ p.id = s.clock.nextId ∧ p.instr = .scmdw o ∧ p.left = 1 ∧ p.hold = true ∧
        t.ctx? s.cur = some ((z.addPend p).advance none))

/-- Taking a trap: the unfinished older instructions and then the trapping one form the replay queue, the last-result registers are saved, TRAPCAUSE holds cause and SUB, TRAPADDR the address and TRAPPC the resume address. Where a handler is installed and none runs, ACT is set and fetch goes on at its entry; without one, or in a handler, the context stops where it is and a fault is on its way to its rectangle. TRAP raises its trap with the code as SUB once every older instruction has completed, SYSC where a handler is installed and BKPT where no debugger is attached likewise; their entry is COMPLETE and TRAPPC is the word after them. Otherwise SYSC and BKPT halt their context and post a record (R80, R84, R88, R132, R254). Where the spec leaves it open this is the model's choice: log entries 11, 12, 13, 89. -/
def Obligations.TrapsSaveTheContextAndAreRaised : Prop :=
  (∀ (s : State) (x : Ctx) (i : Instr) (tr : Trap), s.ctx? s.cur = some x → x.injecting = none →
      let e := x.entryFor i (encodeWord i) x.pc 3
      let resume := if isJump i then x.pc + 1 else (x.loopBack x.pc).2
      let t := s.raise x i tr
      let saved (y : Ctx) : Prop := y.rq = x.pend.map Pend.entry ++ [e] ∧ y.pend = [] ∧ y.snapL = [x.s 60#6, x.s 61#6, x.s 62#6, x.s 63#6] ∧
        y.snapV = [x.v 30#5, x.v 31#5] ∧ y.cause = tr.cause ∧ y.sub = tr.sub ∧ y.trapAddr = tr.addr ∧ y.trapPc = resume ∧
        y.sreg = x.sreg ∧ y.sfe = x.sfe ∧ y.vreg = x.vreg ∧ y.vfe = x.vfe ∧ y.mreg = x.mreg ∧ y.fstat = x.fstat
      Untouched s t ∧
      (x.trapEn = true → x.act = false → ∃ y, t.ctx? s.cur = some y ∧ saved y ∧ y.act = true ∧ y.stopped = false ∧ y.pc = x.trapBase ∧
        t.net.agenda = s.net.agenda) ∧
      (x.trapEn = false ∨ x.act = true → ∃ y, t.ctx? s.cur = some y ∧ saved y ∧ y.act = x.act ∧ y.stopped = true ∧ y.pc = x.pc ∧
        t.sent = s.sent ++ [.faultEvent s.cur.slot ⟨tr.cause.toNat, tr.sub.toNat, tr.addr, x.node, some s.cur, 0, 0, tr.detail⟩])) ∧
  (∀ (s : State) (x : Ctx) (code : BitVec 8), x.pend = [] → x.injecting = none →
      let raised (i : Instr) (cause : BitVec 8) (t : State) : Prop :=
        t = s.enterTrap s.cur (x.loopBack x.pc).1 ⟨cause, code, 0, 0⟩ [x.entryFor i (encodeWord i) x.pc 4] (x.pc + 1) false
      let halts (r : FaultRec) (t : State) : Prop :=
        ∃ u, Completed s { x with halted := true } none u ∧ t = u.postRecord x.lease r
      (Presented s x (.trap code) .none → Completes (.trap code) s (raised (.trap code) 0x10)) ∧
      (Presented s x (.sysc code) .none → Completes (.sysc code) s fun t =>
        if x.trapEn then raised (.sysc code) 0x12 t
        else ∃ r : FaultRec, r.typ = 0x05 ∧ r.cause = 0x12 ∧ r.detail0 = code.toNat ∧ r.handle = x.handle ∧ r.node = x.node ∧ halts r t) ∧
      (Presented s x (.bkpt code) .none → Completes (.bkpt code) s fun t =>
        if (s.lease x.lease).vfCtl.getLsbD 1
        then ∃ r : FaultRec, r.typ = 0x06 ∧ r.cause = 0x11 ∧ r.detail0 = code.toNat ∧ r.handle = x.handle ∧ r.node = x.node ∧ halts r t
        else raised (.bkpt code) 0x11 t))

/-- ERET leaves the handler: ACT is clear, l0 to l3, vl0 and vl1 are as the trap found them, the trap's replay queue is re-injected oldest first and fetch goes on at TRAPPC; it waits while that queue and the handler's unfinished instructions are more than 16. RPLY takes the oldest entry of the trap's queue: one that is COMPLETE leaves it with no other effect, one still to be executed is re-injected from inside the handler. RPLYS drops the oldest entry and leaves its destination full. Outside a handler, RPLY and RPLYS also with no entry, all three are ILLEGAL with SUB 0x05 (R84, R88, R256 to R258). Where the spec leaves it open this is the model's choice: log entry 92. -/
def Obligations.EretAndReplayLeaveTheHandlersTrap : Prop :=
  (∀ (s : State) (x : Ctx), Presented s x .eret .none →
      (x.act = true → 16 < x.pend.length + x.rq.length → exec .eret s = .next (s.block x)) ∧
      (x.act = true → x.pend.length + x.rq.length ≤ 16 → Completes .eret s fun t => ∃ y, t.ctx? s.cur = some y ∧ y.act = false ∧ y.inject = x.rq ∧ y.rq = [] ∧
        y.injecting = none ∧ y.injectBy = .eret ∧ y.pc = x.trapPc ∧
        (∀ a b c d, x.snapL = [a, b, c, d] → y.s 60#6 = a ∧ y.s 61#6 = b ∧ y.s 62#6 = c ∧ y.s 63#6 = d) ∧
        (∀ u v, x.snapV = [u, v] → y.v 30#5 = u ∧ y.v 31#5 = v) ∧ (∀ r : SReg, r.toNat < 60 → y.s r = x.s r) ∧
        (∀ r : VReg, r.toNat < 30 → y.v r = x.v r) ∧ y.sfe = x.sfe ∧ y.vfe = x.vfe ∧ y.mreg = x.mreg ∧ y.fstat = x.fstat ∧
        y.pend = x.pend ∧ t.mem = s.mem ∧ t.net = s.net) ∧
      (x.act = false → exec .eret s = .next (s.raise x .eret ⟨0x01, 0x05, 0, 0⟩))) ∧
  (∀ (s : State) (x : Ctx) (e : RqEntry) (rest : List RqEntry),
      (x.rq = e :: rest → x.act = true →
        (Presented s x .rply .none → e.decoded.any noReplay = false →
          (e.status = 4 → Completes .rply s fun t => Completed s { x with rq := rest } none t) ∧
          (e.status = 0 ∨ e.status = 3 → Completes .rply s fun t => t = s.setCtx s.cur
            { x with inject := e :: x.inject, injectBy := .rply, injecting := none, rq := { e with status := 4 } :: rest, hold := .free })) ∧
        (Presented s x .rplys .none → e.status ≠ 1 → Completes .rplys s fun t => ∃ z : Ctx, Completed s { z with rq := rest } none t ∧
          z = { x with sfe := z.sfe, vfe := z.vfe } ∧ (∀ r, e.file = 0 → z.sFull r = (x.sFull r || r == e.dest)) ∧
          (∀ r, e.file = 1 → z.vFull r = (x.vFull r || r == e.dest.truncate 5)))) ∧
      ((x.rq = [] ∨ x.act = false) → (Presented s x .rply .none → exec .rply s = .next (s.raise x .rply ⟨0x01, 0x05, 0, 0⟩)) ∧
        (Presented s x .rplys .none → exec .rplys s = .next (s.raise x .rplys ⟨0x01, 0x05, 0, 0⟩))))

/-- HALT stops its context once its older instructions have completed; CNTRD reads a counter of the lease's set; CNTCFG configures one and
refuses a reserved field or an unknown event; CARVE answers the smaller of its operand and the lease's limit and sends the repartition;
IDLE waits, and completes once the event it waited for has come (R255, R259 to R261). Where the spec leaves it open this is the model's choice: log entries 12, 27, 89, 110, 115. -/
def Obligations.HaltCounterCarveAndIdleComplete : Prop :=
  ∀ (s : State) (x : Ctx),
    (Presented s x .halt .none → x.pend = [] → Completes .halt s fun t => Completed s { x with halted := true } none t) ∧
    (∀ (d : SReg) (n : BitVec 3), Presented s x (.cntrd d n) (.sreg d) → Completes (.cntrd d n) s fun t =>
      ScalarDone s x [] d ((s.lease x.lease).counters[n.toNat].value.zeroExtend 64) t) ∧
    (∀ (a : SReg) (ea : Bool) (n : BitVec 3) (w : BitVec 64), x.readA ea a = .ok w → Presented s x (.cntcfg a ea n) .none →
      let bad := w.extractLsb' 24 40 ≠ 0 ∨ w.extractLsb' 16 5 ≠ 0 ∨ w.extractLsb' 12 3 ≠ 0 ∨ (w.extractLsb' 0 12).toNat ∉ eventCodes
      (bad → exec (.cntcfg a ea n) s = .next (s.raise x (.cntcfg a ea n) ⟨0x01, 0x05, 0, 0⟩)) ∧
      let settled := x.pend = [] ∧ x.tags = [] ∧ ∀ q ∈ x.rq, q.status ≠ 1
      (¬bad → ¬settled → exec (.cntcfg a ea n) s = .next (s.block x)) ∧
      (¬bad → settled → Completes (.cntcfg a ea n) s fun t => ∃ z u, Used x [a] z ∧ Completed s z none u ∧
        ∃ l : Lease, t = u.setLease x.lease l ∧ l = { u.lease x.lease with counters := l.counters } ∧
          l.counters[n.toNat] = ⟨if w.getLsbD 23 then 0 else (u.lease x.lease).counters[n.toNat].value, w &&& ~~~(1#64 <<< 23),
            if w.getLsbD 15 then some x.handle else none⟩ ∧
          ∀ m : BitVec 3, m ≠ n → l.counters[m.toNat] = (u.lease x.lease).counters[m.toNat])) ∧
    (∀ (o : OpR2) (a : BitVec 64), x.readA o.ea o.a = .ok a → Presented s x (.carve o) (.sreg o.d) →
      (2 ^ 32 ≤ a.toNat → exec (.carve o) s = .next (s.raise x (.carve o) ⟨0x01, 0x05, 0, 0⟩)) ∧
      (a.toNat < 2 ^ 32 → Completes (.carve o) s fun t =>
        let g := min a.toNat (s.lease x.lease).carveLimit
        ∃ u, ScalarDone s x [o.a] o.d (BitVec.ofNat 64 g) u ∧
          t = (u.setLease x.lease { u.lease x.lease with grant := g, granted := min (u.lease x.lease).granted g }).post 2 (.carveRepartition x.lease))) ∧
    (Presented s x .idle .none →
      (x.hold = .woken → Completes .idle s fun t => Completed s x none t) ∧
      (x.hold ≠ .woken → exec .idle s = .next (s.setCtx s.cur { x with injecting := none, hold := .idle })))

/-! ### Stream commands at their ports -/

/-- The stream command that an instruction is, with its CMDOP, the context that issued it and its word, the engine class of its
port and the CFLAGS bits that it may set (R113, R115). -/
def commandOf (i : Instr) : Option (CtxId × CWord × Nat × BitVec 6) :=
  (i.command?).map fun c =>
    (c.2.1, c.2.2,
      if c.1 < 0x06 then 1 else if c.1 < 0x10 ∨ c.1 = 0x18 ∨ c.1 = 0x19 then 2 else if c.1 = 0x10 then 4
        else if c.1 < 0x18 then 3 else 0,
      if c.1 = 0x02 then 7 else if c.1 < 0x06 ∨ c.1 = 0x10 ∨ c.1 = 0x19 then 1 else 0)

/-- Every one of the 18 stream commands that names another class of engine than its own, an engine that is not bound, a nonzero
reserved field or a CFLAGS bit that it does not define ends with BADCMD: its token register, if it names one, becomes full with bit 63 and PORT
0x07, and memory does not change. A command whose rectangle is gone has no effect (R68, R113, R115). Where the spec leaves it open this is the model's choice: log entry 75. -/
def Obligations.MalformedCommandsEndWithBadcmd : Prop :=
  ∀ (s : State) (i : Instr) (src : CtxId) (w : CWord) (cls : Nat) (flags : BitVec 6), commandOf i = some (src, w, cls, flags) →
    (s.ctx? src = none → exec i s = .next s) ∧
    (∀ x : Ctx, s.ctx? src = some x →
      (cmdClass w ≠ cls ∨ s.bound src.slot cls (cmdIndex w) = false ∨ cmdRsv w = true ∨ cmdFlags w &&& ~~~flags ≠ 0#6) →
      Completes i s fun t => t.mem = s.mem ∧ t.cells = s.cells ∧ t.net = s.net ∧
        (cmdToken w = 0#6 → t = s) ∧
        (0 < (cmdToken w).toNat → (cmdToken w).toNat < 60 → ∃ z, t.ctx? src = some z ∧
          z.s (cmdToken w) = 0x8000000000000700#64 ∧ z.sFull (cmdToken w) = true ∧
          (∀ r, r ≠ cmdToken w → z.s r = x.s r ∧ z.sFull r = x.sFull r) ∧ z.tokens = x.tokens.filter fun r => r != cmdToken w))

/-- A command passes checks 2 to 4 of its port: its engine class is `cls`, its engine is bound, and no reserved field and no CFLAGS bit
outside `flags` is set (R115). -/
structure AtPort (s : State) (src : CtxId) (w : CWord) (x : Ctx) (cls : Nat) (flags : BitVec 6) : Prop where
  here : s.ctx? src = some x
  own : cmdClass w = cls
  bound : s.bound src.slot cls (cmdIndex w) = true
  rsv : cmdRsv w = false
  defined : cmdFlags w &&& ~~~flags = 0#6

/-- `t` is `s` after command `w` of context `x` joined the queue of its port as its last command, with a name of its own and the words `list` that
its port has read for it; nothing else has changed (R222). -/
def Queued (s : State) (src : CtxId) (x : Ctx) (w : CWord) (p : Port) (list : List Nat) (t : State) : Prop :=
  t = ({ s with clock := { s.clock with nextId := s.clock.nextId + 1 } } : State).setQueue p
    (s.portQueue p ++ [⟨s.clock.nextId, src, x.handle, x.lease, w, false, [], list⟩])

/-- The commands of a streamer, of a matrix row and of a memory node join the queue of their engine where their operands pass the checks of their rule: SPOFF and GADDR aligned, at most 32 KiB, and inside the scratchpad; C.BIND where the rectangle is ARMED or RUNNING and the node not bound, C.UNBIND where the node is a bound source, C.STREAM and C.CONV where it is not bound; C.CONV is read from memory once, as it is accepted. At the head of its queue, where the node's state is looked at again, C.BIND binds the node, C.UNBIND ends its stream early, and C.STREAM sets the node's shape and fills its token with 0 (R222, R227, R231 to R237, R239, R240, R246, R247). Where the spec leaves it open this is the model's choice: log entries 38, 104. -/
def Obligations.EngineCommandsJoinTheirQueue : Prop :=
  (∀ (s : State) (src : CtxId) (w : CWord) (x : Ctx),
      let strm := Port.strm src.slot (cmdIndex w); let row := Port.mrow src.slot (cmdIndex w)
      let spoff := (w.extractLsb' 64 17).toNat; let gaddr := (w.extractLsb' 0 57).toNat
      (∀ k b, AtPort s src w x 1 (if cmdOp w = 0x02 then 7 else 1) → s.cell? src.cell = some k → commandBytes w = some b →
        w.extractLsb' 81 3 = 0 → b ≤ 32768 → spoff % 8 = 0 →
        (w.extractLsb' 57 7 = 0 → gaddr % 8 = 0 → spoff + b ≤ k.limit →
          (cmdOp w = 0x01 → Completes (.cCopy src w) s (Queued s src x w strm [])) ∧
          (cmdOp w = 0x02 → Completes (.cCopyr src w) s (Queued s src x w strm []))) ∧
        (w.extractLsb' 57 7 = 0 → gaddr % (if w.getLsbD 114 then 8 else 4) = 0 → spoff + b ≤ k.limit →
          (cmdOp w = 0x03 → Completes (.cGath src w) s (Queued s src x w strm [])) ∧
          (cmdOp w = 0x04 → Completes (.cScat src w) s (Queued s src x w strm []))) ∧
        (cmdOp w = 0x05 → (if w.getLsbD 114 then w.extractLsb' 57 7 = 0 ∧ gaddr % 8 = 0 ∧ spoff + 8 ≤ k.limit else spoff + b ≤ k.limit) →
          Completes (.cFill src w) s (Queued s src x w strm []))) ∧
      (AtPort s src w x 3 0 → w.extractLsb' 57 7 = 0 →
        (gaddr % 64 = 0 → (cmdC w).toNat < 4 → Completes (.cMma src w) s (Queued s src x w row [])) ∧
        (gaddr % 128 = 0 → cmdC w &&& ~~~0xF1#32 = 0 →
          Completes (.cAccsv src w) s (Queued s src x w row []) ∧ Completes (.cAccld src w) s (Queued s src x w row [])))) ∧
  (∀ (s : State) (src : CtxId) (w : CWord) (x : Ctx) (n : MemNode), s.node? src.slot (cmdIndex w) = some n →
      let p := Port.memn src.slot (cmdIndex w); let gaddr := (w.extractLsb' 0 57).toNat; let count := (cmdC w).toNat
      (AtPort s src w x 2 0 → w.extractLsb' 57 7 = 0 → 0 < count → gaddr % s.tokenBytes src.slot n = 0 →
        (∃ r, s.rect? src.slot = some r ∧ (r.state = .armed ∨ r.state = .running)) → n.binding = none →
        (∀ c ∈ n.queue, cmdOp c.word ≠ 0x06) → Completes (.cBind src w) s (Queued s src x w p [])) ∧
      (∀ b, AtPort s src w x 2 0 → cmdAB w = 0 → cmdC w = 0 → n.binding = some b → n.kind = 0 → n.sink = false → n.spent = false →
        Completes (.cUnbind src w) s (Queued s src x w p [])) ∧
      (AtPort s src w x 2 0 → (cmdB w).toNat % s.tokenBytes src.slot n = 0 → cmdC w = 0 → n.binding = none →
        Completes (.cStream src w) s (Queued s src x w p [])) ∧
      (AtPort s src w x 2 0 → w.extractLsb' 57 7 = 0 → gaddr % 128 = 0 → 0 < count → count ≤ 2 ^ 20 →
        Completes (.cPref src w) s (Queued s src x w p [])) ∧
      (AtPort s src w x 2 1 → w.extractLsb' 57 7 = 0 → gaddr % 128 = 0 → count ≤ 2 ^ 20 →
        Completes (.cFlush src w) s (Queued s src x w p [])) ∧
      (∀ ps ws t, AtPort s src w x 2 0 → w.extractLsb' 57 7 = 0 → gaddr % 64 = 0 → s.span (some n.die) x.lease gaddr 64 false = .ok ps →
        (s.engineFill n.die x.lease gaddr).readWords ⟨x.lease, x.handle⟩ ps = (t, ws) →
        convBad ws w ((t.cell? src.cell).elim 0 Cell.limit) = false → n.binding = none →
        Completes (.cConv src w) s (Queued t src x w p ws)) ∧
      ∀ (c : Cmd) (r : Rect), s.net.hand = some (.engineCommandStart p) → s.startDue p = true → s.nextCmd p = some c → s.portRefusal p c = none →
        s.rect? src.slot = some r →
        let left := (s.portQueue p).filter fun k => k.id != c.id
        let g := (c.word.extractLsb' 0 57).toNat
        (cmdOp c.word = 0x08 → (r.state = .armed ∨ r.state = .running) → n.binding = none →
          (∀ l, s.engineLoc (some n.die) c.lease g false = .found l → agrees (s.nodeFmt src.slot n) (s.windowFmt c.lease (.found l)) = true →
            Completes .engineCommandStart s fun t =>
              t = ((s.engineFill n.die c.lease g).setQueue p left).acceptBind src.slot (cmdIndex w) g (cmdC c.word).toNat (some c))) ∧
        (∀ b, cmdOp c.word = 0x09 → n.binding = some b → n.kind = 0 → n.sink = false → n.spent = false → b.unbind = none →
          Completes .engineCommandStart s fun t => t = (s.setQueue p left).modNode src.slot (cmdIndex w) fun m =>
            { m with binding := some { b with unbind := some c } }) ∧
        (cmdOp c.word = 0x0A → n.binding = none → Completes .engineCommandStart s fun t =>
          t = ((s.setQueue p left).fillToken c.src c.handle (cmdToken c.word) 0).modNode src.slot (cmdIndex w) fun m =>
            { m with rowLen := (cmdA c.word).toNat, rowStride := (cmdB c.word).toNat }))

/-- C.TTASK gives an accepted task to Slate and a refused one an error word; C.LAUNCH with the handle of the rectangle that it loaded fills its token, and its parent
keeps a record of the child; a load that waited goes on with what it asked for. C.JOIN of a child that has its outcome gives the status word of R46 and releases the record of a child that is
EMPTY, while one that is not is joined from then on; of a handle without a record or a child already joined it gives NOHANDLE, and one of a child without an
outcome waits. C.FREE of a child passes it to EMPTY, with its units, so that its handle names nothing, and releases its record, and a C.JOIN that waited for
it is answered KILLED; of another handle it reports 3 (R46 to R48, R242, R248 to R251). Where the spec leaves it open this is the model's choice: log entries 38, 52. -/
def Obligations.DirectorCommandsAndTileTasksComplete : Prop :=
  ∀ (s : State) (src : CtxId) (w : CWord) (x : Ctx),
    let gaddr := (w.extractLsb' 0 57).toNat; let child := (cmdA w).toNat
    let status := fun (node cause outcome : Nat) =>
      BitVec.ofNat 64 (node % 65536 * 2 ^ 48 + child * 65536 + cause % 256 * 256 + outcome)
    let left := fun (r : Rect) =>
      if s.live? child = none then r.children.filter fun k => k.handle != child
      else r.children.map fun k => if k.handle = child then { k with joined := true } else k
    let joined := fun (r : Rect) => { r with children := left r }
    let answered := fun (r : Rect) (v : BitVec 64) => (s.fresh.setRect src.slot (joined r)).fillToken src x.handle (cmdToken w) v
    let launched := fun (v : State) (slot : Nat) => (v.modRect src.slot fun q =>
      { q with children := q.children ++ [⟨v.handleOf slot, none, false⟩] }).fillToken src x.handle (cmdToken w) (BitVec.ofNat 64 (v.handleOf slot))
    (∀ ps ws t, AtPort s src w x 4 1 → w.extractLsb' 57 7 = 0 → cmdC w = 0 → gaddr % 64 = 0 →
      s.span none x.lease gaddr 64 false = .ok ps → (∀ p ∈ ps, s.damaged p.2.1 p.2.2 = false) →
      s.readWords ⟨x.lease, x.handle⟩ ps = (t, ws) → taskBad ws = false →
      (tileFmt (parseTile ws).fa (parseTile ws).fb (parseTile ws).fc).isSome = true →
      t.fp4Windows none x.lease (parseTile ws) = .yes →
      Completes (.cTtask src w) s fun u =>
        (t.taskCheck x.lease ws x.repro true = none → u = t.acceptTask src x w (parseTile ws)) ∧
        (∀ r, t.taskCheck x.lease ws x.repro true = some r →
          u = t.fillToken src x.handle (cmdToken w) (BitVec.ofNat 64 (2 ^ 63 + r.port % 256 * 256 + r.admission % 256)))) ∧
    (∀ k v slot, AtPort s src w x 0 0 → w.extractLsb' 57 7 = 0 → cmdC w = 0 → gaddr % 64 = 0 →
      s.loadOf x.lease (.command src w) = some k → s.launch k.req (.command src w) = .accepted v slot →
      Completes (.cLaunch src w) s fun y => y = launched v slot) ∧
    (∀ t bs u table r v slot, AtPort s src w x 0 0 → w.extractLsb' 57 7 = 0 → cmdC w = 0 → gaddr % 64 = 0 →
      s.loadOf x.lease (.command src w) = none → s.hubBytes x.lease gaddr 64 = .got t bs → s.rect? src.slot = some r → t.tableBytes x.lease bs = .got u table →
      descBad bs = false → u.launch (descRequest r x.handle bs (parseBinds table (fieldAt bs 0x30 2))) (.command src w) = .accepted v slot →
      Completes (.cLaunch src w) s fun y => y = launched v slot) ∧
    (∀ r : Rect, AtPort s src w x 0 0 → cmdB w = 0 → cmdC w = 0 → s.rect? src.slot = some r → r.joinable = true →
      (∀ j ∈ r.joins, ∃ k, (r.children.find? fun k => k.handle == j.child) = some k ∧ k.joined = false ∧ k.out = none) →
      Completes (.cJoin src w) s fun t =>
        (∀ k o, (r.children.find? fun k => k.handle == child) = some k → k.joined = false → k.out = some o →
          t = answered r (status o.node o.cause (match o.outcome with | .done => 0 | .faulted => 1 | .killed => 2))) ∧
        ((∀ k, (r.children.find? fun k => k.handle == child) = some k → k.joined = true) → t = answered r (status 0xFFFF 0 3)) ∧
        (∀ k, (r.children.find? fun k => k.handle == child) = some k → k.joined = false → k.out = none → t = s.fresh.setRect src.slot
          { r with joins := r.joins ++ [⟨⟨s.clock.nextId, src, x.handle, x.lease, w, false, [], []⟩, child⟩] })) ∧
    (AtPort s src w x 0 0 → cmdB w = 0 → cmdC w = 0 →
      (∀ r, s.rect? src.slot = some r → (∃ k ∈ r.children, k.handle = child) → Completes (.cFree src w) s fun t =>
        t.live? child = none ∧ (∀ q, t.rect? src.slot = some q → ∀ k ∈ q.children, k.handle ≠ child) ∧
        (∀ n, s.live? child = some n → t.rect? n = none ∧ (∀ c, c.slot = n → t.ctx? c = none) ∧
          (t.slot n).gen = ((s.slot n).gen + 1) % 256) ∧
        (∀ z, t.ctx? src = some z → 0 < (cmdToken w).toNat → (cmdToken w).toNat < 60 → z.s (cmdToken w) = 0 ∧ z.sFull (cmdToken w) = true)) ∧
      (∀ r k n q j y, s.rect? src.slot = some r → r.children = [k] → k.handle = child → k.joined = false → k.out = none → r.joinable = true →
        s.live? child = some n → n ≠ src.slot → s.rect? n = some q → q.parent = some x.handle → q.outcome = none → q.first = none → q.stAddr = 0 →
        q.children = [] → s.live? x.handle = some src.slot → r.joins = [j] → j.child = child → j.cmd.src = src → j.cmd.handle = x.handle →
        cmdToken j.cmd.word = y → 0 < y.toNat → y.toNat < 60 → y ≠ cmdToken w → Completes (.cFree src w) s fun t =>
          ∃ z, t.ctx? src = some z ∧ z.s y = status 0xFFFF 0 2 ∧ z.sFull y = true) ∧
      ((∀ r, s.rect? src.slot = some r → ∀ k ∈ r.children, k.handle ≠ child) → Completes (.cFree src w) s fun t =>
        t = s.fillToken src x.handle (cmdToken w) 3))

/-! ### Engines -/

/-- The engine of port `p` works for its rectangle and has command `c` in its queue. -/
structure InHand (s : State) (p : Port) (c : Cmd) : Prop where
  works : s.portWorks p = true
  here : s.cmd? p c.id = some c

/-- Where element `i` of a convolution tile that starts at pixel group `start` comes from, as R238 computes it: padding past the batch, padding past an edge of
the input, or a word of it. -/
def patchSource (d : Conv) (start i : Nat) : PatchElem :=
  let c := i / 8 % d.c
  let t := i / 8 / d.c % (d.fh * d.fw)
  let p := 8 * (start + i / 8 / d.c / (d.fh * d.fw)) + i % 8
  if d.nb * d.oh * d.ow ≤ p then .past
  else
    let y : Int := ((p % (d.oh * d.ow) / d.ow * d.sy + t / d.fw : Nat) : Int) - d.pt
    let x : Int := ((p % d.ow * d.sx + t % d.fw : Nat) : Int) - d.pl
    if y < 0 ∨ (d.h : Int) ≤ y ∨ x < 0 ∨ (d.w : Int) ≤ x then .pad
    else .word (d.base + (((p / (d.oh * d.ow) * d.h + y.toNat) * d.w + x.toNat) * d.c + c) * 4)

/-- A chunk of command `c` that its streamer moves now: the chunk is in hand, the command's engine has a permit for each
slice that it addresses, and no older merge comes first (R228, R230, R353). -/
structure Chunked (s : State) (p : Port) (c : Cmd) (k : Nat) : Prop where
  hand : s.net.hand = some (.copyChunkLand p c.id k)
  here : InHand s p c
  due : s.copyrBefore c k = false
  permit : s.chunkPermit p c k = true

/-- Engine events. A streamer command that starts takes what it reads from the scratchpad at its start and has one event for every 512-byte chunk that it moves; a chunk of a copy, merge, gather or fill lands in the scratchpad with its bytes and takes its port, one of a copy or fill into memory leaves its bytes at their homes, and one of a scatter the value of each entry at its index, but where a later entry has been written; a chunk of a convolution lands with the words that R238 names, and padding elsewhere. A command that an engine's access table refuses freezes the rectangle that issued it; one that has done its work leaves its queue with its token: the tile mask, the lines that a prefetch skipped, the status word that a flush clears, 0 for a matrix command, and its error word for one in error. C.MMA takes its record as it starts, with zeros or the accumulator of its slot, and under QC sends its block's tokens as its edge holds credit; C.ACCSV writes the sixteen rows of its slot in its memory format and C.ACCLD loads them. A repartition of a carve-out keeps the bytes that were granted all along, and zeroes those above (R67, R72, R222, R224, R225, R228 to R233, R238 to R240, R246, R247, R260, R392). Where the spec leaves it open this is the model's choice: log entries 4, 24, 25, 71, 87, 115. -/
def Obligations.EngineCommandsStartMoveAndEnd : Prop :=
  (∀ (s : State) (slot i : Nat) (c : Cmd), let p := Port.strm slot i; let n := (commandBytes c.word).getD 0
      let took := fun (u : State) => u.modCell c.src.cell fun d => { d with port := (s.clock.cycles, 35) }
      let off := fun (k : Nat) => (c.word.extractLsb' 64 17).toNat + 512 * k
      let at' := fun (k : Nat) => pieces ((c.word.extractLsb' 0 57).toNat + 512 * k) (min 512 (n - 512 * k))
      let ready := fun (ps : List (Nat × Nat × Nat)) => s.fillAll (s.strmDie slot i) c.lease (ps.map fun q => q.2.1)
      let a : Agent := ⟨c.lease, c.handle⟩
      (∀ q kind, s.net.hand = some (.engineCommandStart q) → s.startDue q = true → s.nextCmd q = some c → s.portRefusal q c = some kind →
        Completes .engineCommandStart s fun t => t = (s.setQueue q ((s.portQueue q).filter fun k => k.id != c.id)).refuse
          (.task c.lease c.handle ((s.ctx? c.src).elim 0xFFFF Ctx.node) c.src.ctx) 0x05 kind 0 kind) ∧
      (s.net.hand = some (.engineCommandStart p) → s.startDue p = true → s.nextCmd p = some c → s.portRefusal p c = none →
        let cnt := (c.word.extractLsb' 84 12).toNat + 1
        let list := if cmdOp c.word = 0x03 then
            (List.range cnt).map fun j => leNat (((s.padGet c.src.cell (off 0) (4 * cnt)).drop (4 * j)).take 4)
          else if cmdOp c.word = 0x05 ∧ c.word.getLsbD 114 = true then [leNat (s.padGet c.src.cell (off 0) 8)] else []
        Completes .engineCommandStart s fun t =>
          t = (s.modCmd p c.id fun k => { k with started := true, list := list }).postAll (s.slotClass slot)
            ((List.range ((n + 511) / 512)).map fun k => .copyChunkLand p c.id k)) ∧
      (∀ k ps, Chunked s p c k → cmdOp c.word = 0x01 → s.access (some (s.strmDie slot i)) c.lease (c.word.getLsbD 114) (at' k) = .ok ps →
        Completes .copyChunkLand s fun t => ∃ u : State, t = u.chunkDone p c k n (if c.word.getLsbD 114 then [] else c.list) ∧
          if c.word.getLsbD 114 then u = (ready (at' k)).push a (s.strmDie slot i) ps (s.padGet c.src.cell (off k) (min 512 (n - 512 * k)))
          else u = took (((ready (at' k)).pull a ps).1.padPut c.src.cell (off k) ((ready (at' k)).pull a ps).2 false)) ∧
      (∀ k ps, Chunked s p c k → cmdOp c.word = 0x02 → s.access (some (s.strmDie slot i)) c.lease false (at' k) = .ok ps →
        Completes .copyChunkLand s fun t => ∃ u : State, t = u.chunkDone p c k n c.list ∧
          let x := ((ready (at' k)).pull a ps).1
          u = took (x.padPut c.src.cell (off k) (mergeBytes (c.word.extractLsb' 114 3).toNat
            (x.padGet c.src.cell (off k) (min 512 (n - 512 * k))) ((ready (at' k)).pull a ps).2) false)) ∧
      (∀ k ps, Chunked s p c k → cmdOp c.word = 0x03 → s.access (some (s.strmDie slot i)) c.lease false (gathPieces c k) = .ok ps →
        Completes .copyChunkLand s fun t => ∃ u : State, t = u.chunkDone p c k n c.list ∧
          u = took (((ready (gathPieces c k)).pull a ps).1.padPut c.src.cell (off k) ((ready (gathPieces c k)).pull a ps).2 false)) ∧
      (∀ k, Chunked s p c k → cmdOp c.word = 0x04 →
        let e := if c.word.getLsbD 114 then 8 else 4
        let bs := s.padGet c.src.cell (off k) (min 512 (n - 512 * k))
        let index := fun (j : Nat) => leNat ((bs.drop (2 * e * j)).take e)
        let value := fun (j : Nat) => leNat ((bs.drop (2 * e * j + e)).take e)
        let va := fun (j : Nat) => (c.word.extractLsb' 0 57).toNat + index j * e
        let entry := fun (j : Nat) => 512 / (2 * e) * k + j
        let all := List.range (bs.length / (2 * e))
        let live := all.filter fun j => !c.list.any fun m => m / 65536 == va j && decide (entry j < m % 65536)
        let ws := live.zipIdx.map fun q => (q.2 * e, va q.1, e)
        (∀ ps, (∀ j ∈ all, index j < 2 ^ 32) → s.access (some (s.strmDie slot i)) c.lease true ws = .ok ps → Completes .copyChunkLand s fun t =>
          t = ((ready ws).push a (s.strmDie slot i) ps (live.flatMap fun j => leBytes e (value j))).chunkDone p c k n
            (c.list ++ live.map fun j => va j * 65536 + entry j)) ∧
        (∀ j ∈ all, 2 ^ 32 ≤ index j → Completes .copyChunkLand s fun t =>
          t = s.post (s.slotClass slot) (.engineCommandError p c.id 0x07))) ∧
      (∀ k, Chunked s p c k → cmdOp c.word = 0x05 → c.word.getLsbD 114 = false → Completes .copyChunkLand s fun t =>
          t = (took (s.padPut c.src.cell (off k) (fillBytes (c.word.extractLsb' 0 64).toNat (min 512 (n - 512 * k))) false)).chunkDone p c k n []) ∧
      (∀ k ps, Chunked s p c k → cmdOp c.word = 0x05 → c.word.getLsbD 114 = true →
        s.access (some (s.strmDie slot i)) c.lease true (at' k) = .ok ps → Completes .copyChunkLand s fun t =>
          t = ((ready (at' k)).push a (s.strmDie slot i) ps (fillBytes (c.list.headD 0) (min 512 (n - 512 * k)))).chunkDone p c k n []) ∧
      (s.net.hand = some (.engineCommandComplete p c.id) → InHand s p c → c.started = true → (c.bytes + 511) / 512 ≤ c.sent.length →
        Completes .engineCommandComplete s fun t =>
          t = (s.setQueue p ((s.portQueue p).filter fun k => k.id != c.id)).fillToken c.src c.handle (cmdToken c.word)
            (BitVec.ofNat 64 (2 ^ min 64 (max 1 ((c.bytes + 511) / 512)) - 1))) ∧
      (∀ q cause, s.net.hand = some (.engineCommandError q c.id cause) → InHand s q c → Completes .engineCommandError s fun t =>
        t = (s.setQueue q ((s.portQueue q).filter fun k => k.id != c.id)).fillToken c.src c.handle (cmdToken c.word)
          (BitVec.ofNat 64 (2 ^ 63 + cause % 256 * 256))) ∧
      (∀ lease, s.net.hand = some (.carveRepartition lease) → Completes .carveRepartition s fun t =>
        (t.lease lease).granted = (s.lease lease).grant ∧ t.cells = s.cells ∧ t.ctxs = s.ctxs ∧ t.net = s.net ∧
        (∀ off, off < (s.lease lease).granted * 1048576 → t.mem.read (Loc.carve lease off).key = s.mem.read (Loc.carve lease off).key) ∧
        (∀ off, (s.lease lease).granted * 1048576 ≤ off → t.mem.read (Loc.carve lease off).key = 0) ∧
        (∀ a b, lease % 256 ≠ a % 256 → t.mem.read (Loc.carve a b).key = s.mem.read (Loc.carve a b).key) ∧
        (∀ a b, t.mem.read (Loc.dev a b).key = s.mem.read (Loc.dev a b).key) ∧
        ∀ a, t.mem.read (Loc.host a).key = s.mem.read (Loc.host a).key)) ∧
  (∀ (s : State) (slot i : Nat) (c : Cmd),
      let p := Port.memn slot i; let q := Port.mrow slot i; let a : Agent := ⟨c.lease, c.handle⟩; let g := (c.word.extractLsb' 0 57).toNat
      let elem := fun (acc : AccSlot) (n : Nat) => (acc.elems.getD n 0).toNat
      (∀ k ps nd, Chunked s p c k → cmdOp c.word = 0x06 → s.node? slot i = some nd →
        let d := parseConv c.list; let len := min 512 (d.bytes - 512 * k)
        let es := (List.range (len / 4)).map fun j => patchSource d (c.word.extractLsb' 81 15).toNat (128 * k + j)
        s.access (some nd.die) c.lease false (patchPieces es) = .ok ps → Completes .copyChunkLand s fun t =>
          let r := (s.fillAll nd.die c.lease ((patchPieces es).map fun m => m.2.1)).pull a ps
          let u := (r.1.padPut c.src.cell ((c.word.extractLsb' 64 17).toNat + 512 * k) (patchBytes d.padv es r.2) false).modCell c.src.cell
            fun m => { m with port := (s.clock.cycles, 35) }
          t = (if .past ∈ es then u.modNode slot i fun m => { m with status := m.status ||| 1 } else u).chunkDone p c k d.bytes c.list) ∧
      (∀ nd, s.net.hand = some (.engineCommandComplete p c.id) → InHand s p c → c.started = true → s.node? slot i = some nd →
        (cmdOp c.word = 0x19 → Completes .engineCommandComplete s fun t =>
          t = (s.endCmd p c (nd.status.setWidth 64)).modNode slot i fun m => { m with status := 0 }) ∧
        (∀ skipped, cmdOp c.word = 0x18 → c.list = [skipped] → Completes .engineCommandComplete s fun t =>
          t = s.endCmd p c (BitVec.ofNat 64 skipped))) ∧
      (∀ nd t k, s.net.hand = some (.engineCommandStart p) → s.startDue p = true → s.nextCmd p = some c → s.portRefusal p c = none →
        cmdOp c.word = 0x18 → s.node? slot i = some nd → s.prefetch a nd.die g (cmdC c.word).toNat = (t, k, none) →
        Completes .engineCommandStart s fun u =>
          let v := if k = 0 then t else t.modNode slot i fun m => { m with status := m.status ||| 2 }
          u = (v.modCmd p c.id fun d => { d with started := true, list := [k] }).post (v.slotClass slot) (.engineCommandComplete p c.id)) ∧
      (∀ row r, s.boundRow slot i = some (row, r) → let n := (cmdC c.word).toNat % 2; let ty := Ty.ofCode (c.word.extractLsb' 68 4)
        (s.net.hand = some (.engineCommandComplete q c.id) → InHand s q c → c.started = true →
          (cmdOp c.word ≠ 0x11 → Completes .engineCommandComplete s fun t => t = s.endCmd q c 0) ∧
          (cmdOp c.word = 0x11 → r.blocks = 1 → (parseTile c.list).qc = false → Completes .engineCommandComplete s fun t => t = s.endCmd q c 0) ∧
          (∀ acc k e, cmdOp c.word = 0x11 → r.blocks = 1 → (parseTile c.list).qc = true → r.slots.getD n none = some acc →
            s.outChan slot (s.portNode q) 0 = some (k, e) → 0 < e.free →
            let toks := resultTokens acc; let now := (toks.drop c.sent.length).take e.free
            (let bytes := (List.range 16).flatMap (fun j => acc.rowBytes acc.fmt.ty j);
              toks.length = acc.fmt.ty.width ∧ (∀ ls ∈ toks, ls.length = 8) ∧ toks.flatten.map Lane.data =
                (List.range (8 * acc.fmt.ty.width)).map fun j => BitVec.ofNat 32 (leNat ((bytes.drop (4 * j)).take 4))) ∧
            Completes .engineCommandComplete s fun t => ∃ u : State,
              u.sent = s.sent ++ now.map (fun ls => .channelTokenArrival slot k (.data ls)) ++ [.commitMarkArrival slot k now.length] ∧
              u.edge? slot k = some { e with free := e.free - now.length } ∧ u.mem = s.mem ∧ u.ctxs = s.ctxs ∧
              t = if c.sent.length + now.length = toks.length then u.endCmd q c 0
                else u.modCmd q c.id fun d => { d with sent := List.range (c.sent.length + now.length) })) ∧
        (s.net.hand = some (.engineCommandStart q) → s.startDue q = true → s.nextCmd q = some c → s.portRefusal q c = none →
          (∀ ps v ws f halves acc, cmdOp c.word = 0x11 → s.span (some (row / 64)) c.lease g 64 false = .ok ps →
            (s.engineFill (row / 64) c.lease g).readWords a ps = (v, ws) →
            let z := parseTile ws
            tileFmt z.fa z.fb z.fc = some (f, halves) → z.m = 1 → z.n = 1 → z.k ≠ 0 → z.acc = false → recBad ws (!z.qa) (!z.qb) = false →
            (n = 1 → f ≠ .f64) → v.queueBound q z = true → v.fp4Windows (some (row / 64)) c.lease z = .yes →
            (if (cmdC c.word).getLsbD 1 then acc = ⟨f, List.replicate 256 0⟩ else r.slots.getD n none = some acc ∧ acc.fmt = f) →
            let u := v.modCmd q c.id fun d => { d with started := true, list := ws }
            Completes .engineCommandStart s fun t => t = u.setRow row { u.row row with work := some acc, blocks := 0, ksteps := [], parts := [] }) ∧
          (∀ ls v acc, cmdOp c.word = 0x12 → r.slots.getD n none = some acc → svPair acc.fmt ty = true →
            s.storeBlock a (row / 64) ((List.range 16).map fun j => (g + j * rowBytes ty, (List.range 16).flatMap fun m =>
              leBytes (ty.width / 8) (if acc.fmt = .i32 then elem acc (16 * j + m)
                else ((ffOf ty).round .rne 0 (acc.fmt.ff.decode (elem acc (16 * j + m)))).1))) = (.ok ls, v) →
            Completes .engineCommandStart s fun t =>
              t = (v.modCmd q c.id fun d => { d with started := true, list := [] }).post (v.slotClass slot) (.engineCommandComplete q c.id)) ∧
          (∀ v rows f, cmdOp c.word = 0x13 → ldFmt ty = some f → (f = .f64 → n = 0) →
            s.loadRows a (row / 64) (rowBytes ty) false ((List.range 16).map fun j => g + j * rowBytes ty) = .got v rows →
            let acc : AccSlot := ⟨f, (rows.flatMap (elemsOf ty)).map fun e =>
              BitVec.ofNat 64 (if ty = f.ty then e else (f.ff.round .rne 0 ((ffOf ty).decode e)).1)⟩
            Completes .engineCommandStart s fun t => 
              let slots := if f = .f64 ∨ ((v.row row).slots.getD 0 none).any (fun b => b.fmt == .f64) = true then [none, none].set n (some acc)
                else (v.row row).slots.set n (some acc)
              let u := v.setRow row { v.row row with slots := slots }
              t = (u.modCmd q c.id fun d => { d with started := true, list := [] }).post (u.slotClass slot) (.engineCommandComplete q c.id)))))

/-- Memory-node events. A node that reads delivers its tokens in request order into an edge that holds credit, each committed, or passes them by without
an edge; after the last one it sends its end-of-stream token, and its run has ended; a read takes its bytes at their home into its tag; a sink writes its tokens at the addresses of
R234, and at the end-of-stream token its run ends; a RANDOM node sends a read for its next element and an ORDERED-UPDATE node an atomic, until its own end-of-stream token; a stream that ends
fills the tokens of its C.BIND and C.UNBIND with the count and unbinds the node (R77, R234, R235, R299, R300, R319). Where the spec leaves it open this is the model's choice: log entries 21, 24, 25, 71, 123. -/
def Obligations.MemoryNodesMoveTheirTokens : Prop :=
  ∀ (s : State) (slot idx : Nat) (n : MemNode) (b : Binding), s.node? slot idx = some n → n.binding = some b →
    let a : Agent := ⟨(s.rect? slot).elim 0 Rect.lease, s.handleOf slot⟩; let z := s.tokenBytes slot n
    (∀ t ts v k e, s.net.hand = some (.nodeSourceDeliver slot idx) → s.works slot n.node = true → n.sink = false → n.tags = t :: ts →
      t.val = some v → s.outChan slot n.node 0 = some (k, e) → 0 < e.free →
      Completes .nodeSourceDeliver s fun u => ∃ y : State,
        y = ((s.setEdge slot k { e with free := e.free - 1 }).post (s.slotClass slot) (.channelTokenArrival slot k (.data v))).post
          (s.slotClass slot) (.commitMarkArrival slot k 1) ∧
        u = (y.setNode slot idx { n with tags := ts, held := n.held && !ts.isEmpty, binding := some { b with moved := b.moved + 1, total := b.total + 1 } }).pumpNode slot idx) ∧
    (∀ t ts v, s.net.hand = some (.nodeSourceDeliver slot idx) → s.works slot n.node = true → n.sink = false → n.tags = t :: ts →
      t.val = some v → s.outChan slot n.node 0 = none → Completes .nodeSourceDeliver s fun u =>
        u = (s.setNode slot idx { n with tags := ts, held := n.held && !ts.isEmpty, binding := some { b with moved := b.moved + 1, total := b.total + 1 } }).pumpNode
          slot idx) ∧
    (s.net.hand = some (.nodeSourceDeliver slot idx) → s.works slot n.node = true → n.sink = false → n.tags = [] → n.spent = false →
      (if n.kind = 0 then b.unbind.isSome = true ∨ b.count ≤ b.read else n.eosSeen = true) →
      (∀ k e, s.outChan slot n.node 0 = some (k, e) → 0 < e.free → Completes .nodeSourceDeliver s fun u =>
        u = ((s.setEdge slot k { e with free := e.free - 1, eosOut := true }).post (s.slotClass slot) (.channelTokenArrival slot k .eos)).setNode slot idx
          { n with spent := true }) ∧
      (s.outChan slot n.node 0 = none → Completes .nodeSourceDeliver s fun u => u = s.setNode slot idx { n with spent := true })) ∧
    (∀ t l, s.net.hand = some (.nodeReadResponse slot idx t.tag) → n.faulted = false → s.drains slot = true → t.val = none →
      (n.tags.find? fun q => q.tag == t.tag && q.val.isNone) = some t → s.engineLoc (some n.die) a.lease (n.elemAt b z t.elem) false = .found l → s.damaged l z = false →
      Completes .nodeReadResponse s fun u => u.mem = s.mem ∧ ∃ v : List Lane,
        u.node? slot idx = some { n with tags := n.tags.map fun q => if q.tag = t.tag then { q with val := some v } else q } ∧
        v.map Lane.data = (List.range (z / 4)).map fun j => BitVec.ofNat 32 (leNat (((s.load l z).drop (4 * j)).take 4))) ∧
    (∀ k e ls l, s.net.hand = some (.nodeSinkWrite slot idx) → n.sink = true → n.faulted = false →
      s.nodeInput slot idx = some (n, b, k, e, .data ls) → b.moved < b.count →
      s.engineLoc (some n.die) a.lease (n.tokenAt b z b.moved) true = .found l →
      Completes .nodeSinkWrite s fun u =>
        u = ((((s.engineFill n.die a.lease (n.tokenAt b z b.moved)).engineWrite a n.die l (tokBytes ls)).setEdge slot k
          { e with buf := e.buf.tail }).post (creditClass e.buf) (.creditArrival slot k 1)).setNode slot idx
            { n with binding := some { b with moved := b.moved + 1, total := b.total + 1 } }) ∧
    (∀ k e, s.net.hand = some (.nodeSinkWrite slot idx) → n.sink = true → n.faulted = false →
      s.nodeInput slot idx = some (n, b, k, e, .eos) → Completes .nodeSinkWrite s fun u =>
        u = ((s.setEdge slot k { e with buf := e.buf.tail }).post (creditClass e.buf) (.creditArrival slot k 1)).setNode slot idx
          { n with eosSeen := true, spent := true }) ∧
    (∀ k e, s.net.hand = some (.nodeRequestElement slot idx) → n.kind ≠ 0 → n.faulted = false → n.held = false → n.tags.length < Config.nodeTags →
      s.nodeInput slot idx = some (n, b, k, e, .eos) → Completes .nodeRequestElement s fun u =>
        u = ((s.setEdge slot k { e with buf := e.buf.tail }).post (creditClass e.buf) (.creditArrival slot k 1)).setNode slot idx
          { n with eosSeen := true }) ∧
    (∀ k e ls, s.net.hand = some (.nodeRequestElement slot idx) → n.faulted = false → n.held = false → n.tags.length < Config.nodeTags →
      s.nodeInput slot idx = some (n, b, k, e, .data ls) → s.tokenPermit slot n b (.data ls) = true →
      (n.kind = 1 → tokWord ls 0 < b.count → Completes .nodeRequestElement s fun u =>
        u = ((((s.setEdge slot k { e with buf := e.buf.tail }).post (creditClass e.buf) (.creditArrival slot k 1)).setNode slot idx
          { n with tags := n.tags ++ [⟨n.nextTag, tokWord ls 0, none, none⟩], nextTag := (n.nextTag + 1) % Config.nodeTags }).post
            (s.slotClass slot) (.nodeReadResponse slot idx n.nextTag))) ∧
      (∀ l, n.kind = 2 → badUpdate ls b.count = false → s.engineLoc (some n.die) a.lease (b.base + 8 * tokWord ls 0) true = .found l →
        (l.isHost = false ∨ hostAmo (amoFnOf n.fn) = true) → Completes .nodeRequestElement s fun u =>
          ∃ r : AmoReq, u.sent = s.sent ++ [.creditArrival slot k 1, .homeAtomic r] ∧ r.loc = l ∧ r.fn = amoFnOf n.fn ∧
            r.b = BitVec.ofNat 64 (tokWord ls 2 + 2 ^ 32 * tokWord ls 3) ∧ r.seq = n.seq ∧ r.comb = false ∧ r.reply = .node slot idx n.nextTag n.seq ∧
            u.mem = s.mem)) ∧
    (s.net.hand = some (.nodeStreamEnd slot idx) → n.spent = true → s.works slot n.node = true → (b.last = true ∨ b.unbind.isSome = true) →
      Completes .nodeStreamEnd s fun u =>
        u = (b.cmd.toList ++ b.unbind.toList).foldl (fun y c => y.fillToken c.src c.handle (cmdToken c.word) (BitVec.ofNat 64 (b.total % 2 ^ 32)))
          (s.setNode slot idx { n with binding := none, tags := [], held := false }))

/-- Channel and firing events. A token joins the end of its edge's buffer, a data token uncommitted, an end-of-stream token committed; a commit
mark commits as many waiting tokens, the oldest first; a credit adds to the free slots; tokens reach no other edge. End-of-stream tokens at the head of all inputs of
an idle task leave their buffers, their slots returned, and each of its outputs with a free slot gets its end-of-stream token, while every other one is owed it until its credit comes; a gated cell wakes; a runnable context that no other passes begins its firing at its entry,
with its claims made and its cycle count zero (R31, R32, R34, R55, R77, R215). -/
def Obligations.TokensMarksCreditsAndFiringsTakeEffect : Prop :=
  ∀ (s : State) (slot n : Nat) (e : Edge), s.edge? slot n = some e →
    let only := fun (t : State) (f : Edge) => t.edge? slot n = some f ∧ (∀ a b, (a, b) ≠ (slot, n) → t.edge? a b = s.edge? a b) ∧
      t.mem = s.mem ∧ t.cells = s.cells ∧ t.net = s.net
    (∀ ls, s.net.hand = some (.channelTokenArrival slot n (.data ls)) → Completes .channelTokenArrival s fun t =>
      only t { e with buf := e.buf ++ [⟨.data ls, false, s.net.cls⟩] }) ∧
    (s.net.hand = some (.channelTokenArrival slot n .eos) → Completes .channelTokenArrival s fun t =>
      only t { e with buf := e.buf ++ [⟨.eos, true, s.net.cls⟩] }) ∧
    (∀ k, s.net.hand = some (.commitMarkArrival slot n k) → Completes .commitMarkArrival s fun t => ∃ buf,
      only t { e with buf := buf } ∧ buf.map BufTok.tok = e.buf.map BufTok.tok ∧
      (buf.filter BufTok.committed).length = (e.buf.filter BufTok.committed).length + min k (e.buf.filter fun q => !q.committed).length ∧
      ∀ (i j : Nat) (p q : BufTok), i < j → buf[i]? = some p → buf[j]? = some q → (e.buf[j]?).any BufTok.committed = false →
        q.committed = true → p.committed = true) ∧
    (∀ k, s.net.hand = some (.creditArrival slot n k) → (∀ c x, c.slot = slot → s.ctx? c = some x → x.eosOwed = []) → Completes .creditArrival s fun t =>
      only t { e with free := e.free + k }) ∧
    (∀ c x, s.net.hand = some (.eosConsume c) → s.ctx? c = some x → s.live c x = true → x.firing = false → x.ended = false →
      (∃ k, s.cell? c.cell = some k ∧ k.gated = false) →
      s.ins c.slot x.node ≠ [] → (∀ p ∈ s.ins c.slot x.node, p.2.eosNext = true) → (s.edges.map Prod.fst).Nodup → Completes .eosConsume s fun t =>
        let room := (s.outs c.slot x.node).filter fun q => decide (0 < q.2.free)
        t.mem = s.mem ∧ t.cells = s.cells ∧
        t.sent = s.sent ++ (s.ins c.slot x.node).map (fun p => .creditArrival c.slot p.1 1) ++ room.map (fun q => .channelTokenArrival c.slot q.1 .eos) ∧
        (∀ p ∈ s.ins c.slot x.node, (t.edge? c.slot p.1).map Edge.buf = some p.2.buf.tail ∧
          ∃ f ∈ t.net.agenda, f.ev = .creditArrival c.slot p.1 1 ∧ f.cls = creditClass p.2.buf) ∧
        (∀ q ∈ room, ∃ f, t.edge? c.slot q.1 = some f ∧ f.free = q.2.free - 1 ∧ f.eosOut = true) ∧
        t.ctx? c = some { x with ended := true, eosOwed := ((s.outs c.slot x.node).filter fun q => q.2.free == 0).map Prod.fst }) ∧
    (∀ c x k, s.net.hand = some (.creditArrival slot n k) → 0 < k → s.works slot e.src = true → s.ctxsAt slot e.src = [c] → c.slot = slot →
      s.ctx? c = some x → x.eosOwed = [n] → Completes .creditArrival s fun t => t.mem = s.mem ∧
        t.edge? slot n = some { e with free := e.free + k - 1, eosOut := true } ∧ t.sent = s.sent ++ [.channelTokenArrival slot n .eos] ∧
        ∃ z, t.ctx? c = some z ∧ z = { x with eosOwed := [], hold := z.hold }) ∧
    (∀ k d, s.net.hand = some (.cellWake k) → s.cell? k = some d → d.gated = true → Completes .cellWake s fun t =>
      t = { s with cells := Tab.put s.cells k { d with gated := false } }) ∧
    (∀ k c x, s.net.hand = some (.firingStart k) → s.firingDue k = true → s.nextFiring k = some (c, x) → Completes .firingStart s fun t =>
      t.mem = s.mem ∧ t.net = s.net ∧ t.ctx? c = some { x with
        firing := true, pc := x.entry, fireCnt := 0, overran := false, demoted := false, hold := .free, halted := false,
        lastStart := some s.clock.cycles, runnableSince := none } ∧
      (∀ d, d ≠ c → t.ctx? d = s.ctx? d) ∧
      t.edges = (s.claim c.slot x.node).edges)

/-- The gate of child `k` of a controller is open, by the table of R27: SEQUENTIAL, COARSE-PIPELINED, STREAMING. -/
def childMayStart (e : CtlE) (c : CtlState) (k : Nat) : Bool :=
  let started := fun (j : Nat) => c.started.getD j 0
  let finished := fun (j : Nat) => c.finished.getD j 0
  let last := e.children.length - 1
  decide (started k < c.runs) &&
    if e.mode = 0 then started k == finished k && (if k = 0 then finished last == started 0 else finished (k - 1) == started k + 1)
    else if e.mode = 1 then
      started k == finished k && (k == 0 || decide (started k + 1 ≤ finished (k - 1))) && (k == last || decide (started k < finished (k + 1) + e.depth))
    else started k == 0

/-- A controller has done its runs, by the table of R27. -/
def runsDone (e : CtlE) (c : CtlState) : Prop :=
  c.runs ≠ 0 ∧ if e.mode = 2 then ∀ k < e.children.length, c.finished.getD k 0 = 1
    else c.finished.getD (e.children.length - 1) 0 = c.runs

/-- Control events. A leaf that a pulse starts is active with one run more, its tasks may run again and a task without inputs is due once; a controller that a
pulse starts has its counts at zero and its run count from its entry or the launch's operand, and opens its gates; a done pulse adds to the child's count, opens gates and may
end the controller. A controller that tries its gates starts every child whose gate is open in its mode, the lowest first, and raises that child's count; one whose runs are done is active no
more and sends a done pulse to its parent. A pulse wakes an IDLE on the cells that it reaches. A firing over its budget traps its context with OVERRUN and an OVERRUN record, or ends its rectangle as killed; a token refused at a border
is recorded, counted and discarded, with its credit, and the sending rectangle faulted (R27, R28, R32, R261, R347, R397). Where the spec leaves it open this is the model's choice: log entries 34, 35. -/
def Obligations.PulsesOverrunsAndBorderRefusalsTakeEffect : Prop :=
  ∀ (s : State) (slot : Nat) (r : Rect), s.rect? slot = some r →
    (∀ n, s.net.hand = some (.ctlStartPulse slot (.leaf n)) → Completes .ctlStartPulse s fun t => t.mem = s.mem ∧ t.cells = s.cells ∧
      (∃ q, t.rect? slot = some q ∧ q.leaves = r.leaves.modify n (fun l => ⟨l.runs + 1, true, false⟩) ∧ q.state = r.state ∧ q.ctls = r.ctls) ∧
      ∀ c x, s.ctx? c = some x → (∀ q ∈ s.ctxs, q.1 = c → q.2 = x) → c.slot = slot → r.image.leafOf x.node = some n →
        ∃ z, t.ctx? c = some z ∧ z = { x with ended := false, sourceDue := (s.ins slot x.node).isEmpty, hold := z.hold }) ∧
    (∀ i e, s.net.hand = some (.ctlStartPulse slot (.ctl i)) → r.image.ctls[i]? = some e → Completes .ctlStartPulse s fun t =>
      let zeros := List.replicate e.children.length 0
      t = ((s.setRect slot { r with ctls := r.ctls.set i ⟨true, if e.operand then r.iter else e.runs, zeros, zeros⟩ }).tryGates slot i).wakePlace slot
        e.node) ∧
    (∀ i k e, s.net.hand = some (.ctlDonePulse slot i k) → r.image.ctls[i]? = some e →
      (∀ j, e.children[k]? = some (.ctl j) → Completes .ctlDonePulse s fun t =>
        t = (((s.setRect slot { r with ctls := r.ctls.modify i fun c => { c with finished := c.finished.modify k (· + 1) } }).tryGates slot i).afterDone
          slot i).wakePlace slot e.node) ∧
      (∀ n l, e.children[k]? = some (.leaf n) → r.leaves[n]? = some l → l.pulsed = true → Completes .ctlDonePulse s fun t =>
        t = ((((s.setRect slot { r with leaves := r.leaves.modify n fun l => { l with active := false, pulsed := false } }).modRect slot fun q =>
          { q with ctls := q.ctls.modify i fun c => { c with finished := c.finished.modify k (· + 1) } }).tryGates slot i).afterDone slot i).wakePlace
            slot e.node)) ∧
    (∀ i e c, r.image.ctls[i]? = some e → r.ctls[i]? = some c →
      (let opened := (List.range e.children.length).filter (childMayStart e c); let t := s.tryGates slot i
       t.sent = s.sent ++ opened.map (fun k => .ctlStartPulse slot (e.children.getD k (.leaf 0))) ∧ t.mem = s.mem ∧ t.ctxs = s.ctxs ∧
       t.rect? slot = some { r with ctls := r.ctls.set i { c with started := c.started.mapIdx fun k v => if k ∈ opened then v + 1 else v } }) ∧
      (¬ runsDone e c → s.afterDone slot i = s) ∧
      (runsDone e c → c.active = true → let t := s.afterDone slot i
        t.mem = s.mem ∧ t.rect? slot = some { r with ctls := r.ctls.set i { c with active := false } } ∧
        t.sent = s.sent ++ ((r.image.parentOf (.ctl i)).map fun q => .ctlDonePulse slot q.1 q.2).toList)) ∧
    (∀ c x, s.net.hand = some (.firingOverrun c) → c.slot = slot → s.ctx? c = some x → s.overrunDue c = true →
      let u := (s.postRecord x.lease (s.record 0x03 0x03 0 0 x.handle x.node (some c) 0 x.budget x.fireCnt 0)).count x.lease 0x039 x.handle 1
      Completes .firingOverrun s fun t =>
        (r.item.demotePolicy = true → t = u.trapOverrun c x false) ∧
        (r.item.demotePolicy = false → t = (u.trapOverrun c x true).killRect slot 0x03)) ∧
    (∀ n col row, s.net.hand = some (.borderTokenRefuse slot n col row) → Completes .borderTokenRefuse s fun t =>
      t = (((s.postRecord r.lease (s.record 0x08 0x0A 0 0 (s.handleOf slot) n none 0 (col % 256 * 256 + row % 256) n 0)).modLease r.lease
        fun l => { l with errBorder := min 65535 (l.errBorder + 1) }).loseToken slot n).post 3 (.faultEvent slot ⟨0x0A, 0, 0, n, none, 4, 0, 0⟩))

/-! ### Answers and the network -/

/-- The last answer of an unfinished instruction completes it: its value stands in the destination register, which is full, it
leaves the unfinished ones and counts as one INSTR; an earlier one leaves it waiting for the rest; an answer to another handle, and one that names another sequence number, writes nothing.
The last acknowledgement of a write frees its tag; one that names another write's sequence number frees none (R59, R62, R199, R209, R307, R420). -/
def Obligations.AnswersCompleteTheirInstructions : Prop :=
  ∀ (s : State) (c : CtxId) (x : Ctx) (slice : Nat), s.ctx? c = some x →
    (∀ p w, s.net.hand = some (.replyArrival (.ctxReply c x.handle p.id slice p.seq) (.word w)) →
      (x.pend.find? fun q => q.id == p.id && q.seq == p.seq) = some p →
      Completes .replyArrival s fun t => t.mem = s.mem ∧ t.net = s.net ∧ (∀ d, d ≠ c → t.ctx? d = s.ctx? d) ∧
        ∃ z, t.ctx? c = some z ∧
          (p.left = 1 → z.pend = x.pend.filter (fun q => q.id != p.id) ∧
            (∀ d, p.dest = .sreg d → 0 < d.toNat → d.toNat < 60 → z.s d = w ∧ z.sFull d = true) ∧
            (p.dest = .none → z.sreg = x.sreg ∧ z.vreg = x.vreg) ∧
            t.leases = (s.count x.lease 0x001 x.handle 1).leases) ∧
          (1 < p.left → z.sreg = x.sreg ∧ z.sfe = x.sfe ∧ z.vreg = x.vreg ∧ z.vfe = x.vfe ∧ t.leases = s.leases ∧
            z.pend.map Pend.id = x.pend.map Pend.id ∧ ∃ q ∈ z.pend, q.id = p.id ∧ q.left = p.left - 1)) ∧
    (∀ id seq v, s.net.hand = some (.replyArrival (.ctxReply c x.handle id slice seq) v) → (∀ p ∈ x.pend, p.id = id → p.seq ≠ seq) →
      x.inject = [] → x.rq = [] → x.cut = none → Completes .replyArrival s fun t => t = s) ∧
    (∀ h id seq v, h ≠ x.handle → s.net.hand = some (.replyArrival (.ctxReply c h id slice seq) v) → Completes .replyArrival s fun t =>
      t.ctxs = s.ctxs ∧ t.mem = s.mem ∧ t.leases = s.leases) ∧
    (∀ w, s.net.hand = some (.ackArrival c x.handle w.tag slice w.seq) →
      (x.tags.find? fun v => v.tag == w.tag && v.seq == w.seq) = some w →
      Completes .ackArrival s fun t => t.mem = s.mem ∧ t.net = s.net ∧ ∃ z, t.ctx? c = some z ∧ z = { x with tags := z.tags } ∧
        (w.left = 1 → z.tags = x.tags.filter fun v => v.tag != w.tag) ∧
        (1 < w.left → z.tags.map WriteTag.tag = x.tags.map WriteTag.tag ∧ ∃ v ∈ z.tags, v.tag = w.tag ∧ v.left = w.left - 1)) ∧
    (∀ tag seq, s.net.hand = some (.ackArrival c x.handle tag slice seq) → (∀ v ∈ x.tags, v.tag = tag → v.seq ≠ seq) →
      Completes .ackArrival s fun t => t.mem = s.mem ∧ t.net = s.net ∧ ∃ z, t.ctx? c = some z ∧ z.tags = x.tags)

/-- Network events. A request answered RETRY and one that was evicted go to their target again, the evicted one with the same tag or sequence number; an
urgent packet that finds its buffer full evicts the youngest class 0 request there, or else the youngest class 1 request, which is resent 64 cycles later
in its own class; a class 0 or 1 packet that
has waited 2,048 cycles in its buffer is served as class 2; a link sends an atomic or deque request again, marked and not to be combined (R201, R355, R356, R374). Where the spec leaves it open this is the model's choice: log entries 23, 95, 124. -/
def Obligations.RequestsAreResentEvictedAndPromoted : Prop :=
  ∀ (s : State),
    (∀ r, s.net.hand = some (.retryResend r) → Completes .retryResend s fun t => t.mem = s.mem ∧ t.ctxs = s.ctxs ∧ t.sent = s.sent ++ [r.event] ∧
      ∃ g ∈ t.net.agenda, g.ev = r.event ∧ g.cls = r.cls) ∧
    (∀ r, s.net.hand = some (.evictionResend r) → Completes .evictionResend s fun t => t.mem = s.mem ∧ t.ctxs = s.ctxs ∧
      (∀ a, r = .amo a → ∃ q, t.sent = .homeAtomic { a with queue := q } :: s.sent ∧ (a.comb = false → q = none)) ∧
      ((∀ a, r ≠ .amo a) → t.sent = r.event :: s.sent)) ∧
    (∀ n f r, s.net.hand = some (.urgentPacketEvict n) → s.net.agenda[n]? = some f → f.request? = some r → isRequest f = true → f.cls ≤ 1 →
      Completes .urgentPacketEvict s fun t => t = { s with net := { s.net with agenda := (s.net.agenda.set n
          { f with due := s.clock.cycles + 64, cls := 3, since := s.clock.cycles, ev := .evictionResend r }) } }) ∧
    (∀ n, .urgentPacketEvict n ∈ s.evictions → ∃ f u, s.net.agenda[n]? = some f ∧ isRequest f = true ∧ f.cls ≤ 1 ∧ f ∈ s.entered ∧
      u ∈ s.shutOut ∧ u.cls = 3 ∧ u.buf = f.buf ∧ findsEntry u s.entered = false ∧
      ∀ g ∈ s.entered, isRequest g = true → g.buf = f.buf → (g.cls = 0 → f.cls = 0 ∧ g.since ≤ f.since) ∧
        (g.cls = 1 → f.cls = 0 ∨ g.since ≤ f.since)) ∧
    (∀ n f, s.net.hand = some (.packetPromotion n) → s.net.agenda[n]? = some f → f.cls < 2 → f.since + 2048 ≤ s.clock.cycles →
      Completes .packetPromotion s fun t => t = { s with net := { s.net with agenda := s.net.agenda.set n { f with cls := 2 } } }) ∧
    (∀ r, s.net.hand = some (.linkRetransmission (.amo r)) → Completes .linkRetransmission s fun t => t.mem = s.mem ∧ t.ctxs = s.ctxs ∧
      t.sent = s.sent ++ [.homeAtomic { r with retrans := true, queue := none }]) ∧
    (∀ r, s.net.hand = some (.linkRetransmission (.dq r)) → Completes .linkRetransmission s fun t => t.mem = s.mem ∧ t.ctxs = s.ctxs ∧
      t.sent = s.sent ++ [.homeDequeOp { r with retrans := true }])

/-- Combining. Two requests of one operation of R208's table on one word and of one lease that wait in one combining queue become one, in the place of the first, with the operation applied
to both operands, if the switch has a free entry and no older request of the second one's source on its word comes between them; it carries the switch's next number; a request whose wait ends leaves its queue; the reply of a combined request frees the entry, gives the first part the value and
the second the value after the first part's operation, each in its own request's class (R54, R207, R208, R209, R354). Where the spec leaves it open this is the model's choice: log entries 95, 125. -/
def Obligations.CombinedAtomicsAnswerBothParts : Prop :=
  ∀ (s : State) (q : Nat) (a b : AmoReq),
    (s.net.hand = some (.combineAtSwitch q a b) → .homeAtomic a ∈ s.sent → .homeAtomic b ∈ s.sent → a ≠ b →
      a.loc = b.loc → a.fn = b.fn → a.fn ≠ .swap → a.fn ≠ .cas → a.lease = b.lease → s.mayJoin a b = true → b.reply ≠ .split s.clock.nextId → a.comb = true → b.comb = true → a.retrans = false → b.retrans = false →
      a.queue = some q → b.queue = some q → (s.net.waits.filter fun p => p.2.switch == q).length < 32 →
      Completes .combineAtSwitch s fun t => t.mem = s.mem ∧ t.ctxs = s.ctxs ∧ ∃ r : AmoReq,
        t.sent = ((s.sent.map fun e => if e = .homeAtomic a then .homeAtomic r else e).filter fun e => e != .homeAtomic b) ∧
        r.returning = (a.returning || b.returning) ∧ r.comb = true ∧ r.retrans = false ∧
        r.loc = a.loc ∧ r.fn = a.fn ∧ r.lease = a.lease ∧ r.src = .switch q ∧ r.b = amoNew a.fn a.b b.b 0 ∧ r.reply = .split s.clock.nextId ∧
        r.seq = (Tab.get? s.net.forwarded q).getD 0 + 1 ∧ Tab.get? t.net.forwarded q = some r.seq ∧
        Tab.get? t.net.waits s.clock.nextId = some ⟨q, a.fn, a.b, false, a, b⟩) ∧
    (s.net.hand = some (.combineWaitExpiry a) → .homeAtomic a ∈ s.sent → a.queue = some q → Completes .combineWaitExpiry s fun t =>
      t.mem = s.mem ∧ t.ctxs = s.ctxs ∧
      t.sent = s.sent.map fun e => if e = .homeAtomic a then .homeAtomic { a with queue := none } else e) ∧
    (∀ e v w c h i k n c' h' i' k' n', s.net.hand = some (.combinedReplySplit e (.word v)) → Tab.get? s.net.waits e = some ⟨q, a.fn, w, false, a, b⟩ →
      a.reply = .ctxReply c h i k n → b.reply = .ctxReply c' h' i' k' n' → a.returning = true → b.returning = true →
      Completes .combinedReplySplit s fun t => t.mem = s.mem ∧ t.ctxs = s.ctxs ∧ t.net.waits = Tab.drop s.net.waits e ∧
        t.sent = s.sent ++ [.replyArrival a.reply (.word v), .replyArrival b.reply (.word (amoNew a.fn v w 0))] ∧
        (∃ g ∈ t.net.agenda, g.ev = .replyArrival a.reply (.word v) ∧ g.cls = a.cls) ∧
        ∃ g ∈ t.net.agenda, g.ev = .replyArrival b.reply (.word (amoNew a.fn v w 0)) ∧ g.cls = b.cls) ∧
    (∀ e v, s.net.hand = some (.combinedReplySplit e v) → Tab.get? s.net.waits e = none → Completes .combinedReplySplit s fun t => t = s)

/-! ### At the homes and ports -/

/-- Loads, stores and atomics at their homes. A store of a source whose rectangle stands leaves its bytes at its place and every other byte as it was, and is acknowledged; a load
that no die copy serves answers the bytes that stand there and changes none; an atomic answers the old word and stores the operation's result, a CAS that
fails storing nothing; a sequence number that the home has answered is answered the same again and not executed; every answer goes in the class of its
request; a request that an access table refuses, and a read or an atomic that meets an error in its data, freezes its rectangle (R193, R206, R207, R209, R288, R290, R354, R392). Where the spec leaves it open this is the model's choice: log entries 21, 71, 96, 97. -/
def Obligations.HomesServeLoadsStoresAndAtomics : Prop :=
  ∀ (s : State) (c : CtxId) (h id slice : Nat) (seq : Option (BitVec 16)),
    (∀ r : RwReq, s.net.hand = some (.homeReadWrite r) → s.sourceGone r.src = false → s.admits r.lease r.loc = false →
      let kind := if s.covers r.lease r.loc then 0x40 else 0x41
      Completes .homeReadWrite s fun t => t = s.refuse r.src 0x05 kind 0 kind) ∧
    (∀ r : RwReq, s.net.hand = some (.homeReadWrite r) → s.sourceGone r.src = false → s.admits r.lease r.loc = true →
      (r.write = true → r.reply = .ctxAck c h id slice seq → Completes .homeReadWrite s fun t => t.mem = (s.store r.loc r.data).mem ∧
        t.cells = s.cells ∧ (∃ pre, t.sent = pre ++ [.ackArrival c h id slice seq]) ∧
        ∃ g ∈ t.net.agenda, g.ev = .ackArrival c h id slice seq ∧ g.cls = r.cls) ∧
      (r.write = false → r.reply = .ctxReply c h id slice seq → s.damaged r.loc r.bytes = false → Completes .homeReadWrite s fun t => t.mem = s.mem ∧ t.cells = s.cells ∧
        t.ctxs = s.ctxs ∧ ∃ v, t.sent = s.sent ++ [.replyArrival r.reply v] ∧
          (∃ g ∈ t.net.agenda, g.ev = .replyArrival r.reply v ∧ g.cls = r.cls) ∧
          (r.vec = false → (r.atHome = true ∨ ∀ k ∈ s.homes.copies, k.die = r.die → k.loc ≠ r.loc.align 128) →
            v = .word (BitVec.ofNat 64 (leNat (s.load r.loc r.bytes))))) ∧
      (r.write = false → s.damaged r.loc r.bytes = true → (r.atHome = true ∨ ∀ k ∈ s.homes.copies, k.die = r.die → k.loc ≠ r.loc.align 128) →
        Completes .homeReadWrite s fun t => t = s.refuse r.src 0x100 0 0 0)) ∧
    (∀ r : AmoReq, s.net.hand = some (.homeAtomic r) → s.sourceGone r.src = false → s.admits r.lease r.loc = true →
      r.reply = .ctxReply c h id slice seq → r.returning = true →
      let w := BitVec.ofNat 64 (leNat (s.load r.loc 8))
      (s.heldReply (s.homeNo r.lease r.loc) r.src r.seq = none → s.damaged r.loc 8 = true → Completes .homeAtomic s fun t =>
        t = s.refuse r.src 0x100 0 0 0) ∧
      (s.heldReply (s.homeNo r.lease r.loc) r.src r.seq = none → s.damaged r.loc 8 = false → Completes .homeAtomic s fun t => t.cells = s.cells ∧
        t.mem = (if r.fn = .cas ∧ w ≠ r.cmp then s.mem else (s.store r.loc (leBytes 8 (amoNew r.fn w r.b r.cmp).toNat)).mem) ∧
        t.heldReply (s.homeNo r.lease r.loc) r.src r.seq = some (.word w) ∧ (∃ pre, t.sent = pre ++ [.replyArrival r.reply (.word w)]) ∧
        ∃ g ∈ t.net.agenda, g.ev = .replyArrival r.reply (.word w) ∧ g.cls = r.cls) ∧
      (∀ v, s.heldReply (s.homeNo r.lease r.loc) r.src r.seq = some v → Completes .homeAtomic s fun t => t.mem = s.mem ∧ t.cells = s.cells ∧
        t.ctxs = s.ctxs ∧ t.homes = s.homes ∧ t.sent = s.sent ++ [.replyArrival r.reply v]))

/-- Deques at their homes, for a well-formed descriptor on which nothing waits: a push below capacity stores its item at the slot of bottom and adds one to
bottom; a pop takes the item below bottom, a steal the one at top, and moves that end by one; either of an empty deque answers the empty marker and
changes no byte; a push on a full deque waits (R210, R211). One that is taken up again after its withdrawal has no effect (R203). Where the spec leaves it open this is the model's choice: log entry 71. -/
def Obligations.HomesServeDeques : Prop :=
  ∀ (s : State) (r : DqReq) (l : Loc), s.net.hand = some (.homeDequeOp r) → s.sourceGone r.src = false → s.admits r.lease r.loc = true →
    s.heldReply (s.homeNo r.lease r.loc) r.src r.seq = none → (∀ q, .deque q ∈ s.homes.waiters → q.loc ≠ r.loc) →
    (∃ c h id slice n, r.reply = .ctxReply c h id slice n) → r.parked = false → s.damaged r.loc 64 = false →
    let d := s.deque r.loc
    let item := fun (i : Nat) => (d.base + 8 * (i % 2 ^ d.capl)) % 2 ^ 64
    let down := (d.bottom + 2 ^ 64 - 1) % 2 ^ 64
    let answered := fun (t : State) (v : Payload) => ∃ pre, t.sent = pre ++ [.replyArrival r.reply v]
    (Completes .homeDequeOp { s with net := { s.net with hand := some (.homeDequeOp { r with parked := true }) } } fun t =>
      t = { s with net := { s.net with hand := some (.homeDequeOp { r with parked := true }) } }) ∧ (d.malformed = false →
    (∀ b, r.op = .push b → d.count < 2 ^ d.capl → s.engineLoc none r.lease (item d.bottom) true = .found l → Completes .homeDequeOp s fun t =>
      t.mem = ((s.store l (leBytes 8 b.toNat)).store (r.loc.add 24) (leBytes 8 ((d.bottom + 1) % 2 ^ 64))).mem ∧ answered t .nothing) ∧
    (∀ b, r.op = .push b → d.count = 2 ^ d.capl → Completes .homeDequeOp s fun t => t.mem = s.mem ∧ t.sent = s.sent ∧
      t.homes.waiters = s.homes.waiters ++ [.deque r]) ∧
    (r.op = .pop → 0 < d.count → s.engineLoc none r.lease (item down) false = .found l → s.damaged l 8 = false → Completes .homeDequeOp s fun t =>
      t.mem = (s.store (r.loc.add 24) (leBytes 8 down)).mem ∧ answered t (.word (BitVec.ofNat 64 (leNat (s.load l 8))))) ∧
    (r.op = .steal → 0 < d.count → s.engineLoc none r.lease (item d.top) false = .found l → s.damaged l 8 = false → Completes .homeDequeOp s fun t =>
      t.mem = (s.store (r.loc.add 16) (leBytes 8 ((d.top + 1) % 2 ^ 64))).mem ∧
      answered t (.word (BitVec.ofNat 64 (leNat (s.load l 8))))) ∧
    (r.op = .pop ∨ r.op = .steal → d.count = 0 → Completes .homeDequeOp s fun t => t.mem = s.mem ∧
      answered t (.word 0xFFFFFFFFFFFFFFFF#64)))

/-- Synchronisation at the homes. A compatible request without earlier ones on its object is granted at once and holds it; one that is not waits its turn; a release ends the hold,
and one without a hold is counted as stray; a WAITA whose condition holds is answered, and one whose condition does not is held at its slice, or polled again in host memory (R216, R218). Where the spec leaves it open this is the model's choice: log entries 19, 71. -/
def Obligations.HomesServeSynchronisation : Prop :=
  ∀ (s : State) (c : CtxId) (h id slice : Nat) (seq : Option (BitVec 16)), (∃ x, s.ctx? c = some x ∧ x.handle = h) →
    (∀ r : SyncReq, r.reply = .ctxReply c h id slice seq → s.sourceGone r.src = false → (∀ q, .sync q ∈ s.homes.waiters → q.loc ≠ r.loc) →
      s.net.hand = some (.homeAcquireRequest r) →
      (r.loc ∈ s.objectsAt (s.homeNo r.lease r.loc) ∨ (s.objectsAt (s.homeNo r.lease r.loc)).length < Config.syncObjects) →
      let free := if r.shared then ∀ k ∈ s.homes.holds, k.loc = r.loc → k.shared = true else ∀ k ∈ s.homes.holds, k.loc ≠ r.loc
      (free → Completes .homeAcquireRequest s fun t => t.mem = s.mem ∧ t.homes.holds = s.homes.holds ++ [⟨r.lease, r.loc, r.src, r.shared⟩] ∧
        t.homes.waiters = s.homes.waiters ∧ t.sent = s.sent ++ [.replyArrival r.reply .nothing]) ∧
      (¬ free → s.syncWaitsAt (s.homeNo r.lease r.loc) < Config.syncWaiters → Completes .homeAcquireRequest s fun t => t.mem = s.mem ∧
        t.homes.holds = s.homes.holds ∧ t.homes.waiters = s.homes.waiters ++ [.sync r] ∧ t.sent = s.sent)) ∧
    (∀ r : SyncReq, s.sourceGone r.src = false → s.net.hand = some (.homeRelease r) → (∀ q, .sync q ∈ s.homes.waiters → q.loc ≠ r.loc) →
      (∀ k, (s.homes.holds.find? fun k => k.loc == r.loc && k.src == r.src) = some k → Completes .homeRelease s fun t =>
        t.mem = s.mem ∧ t.ctxs = s.ctxs ∧ t.homes = { s.homes with holds := s.homes.holds.erase k } ∧ t.sent = s.sent) ∧
      ((∀ k ∈ s.homes.holds, k.loc = r.loc → k.src ≠ r.src) → Completes .homeRelease s fun t => t.homes = s.homes ∧ t.mem = s.mem ∧
        (t.lease r.lease).errStray = min 65535 ((s.lease r.lease).errStray + 1) ∧ t.sent = s.sent)) ∧
    (∀ r : WaitaReq, r.reply = .ctxReply c h id slice seq → s.sourceGone r.src = false → .watch r ∉ s.homes.waiters →
      let holds := waitaHolds r (leNat (s.load r.loc (if r.w32 then 4 else 8)))
      (s.net.hand = some (.homeWaitaRequest r) → s.admits r.lease r.loc = true → s.damaged r.loc (if r.w32 then 4 else 8) = false →
        (holds = true → Completes .homeWaitaRequest s fun t => t.mem = s.mem ∧ t.sent = s.sent ++ [.replyArrival r.reply .nothing]) ∧
        (holds = false → r.loc.isHost = true → Completes .homeWaitaRequest s fun t => t.mem = s.mem ∧ t.sent = s.sent ++ [.waitaHostPoll r]) ∧
        (holds = false → r.loc.isHost = false → s.watchesAt (s.sliceNo r.loc) < Config.watches → Completes .homeWaitaRequest s fun t =>
          t.mem = s.mem ∧ t.sent = s.sent ∧ t.homes.waiters = s.homes.waiters ++ [.watch r])) ∧
      (s.net.hand = some (.waitaHostPoll r) →
        (holds = true → Completes .waitaHostPoll s fun t => t.mem = s.mem ∧ t.sent = s.sent ++ [.replyArrival r.reply .nothing]) ∧
        (holds = false → Completes .waitaHostPoll s fun t => t.mem = s.mem ∧ t.sent = s.sent ++ [.waitaHostPoll r])))

/-- Scratchpad ports, where nothing is parked. A load answers the bytes of its cell, a store leaves its bytes there with every word that they touch full; LDF of a full word answers it
and leaves it empty, LDP answers it and leaves it full, STE of an empty word writes it and leaves it full; a request whose word is in the other state is parked, or
sent again from its cell when the table is full. The port notes the cycle and the place in its order of each access that it serves (R71, R72, R200, R201). Where the spec leaves it open this is the model's choice: log entry 117. -/
def Obligations.ScratchpadPortsServeTheirRequests : Prop :=
  ∀ (s : State) (c : CtxId) (h id slice : Nat) (seq : Option (BitVec 16)) (k : Cell),
    (∀ r : PadReq, s.net.hand = some (.scratchpadPortAccess r) → s.cell? r.cell = some k →
      (r.write = false → r.vec = false → r.reply = .ctxReply c h id slice seq → Completes .scratchpadPortAccess s fun t =>
        t.mem = s.mem ∧ t.cells = Tab.put s.cells r.cell { k with port := (s.clock.cycles, s.portOrder r.reply r.cell) } ∧ t.ctxs = s.ctxs ∧
        t.sent = s.sent ++ [.replyArrival r.reply (.word (BitVec.ofNat 64 (leNat (k.get r.off r.bytes r.back))))]) ∧
      (r.write = true → r.data ≠ [] → r.reply = .ctxAck c h id slice seq → k.parked = [] → Completes .scratchpadPortAccess s fun t => t.mem = s.mem ∧
        (∃ d, t.cell? r.cell = some d ∧ d = { k with pad := d.pad, empties := d.empties, port := (s.clock.cycles, s.portOrder r.reply r.cell) } ∧
          d.pad = k.pad.writeAt (fun i => k.phys r.off r.back + i) 0 r.data ∧
          (∀ w, d.isFull w = (k.isFull w ||
            decide (k.phys r.off r.back / 8 ≤ w ∧ w ≤ (k.phys r.off r.back + r.data.length - 1) / 8)))) ∧
        (∀ d, d ≠ r.cell → t.cell? d = s.cell? d) ∧ t.sent = s.sent ++ [.ackArrival c h id slice seq])) ∧
    (∀ r : PresReq, s.net.hand = some (.presencePortRequest r) → s.cell? r.cell = some k → r.reply = .ctxReply c h id slice seq →
      let word := k.phys r.off false / 8; let old := BitVec.ofNat 64 (leNat (k.get r.off 8 false))
      let port := (s.clock.cycles, s.portOrder r.reply r.cell)
      let served := fun (t : State) (d : Cell) (v : Payload) => t.cells = Tab.put s.cells r.cell { d with port := port } ∧ t.mem = s.mem ∧ t.ctxs = s.ctxs ∧
        t.sent = s.sent ++ [.replyArrival r.reply v]
      (k.parked = [] → k.isFull word = true → r.op = .ldf → Completes .presencePortRequest s fun t =>
        served t { k with empties := word :: k.empties.filter (· != word) } (.word old)) ∧
      (k.parked = [] → k.isFull word = true → r.op = .ldp → Completes .presencePortRequest s fun t => served t k (.word old)) ∧
      (∀ b, k.parked = [] → k.isFull word = false → r.op = .ste b → Completes .presencePortRequest s fun t =>
        served t (k.put r.off (leBytes 8 b.toNat) false) .nothing) ∧
      ((if r.op = .ldf ∨ r.op = .ldp then k.isFull word = false else k.isFull word = true) →
        (k.parked.length < Config.parked → Completes .presencePortRequest s fun t =>
          t = { s with cells := Tab.put s.cells r.cell { k with parked := k.parked ++ [r], port := port } }) ∧
        (Config.parked ≤ k.parked.length → Completes .presencePortRequest s fun t => t.mem = s.mem ∧ t.cells = s.cells ∧ t.ctxs = s.ctxs ∧
          t.sent = .retryResend (.pres r) :: s.sent)))

/-- Barriers, withdrawals, purges, walks and share windows. A participant of a barrier of its crew or its rectangle that is not the last waits, and the last one lets all of its scope go on, after the halves of the
scope's cells have swapped at an XBAR; a withdrawal of a request that waits at its home, is parked at a scratchpad, or waits at a barrier removes it and returns its entry to WAITING, and one that finds nothing
changes nothing; a purge takes the handle's waiting requests, holds and held replies from its home, and a hold that it frees goes to the next request; a walk fills the caches of its context and of its die, or leaves the failure with the
context; a new window charges every lease from zero (R72, R203, R205, R207, R216, R219, R348, R382, R383). Where the spec leaves it open this is the model's choice: log entries 25, 32, 117, 128, 132. -/
def Obligations.BarriersWithdrawalsPurgesAndWalksTakeEffect : Prop :=
  ∀ (s : State) (c : CtxId) (x : Ctx) (r : Rect), s.ctx? c = some x → s.rect? c.slot = some r →
    (∀ id rect xbar, s.net.hand = some (if xbar then .xbarArrival c rect id else .barArrival c rect id) →
      let mine := fun (a : Arrival) => a.xbar == xbar && a.rect == rect && (rect || a.who.cell == c.cell)
      let ev : Instr := if xbar then .xbarArrival else .barArrival
      let as := r.arrived.filter mine
      let needed := (s.participants c xbar rect).length
      (as.length + 1 < needed → Completes ev s fun t =>
        t = s.setRect c.slot { r with arrived := r.arrived ++ [⟨c, id, xbar, rect, s.net.cls⟩] }) ∧
      (needed ≤ as.length + 1 → (xbar = true → (s.exchanges c x rect).Nodup ∧
          ∀ k ∈ s.exchanges c x rect, ∀ d, s.cell? k = some d → d.parked = []) → Completes ev s fun t => t.mem = s.mem ∧ t.ctxs = s.ctxs ∧
        t.rect? c.slot = some { r with arrived := r.arrived.filter fun a => !mine a } ∧
        (∀ k d, s.cell? k = some d → t.cell? k = some (if xbar = true ∧ k ∈ s.exchanges c x rect then
          { d with front := !d.front, port := (s.clock.cycles, 0) } else d)) ∧
        .replyArrival (.ctxReply c x.handle id 0 none) .nothing ∈ t.sent ∧
        ∀ a ∈ as, ∀ y, s.ctx? a.who = some y → .replyArrival (.ctxReply a.who y.handle a.id 0 none) .nothing ∈ t.sent)) ∧
    (∀ id, s.net.hand = some (.withdrawalArrival c id) →
      let waiting := fun (t : State) => ∃ z, t.ctx? c = some z ∧ z = { x with rq := z.rq, cut := z.cut } ∧
        z.rq = x.rq.map fun e => if e.id = id ∧ e.status = 1#4 then { e with status := 0, id := 0, left := 0, slices := [], seq := none } else e
      let parkedNone := ∀ p ∈ s.cells, ∀ q ∈ p.2.parked, namesReply c id q.reply = false
      let homeNone := ∀ w ∈ s.homes.waiters, namesReply c id w.reply = false
      (∀ w, (s.homes.waiters.find? fun w => namesReply c id w.reply) = some w → parkedNone →
        ((∃ q, w = .watch q) ∨ ∀ v ∈ s.homes.waiters, v.loc = w.loc → v.same w = true) → Completes .withdrawalArrival s fun t =>
          t.homes = { s.homes with waiters := s.homes.waiters.filter fun v => !v.same w } ∧ t.mem = s.mem ∧ t.cells = s.cells ∧ t.net = s.net ∧
          waiting t) ∧
      (∀ k d, homeNone → (s.cells.find? fun p => p.2.parked.any fun q => namesReply c id q.reply) = some (k, d) → s.cell? k = some d →
        Completes .withdrawalArrival s fun t => t.mem = s.mem ∧ t.net = s.net ∧ t.homes = s.homes ∧ waiting t ∧
          t.cell? k = some { d with parked := d.parked.filter (fun q => !namesReply c id q.reply),
                                    port := (s.clock.cycles, s.portOrder (.ctxReply c 0 id 0 none) k) } ∧
          ∀ j, j ≠ k → t.cell? j = s.cell? j) ∧
      (homeNone → parkedNone → (∀ f ∈ s.net.agenda, waitsToResend c id f = false) → (∃ a ∈ r.arrived, a.who = c ∧ a.id = id) →
        Completes .withdrawalArrival s fun t => t.mem = s.mem ∧ t.cells = s.cells ∧ t.net = s.net ∧ t.homes = s.homes ∧ waiting t ∧
          t.rect? c.slot = some { r with arrived := r.arrived.filter fun a => !(a.who == c && a.id == id) }) ∧
      (homeNone → parkedNone → (∀ f ∈ s.net.agenda, waitsToResend c id f = false) → (∀ a ∈ r.arrived, a.who = c → a.id ≠ id) →
        Completes .withdrawalArrival s fun t => t = s)) ∧
    (∀ handle target, s.net.hand = some (.purgeArrival handle target) →
      ((∀ w ∈ s.homes.waiters, ∃ q, w = .watch q) → Completes .purgeArrival s fun t => t.mem = s.mem ∧ t.ctxs = s.ctxs ∧
        t.homes = { s.homes with
          replies := s.homes.replies.filter (fun q => !(srcHandle q.src == handle && q.home == target + 1)),
          waiters := s.homes.waiters.filter (fun w => !(srcHandle w.src == handle && s.homeNo w.lease w.loc == target + 1)),
          holds := s.homes.holds.filter (fun k => !(srcHandle k.src == handle && s.homeNo k.lease k.loc == target + 1)) } ∧
        (t.slot (handle % 1024)).purges = (s.slot (handle % 1024)).purges.erase target) ∧
      (∀ k q d h id slice n, s.homes.holds = [k] → srcHandle k.src = handle → s.homeNo k.lease k.loc = target + 1 → s.homes.waiters = [.sync q] →
        q.loc = k.loc → srcHandle q.src ≠ handle → s.sourceGone q.src = false → q.reply = .ctxReply d h id slice n → Completes .purgeArrival s fun t =>
          t.mem = s.mem ∧ t.homes.holds = [⟨q.lease, q.loc, q.src, q.shared⟩] ∧ t.homes.waiters = [] ∧
          t.sent = s.sent ++ [.replyArrival q.reply .nothing])) ∧
    (∀ w : WalkReq, s.net.hand = some (.pageWalkDone w) → w.who = some c → x.walk.busy = some (w.va / 65536) →
      (∀ leaf bytes wr, s.walkOf w.lease w.va = .found leaf bytes wr → Completes .pageWalkDone s fun t => t.mem = s.mem ∧ t.cells = s.cells ∧
        let e : TlbEntry := ⟨w.lease, w.va - w.va % bytes, bytes, leaf, wr⟩
        t.net = s.net ∧ ((Tab.get? t.homes.tlbs w.die).getD []).head? = some e ∧
        (∀ d, d ≠ w.die → Tab.get? t.homes.tlbs d = Tab.get? s.homes.tlbs d) ∧
        ∃ z, t.ctx? c = some z ∧ z = { x with walk := { x.walk with busy := none }, tcache := z.tcache } ∧ z.tcache.head? = some e) ∧
      (∀ m, s.walkOf w.lease w.va = .unmapped m → Completes .pageWalkDone s fun t =>
        t = s.setCtx c { x with walk := ⟨none, (w.va / 65536, m) :: x.walk.failed⟩ })) ∧
    (s.net.hand = some .shareWindowRoll → s.clock.window + 16384 ≤ s.clock.cycles → Completes .shareWindowRoll s fun t => t.mem = s.mem ∧
      t.ctxs = s.ctxs ∧ t.clock = { s.clock with window := s.clock.window + 16384 } ∧ ∀ l, (t.lease l).charge = [0, 0, 0])

/-! ### Rectangles -/

/-- The life of a rectangle. A written load is UNARMED and is checked; an arm check posts the lowest edge whose ends disagree and leaves it UNARMED, or leaves it ARMED with its start to come, and a start that
reaches an ARMED rectangle is applied; a restored one is ARMED too, and one whose reel was taken from RUNNING goes on to RUNNING from there with no new start; one
whose reel fails a check is FAULTED with REEL_CORRUPT; the end of its control begins its completion, which writes the status word and then the signal, each where it has an address, leaves a retained rectangle ARMED and passes any other to EMPTY, so
that its handle names nothing, with its children, and leaves DONE in its parent's record; a rectangle over its budget is recorded and demoted or killed, once (R17, R20, R23, R47, R49, R50, R273, R345, R346, R373, R396). Where the spec leaves it open this is the model's choice: log entries 34, 36, 53, 54, 90, 109, 129. -/
def Obligations.RectanglesArmStartCompleteAndOverrun : Prop :=
  ∀ (s : State) (slot : Nat) (r : Rect), s.rect? slot = some r →
    (s.net.hand = some (.configWritten slot) → r.state = .loading → r.restoring = false → Completes .configWritten s fun t =>
      t.rect? slot = some { r with state := .unarmed } ∧ t.sent = s.sent ++ [.armCheck slot] ∧ t.mem = s.mem ∧ t.ctxs = s.ctxs) ∧
    (s.net.hand = some (.armCheck slot) → r.state = .unarmed → r.restoring = false → r.cutDeferred = none →
      (∀ e, r.image.edges.find? EdgeE.disagrees = some e → Completes .armCheck s fun t =>
        t = s.postRecord r.lease (s.record 0x0A 0x0C 0 0 (s.handleOf slot) e.number none 0 e.number (e.fmtP * 256 + e.fmtC) 0)) ∧
      ((∀ e ∈ r.image.edges, e.fmtP = 0xFF ∨ e.fmtC = 0xFF ∨ e.fmtP = e.fmtC) → Completes .armCheck s fun t => t.mem = s.mem ∧ t.cells = s.cells ∧
        ∃ q, t.rect? slot = some q ∧ q.state = .armed ∧
          (r.retain = true ∧ r.binds = [] → q.startHeld = none ∧ t.sent = s.sent) ∧
          (¬ (r.retain = true ∧ r.binds = []) → q.startHeld = some r.binds ∧ t.sent = s.sent ++ [.armCheck slot]))) ∧
    (s.net.hand = some (.armCheck slot) → r.restoring = true → r.state = .unarmed → r.cutDeferred = none →
      (∀ e ∈ r.image.edges, e.fmtP = 0xFF ∨ e.fmtC = 0xFF ∨ e.fmtP = e.fmtC) → Completes .armCheck s fun t => t.mem = s.mem ∧
        ∃ q, t.rect? slot = some q ∧ q.state = .armed ∧ q.reel = none ∧ q.restoring = (r.reel.any fun k => k.origin == 1) ∧
          (q.restoring = true → q.startHeld = none ∧ .armCheck slot ∈ t.sent)) ∧
    (s.net.hand = some (.armCheck slot) → r.restoring = true → r.state = .armed → r.collector = none → Completes .armCheck s fun t =>
      t.mem = s.mem ∧ t.cells = s.cells ∧ t.rect? slot = some { r with state := .running, restoring := false } ∧
        ∀ ch, .ctlStartPulse slot ch ∈ t.sent → .ctlStartPulse slot ch ∈ s.sent) ∧
    (∀ k off code, s.net.hand = some (.configWritten slot) → r.state = .loading → r.restoring = true → r.reel = some k →
      k.damage = some (off, code) → r.parent = none → r.children = [] → slot < 1024 → Completes .configWritten s fun t => t.rect? slot = none ∧
        t = ((s.postRecord r.lease (s.record 0x09 0x0B 0 0 (s.handleOf slot) 0xFFFF none 0 off code 0)).report slot
          ⟨.faulted, 0x0B, 0xFFFF⟩).toEmpty slot) ∧
    (∀ bs, s.net.hand = some (.armCheck slot) → r.state = .armed → r.restoring = false → r.startHeld = some bs → r.collector = none → Completes .armCheck s fun t =>
      t = (s.setRect slot { r with startHeld := none }).applyStart slot bs) ∧
    (s.net.hand = some (.rectSinksDone slot) → s.sinksDue slot = true → Completes .rectSinksDone s fun t =>
      t = (s.nodesOf slot).foldl (fun u p => u.lastRun slot p.1)
        (s.setRect slot { r with completing := 1, leaves := r.leaves.modify 0 fun l => { l with active := false, pulsed := false } })) ∧
    (∀ st sg : List (Loc × BitVec 64), s.net.hand = some (.completionSignalWrite slot) → s.signalDue slot = true → (s.lease r.lease).stWrites = [] →
      (if r.stAddr = 0 then st = [] else ∃ l, s.engineLoc none r.lease r.stAddr true = .found l ∧ st = [(l, BitVec.ofNat 64 (s.handleOf slot * 2 ^ 32))]) →
      (if r.sigAddr = 0 then sg = [] else ∃ l, s.engineLoc none r.lease r.sigAddr true = .found l ∧ sg = [(l, r.sigVal)]) →
      let written := ((st ++ sg).foldl (fun u p => State.store u p.1 (leBytes 8 p.2.toNat)) s).mem
      (r.retain = true → r.cutDeferred = none → (∀ p ∈ s.nodesOf slot, p.2.spent = false) → Completes .completionSignalWrite s fun t =>
        t.mem = written ∧ t.rect? slot = some { r with state := .armed, completing := 0, stAddr := 0 }) ∧
      (r.retain = false → slot < 1024 → Completes .completionSignalWrite s fun t => t.rect? slot = none ∧
        (t.slot slot).gen = ((s.slot slot).gen + 1) % 256 ∧ (∀ c, c.slot = slot → t.ctx? c = none) ∧ t.live? (s.handleOf slot) = none ∧
        (∀ k ∈ r.children, ∀ n, s.live? k.handle = some n → t.rect? n = none) ∧
        (r.children = [] → t.mem = written ∧ ∀ h p q, r.parent = some h → s.live? h = some p → p ≠ slot → s.rect? p = some q → q.joins = [] →
          t.rect? p = some { q with children := q.children.map fun k =>
            if k.handle = s.handleOf slot then { k with out := some ⟨.done, 0, 0xFFFF⟩ } else k }))) ∧
    (s.net.hand = some (.rectOverrun slot) → s.rectOverrunDue slot = true →
      let u := ((s.setRect slot { r with overran := true }).postRecord r.lease
        (s.record 0x03 0x03 0 0 (s.handleOf slot) 0xFFFF none 0 r.item.budget r.count 0)).count r.lease 0x039 (s.handleOf slot) 1
      Completes .rectOverrun s fun t =>
        (r.item.demotePolicy = true → t = u.modRect slot fun q => { q with item := { q.item with demoted := true } }) ∧
        (r.item.demotePolicy = false → t = u.killRect slot 0x03))

/-- Cuts and freezes. A cut request drains an ARMED or RUNNING rectangle and sends a cut token to each of its first nodes, waits for a rectangle that is not armed yet, and is absorbed by a
freeze; the first token or freeze that reaches a node stops it, its contexts captured with their unfinished instructions, what waits at issue and where fetch goes on, and with the requests that wait withdrawn; a cut token goes on along each of the
node's output edges once the node has reached its stopping point; each node and each switch on the routes acknowledges, in a class 3 packet; acknowledgements are collected, and the last of a freeze leaves the rectangle FROZEN with the FAULT record of its first fault; the first fault
of a running rectangle latches it and freezes every unit, a later one is recorded as secondary, one of a FROZEN rectangle is ignored (R20, R21, R25, R26, R86, R88 to R90, R203, R327, R388, R394, R422). Where the spec leaves it open this is the model's choice: log entries 31, 53, 100. -/
def Obligations.CutsAndFreezesStopARectangle : Prop :=
  ∀ (s : State) (slot : Nat) (r : Rect), s.rect? slot = some r →
    (∀ why, s.net.hand = some (.cutRequest slot why) →
      (r.collector = none → r.completing = 0 → r.state = .armed ∨ r.state = .running → Completes .cutRequest s fun t => t.mem = s.mem ∧ t.ctxs = s.ctxs ∧
        (∃ q, t.rect? slot = some q ∧ q.state = .draining ∧ q.wasRunning = (r.state == .running || r.restoring) ∧ q.outcome = r.outcome ∧
          q.collector = some ⟨false, r.units, [], [], [], s.clock.cycles, none, why, []⟩) ∧
        t.sent = s.sent ++ r.image.cutTargets.map fun n => .cutTokenArrival slot n) ∧
      (r.collector = none → r.state = .loading ∨ r.state = .unarmed → Completes .cutRequest s fun t =>
        t = s.setRect slot { r with cutDeferred := some (r.cutDeferred.getD why) }) ∧
      (r.collector.isSome = true ∨ r.state = .saved ∨ r.state = .frozen → Completes .cutRequest s fun t => t = s)) ∧
    (∀ node k, s.net.hand = some (.cutTokenArrival slot node) → r.collector = some k → k.freeze = false →
      (node ∉ k.cutSent → node ∉ k.passed → Completes .cutTokenArrival s fun t => t.mem = s.mem ∧
        (s.atStop slot node = true → t = ((s.stopNode slot node).modRect slot fun q => { q with collector := q.collector.map fun j =>
            { j with passed := j.passed ++ [node] } }).postAll 3
          ((r.image.edges.filter fun e => e.src == node).map fun e => .cutTokenArrival slot e.dst)) ∧
        (s.atStop slot node = false → t = s.stopNode slot node)) ∧
      (node ∈ k.cutSent → Completes .cutTokenArrival s fun t => t = s)) ∧
    (∀ node k, s.net.hand = some (.freezeArrival slot node) → r.collector = some k → k.freeze = true →
      (node ∉ k.cutSent → Completes .freezeArrival s fun t => t.mem = s.mem ∧ t = s.stopNode slot node) ∧
      (node ∈ k.cutSent → Completes .freezeArrival s fun t => t = s)) ∧
    (∀ node c x k, r.collector = some k → s.ctx? c = some x → c.slot = slot → x.node = node → x.cut = none → x.stopped = false →
      let u := s.stopNode slot node
      u.mem = s.mem ∧ u.rect? slot = some { r with collector := some { k with cutSent := k.cutSent ++ [node] } } ∧
      ∃ z m, u.ctx? c = some z ∧ (let y : Ctx := { x with cut := some m, pend := [], inject := [], injecting := none, hold := .free, walk := .none }; z = { y with rq := z.rq, loop0 := z.loop0, loop1 := z.loop1 }) ∧ m.halted = x.halted ∧
        (∀ e ∈ m.queue ++ z.rq, e.status = 1#4 → e.decoded.any withdrawn = true → .withdrawalArrival c e.id ∈ u.sent) ∧
        (x.inject = [] → z.rq = x.rq ∧
          (x.hold = .free ∨ x.hold = .yielded → m.queue = x.pend.map Pend.entry ∧ m.resume = x.pc) ∧
          (x.hold = .idle ∨ x.hold = .woken → m.queue = x.pend.map Pend.entry ∧ m.resume = (x.loopBack x.pc).2) ∧
          (∀ n j w, x.hold = .blocked n → x.fetched = some (j, w) → x.pend.length < 16 →
            m.queue = x.pend.map Pend.entry ++ [Ctx.entryFor { x with injecting := none } j w x.pc 0] ∧ m.resume = (x.passBy j x.pc).2)) ∧
        (x.inject ≠ [] → x.injectBy ≠ .rply → z.rq = x.rq ∧ m.queue = x.pend.map Pend.entry ++ x.inject ∧ m.resume = x.pc)) ∧
    (∀ p : Pend, (∀ o, p.instr ≠ .scmdw o) → p.entry.pc = p.pc ∧ p.entry.status = 1#4 ∧ p.entry.instr = encodeWord p.instr ∧
      (p.entry.file, p.entry.dest) = destOf p.instr ∧ (p.entry.va, p.entry.vb, p.entry.a, p.entry.b) = (p.va, p.vb, p.a, p.b)) ∧
    (∀ node, s.ackDue slot node = true → ∃ g ∈ (s.sendAck slot node).net.agenda, g.ev = .stopAckArrival slot node ∧ g.cls = 3) ∧
    (∀ node k, s.net.hand = some (.stopAckArrival slot node) → r.collector = some k → node ∉ k.owed → Completes .stopAckArrival s fun t => t = s) ∧
    (∀ node k, s.net.hand = some (.stopAckArrival slot node) → r.collector = some k → node ∈ k.owed →
      let owed := k.owed.filter fun n => n != node
      (k.freeze = false ∨ (owed ≠ [] ∧ k.complete = none) → Completes .stopAckArrival s fun t => t = s.setRect slot { r with
        collector := some { k with owed := owed, complete := if owed.isEmpty then some s.clock.cycles else k.complete,
                                   counts := if owed.isEmpty then (s.lease r.lease).counts else k.counts } }) ∧
      (owed = [] → k.freeze = true → r.parent = none → r.joins = [] → Completes .stopAckArrival s fun t =>
        (∃ q, t.rect? slot = some q ∧ q.state = .frozen ∧ q.collector = none ∧ q.stoppedAt = s.clock.cycles ∧ q.outcome.isSome = true) ∧
        ∀ f, r.first = some f → r.outcome = none → r.stAddr = 0 →
          let q := { r with state := .frozen, collector := none, reel := none, move := none, sliced := false, cutDeferred := none, startHeld := none,
                            stoppedAt := s.clock.cycles, stopCounts := (s.lease r.lease).counts }
          t = ((s.setRect slot q).postRecord r.lease (s.record 0x01 f.cause f.sub 0 (s.handleOf slot) f.node f.who f.addr.toNat
            (f.unitClass % 256 + f.unitIndex % 256 * 256) f.detail1 r.faults)).setRect slot { q with outcome := some ⟨.faulted, f.cause, f.node⟩ })) ∧
    (∀ f, s.net.hand = some (.faultEvent slot f) →
      (r.first = none → r.state = .armed ∨ r.state = .running ∨ r.state = .draining → Completes .faultEvent s fun t => t.mem = s.mem ∧ t.ctxs = s.ctxs ∧
        (∃ q, t.rect? slot = some q ∧ q.first = some f ∧ q.faults = 1 ∧ q.state = r.state ∧ ∃ k, q.collector = some k ∧ k.freeze = true ∧
          k.owed = r.units) ∧
        t.sent = s.sent ++ r.units.map fun n => .freezeArrival slot n) ∧
      (∀ g, r.first = some g → r.state = .armed ∨ r.state = .running ∨ r.state = .draining → Completes .faultEvent s fun t =>
        t = (s.setRect slot { r with faults := r.faults + 1 }).postRecord r.lease (s.record 0x01 f.cause f.sub 1 (s.handleOf slot) f.node f.who
          f.addr.toNat (f.unitClass % 256 + f.unitIndex % 256 * 256) f.detail1 (r.faults + 1))) ∧
      (r.state = .frozen → Completes .faultEvent s fun t => t = s))

/-- Reels, limits, moves and restores. A rectangle whose cut is complete is written to its reel, at a place of its lease's RESV frames, and is SAVED without a collector; while they lack room it waits; one that a unit
holds up past four times its drain bound is FROZEN and FAULTED, and an ERROR record names the first unit that owes its acknowledgement; a move whose placement, engines and drain bound at the target are found reserves all three and requests a cut, and else is not made; a SAVED rectangle
that is restored is LOADING at the target of its move, or at an area of its shape (R20, R23, R333, R334, R337, R360, R394, R395). Where the spec leaves it open this is the model's choice: log entries 50, 55, 56, 57, 58. -/
def Obligations.ReelsLimitsMovesAndRestoresTakeEffect : Prop :=
  ∀ (s : State) (slot : Nat) (r : Rect), s.rect? slot = some r →
    (∀ k, s.net.hand = some (.reelWrite slot) → r.collector = some k → s.reelDue slot = true →
      (s.reelRoom slot r k = none → Completes .reelWrite s fun t => t = s) ∧
      (∀ a, s.reelRoom slot r k = some a → Completes .reelWrite s fun t =>
        t.ctxs = s.ctxs ∧ t.cells = s.cells ∧ ∃ q m, t.rect? slot = some q ∧ q.state = .saved ∧ q.collector = none ∧ q.reel = some m ∧
          m.origin = (if r.wasRunning then 1 else 0) ∧ m.addr = a ∧
          let bs := reelBytes s.tick (s.handleOf slot) (k.complete.getD 0 / 4) m.origin k.counts r
          m.bytes = bs.length ∧ t.mem = (s.store (.dev r.lease a) bs).mem ∧
          (r.image.digest.length = 48 → (s.lease r.lease).bytes ≤ a ∧ a + bs.length ≤ (s.lease r.lease).bytes + (s.lease r.lease).resvBytes))) ∧
    (∀ k, s.net.hand = some (.drainLimitExpiry slot) → r.collector = some k → s.limitPassed slot = true → r.parent = none → r.joins = [] →
      Completes .drainLimitExpiry s fun t => (∃ q, t.rect? slot = some q ∧ q.state = .frozen ∧ q.collector = none ∧ q.outcome.isSome = true) ∧
        ∀ n, k.owed ≠ [] → (r.units.find? fun u => k.owed.contains u) = some n → n < 65536 → r.first = none → r.outcome = none → r.stAddr = 0 →
          (∀ p ∈ s.allCtxs slot, p.2.cut.isSome = true ∨ p.2.stopped = true) →
          t = (s.postRecord r.lease (s.record 0x0B 0 0 0 (s.handleOf slot) n none 0 (r.image.unitOf n) 0 0)).setRect slot
            (Rect.freeze s.clock.cycles (s.lease r.lease).counts { r with outcome := some ⟨.faulted, 0, 0xFFFF⟩ })) ∧
    (∀ col row, s.net.hand = some (.moveStart slot col row) →
      (s.planMove slot col row = none → Completes .moveStart s fun t => t = s) ∧
      (∀ m, s.planMove slot col row = some m → m.col = col ∧ m.row = row ∧ m.fit.drain ≤ 80000 ∧ Completes .moveStart s fun t => t.mem = s.mem ∧
        t.ctxs = s.ctxs ∧ t.rect? slot = some { r with move := some m } ∧ t.sent = s.sent ++ [.cutRequest slot .move])) ∧
    (∀ m, s.net.hand = some (.autoRestore slot) → r.state = .saved →
      s.restorePlan slot (s.readReel slot r) (s.readReel slot r).damaged = some m → Completes .autoRestore s fun t => t.mem = s.mem ∧
        (∃ q, t.rect? slot = some q ∧ q.state = .loading ∧ q.restoring = true ∧ q.move = none ∧ q.col0 = m.col ∧ q.row0 = m.row ∧ q.drain = m.fit.drain) ∧
        (∀ p, r.move = some p → m.col = p.col ∧ m.row = p.row ∧ m.fit.drain = p.fit.drain) ∧ .configWritten slot ∈ t.sent)

/-! ### Tile tasks, the host and the hub -/

/-- What one K-step adds to a block (R244, R280): each element of an integer accumulator takes the sum of its 16 products mod 2^32, each of a floating-point one takes their exact sum with one
rounding to nearest even, and each of an .fp4b one its two blocks of eight in ascending K order, each with a rounding of its own. -/
def KstepSums : Prop :=
  ∀ (acc : AccSlot) (fa fb : Ty) (a b : List (List Lane)) (e : Nat), e < 256 →
    let xs := elemsOf fa (a.getD (e / 16) [])
    let ys := elemsOf fb (b.getD (e % 16) [])
    let old := (acc.elems.getD e 0).toNat
    (acc.kstep fa fb a b).fmt = acc.fmt ∧ (acc.kstep fa fb a b).elems[e]? = some (BitVec.ofNat 64 (
      if fa = .fp4b then
        ((List.zipWith blockDot (a.getD (e / 16) []) (b.getD (e % 16) [])).foldl accStep (old, 0)).1
      else if acc.fmt = .i32 then (((old : Int) + ((List.zip xs ys).map fun (p : Nat × Nat) => intOf fa p.1 * intOf fb p.2).sum) % 2 ^ 32).toNat
      else (acc.fmt.ff.round .rne 0 (numAdd .rne (acc.fmt.ff.decode old)
        (numTotal .rne ((List.zip xs ys).map fun p => numMul ((ffOf fa).decode p.1) ((ffOf fb).decode p.2))).1).1).1))

/-- What a K-step makes of an accumulator and of the parts still to be added (R244, R280, R282). In REPRO mode, and of one part per K-step, it adds its sub-blocks at once; else they are kept until the last
of the block and all added then, in some order, an .fp4b one by blocks of eight; without REPRO a step of zeros may be left out. The last .fp4b step applies the band scales. -/
def KstepLeaves (t : TileRec) (repro last : Bool) (a b : List (List Lane)) (old next : AccSlot) (parts kept : List (List (List Lane) × List (List Lane))) : Prop :=
  ∃ sum : AccSlot,
    (t.fa = .fp4b ∧ last = true → ∀ e < 256, next.elems[e]? = some (BitVec.ofNat 64 (
      let band := fun (rows : List (List Lane)) i => FF.bf16.decode (((rows.getD i []).headD (.plain 0)).band).toNat
      let scale := (FF.f32.round .rne 0 (numMul (band a (e / 16)) (band b (e % 16))).1).1
      (FF.f32.round .rne 0 (numMul (FF.f32.decode (sum.elems.getD e 0).toNat) (FF.f32.decode scale)).1).1))) ∧
    (¬ (t.fa = .fp4b ∧ last = true) → next = sum) ∧
    ∃ skip : Bool, (skip = true → repro = false ∧ skippable t.fa t.fb a b = true) ∧
      let all := if skip then parts else parts ++ [(a, b)]
      (repro = true ∨ (t.fa ≠ .fp4b ∧ t.qa = false ∧ t.qb = false) → kept = [] ∧ sum = if skip then old else old.kstep t.fa t.fb a b) ∧
      (repro = false → t.fa = .fp4b ∨ t.qa = true ∨ t.qb = true →
        (last = false → sum = old ∧ kept = all) ∧
        (last = true → kept = [] ∧ ∃ us : List (List (List Lane) × List (List Lane)), us.Perm (if t.fa = .fp4b then
            all.flatMap fun p => [0, 1].map fun j => (p.1.map fun r => (r.drop j).take 1, p.2.map fun r => (r.drop j).take 1)
          else all) ∧ sum = us.foldl (fun q u => q.kstep t.fa t.fb u.1 u.2) old))

/-- The accumulator from which a row half goes on with a block, and the state in which it does (R244): the one it holds, or a new one, +0 or C converted exactly. -/
def BlockGoesOn (s : State) (row : Nat) (k : TileTask) (acc : AccSlot) (go : State) : Prop :=
  let r := s.row row
  let t := k.tile
  (r.work = some acc ∧ r.ksteps.length ≠ t.k ∧ go = s) ∨
  (r.work = none ∧ ∃ f w, tileFmt t.fa t.fb t.fc = some (f, w) ∧ acc.fmt = f ∧
    ((t.acc = false ∧ go = s ∧ acc.elems = List.replicate 256 0) ∨
      (t.acc = true ∧ ∃ rows, s.loadRows ⟨k.cmd.lease, 0⟩ (row / 64) (2 * t.fc.width) false
          ((List.range 16).map fun i => t.cAddr + (16 * (r.blocks / t.n) + i) * t.ldc + (r.blocks % t.n) * (2 * t.fc.width)) = .got go rows ∧
        acc.elems = (rows.flatMap (elemsOf t.fc)).map fun v => BitVec.ofNat 64 (if t.fc = f.ty then v else (f.ff.round .rne 0 ((ffOf t.fc).decode v)).1))))

/-- What the end of a block leaves (R244, R245): C written where WRITE is set and its pages are there, each element rounded to nearest even, and the next block to begin. -/
def BlockEnds (s : State) (row : Nat) (k : TileTask) (acc : AccSlot) (t : State) : Prop :=
  let r := s.row row
  let q := k.tile
  let next := { r with blocks := r.blocks + 1, ksteps := [], work := none, parts := [] }
  (q.write = false → t = s.setRow row next) ∧
  (q.write = true → ∀ ls u, s.storeBlock ⟨k.cmd.lease, 0⟩ (row / 64) ((List.range 16).map fun i =>
      (q.cAddr + (16 * (r.blocks / q.n) + i) * q.ldc + (r.blocks % q.n) * (2 * q.fc.width), (List.range 16).flatMap fun j =>
        let v := (acc.elems.getD (16 * i + j) 0).toNat
        leBytes (q.fc.width / 8) (if acc.fmt = .i32 then v else ((ffOf q.fc).round .rne 0 (acc.fmt.ff.decode v)).1))) = (.ok ls, u) →
    t = u.setRow row next)

/-- Slate and its row halves. A free row half of a lease that is not suspended takes the task at the bottom of its own list, which is refilled, or steals the one at the top of the fullest other list; a running
task of a suspended lease stops where it is and is pending; a task within its budget whose blocks are all done ends DONE with its token filled; one over its budget is recorded once and runs on demoted, or ends KILLED
with cause 0x03; a row half begins a block from +0 or
from C, adds the sub-blocks of one K-step after the other to its accumulator, and with the last one writes the block to C where its task does (R242 to R245, R280, R282, R312, R349, R350, R371). Where the spec leaves it open this is the model's choice: log entries 18, 33, 34, 102, 121. -/
def Obligations.SlateIssuesPreemptsAndEndsTileTasks : Prop :=
  ∀ (s : State) (lease row : Nat),
    (s.net.hand = some (.slateIssueTask lease row) → s.issueDue lease row = true →
      (∀ tid k, (s.readyList lease row).getLast? = some tid → s.task? lease tid = some k → Completes .slateIssueTask s fun t =>
        t.mem = s.mem ∧ (t.row row).task = some tid ∧ (t.row row).blocks = k.blocks ∧ (t.row row).ksteps = k.done ∧ (t.row row).work = k.acc ∧
        (t.row row).parts = k.parts ∧
        ((t.task? lease tid).any fun j => j.place == .running row && j.since == s.clock.cycles) = true) ∧
      (∀ other tid ts k, s.readyList lease row = [] → s.fullest lease = some other → s.readyList lease other = tid :: ts → s.task? lease tid = some k →
        Completes .slateIssueTask s fun t => t.mem = s.mem ∧ (t.row row).task = some tid ∧ t.readyList lease other = ts ∧
          ((t.task? lease tid).any fun j => j.place == .running row) = true)) ∧
    (∀ k, s.net.hand = some (.slatePreempt lease) → s.preemptible lease = some (k, row) → Completes .slatePreempt s fun t => t.mem = s.mem ∧
      (t.row row).task = none ∧ ((t.task? lease k.tile.tid).all fun j =>
        j.place == .pending && j.blocks == (s.row row).blocks && j.done == (s.row row).ksteps && j.acc == (s.row row).work &&
        j.parts == (s.row row).parts) = true) ∧
    (∀ k, s.rowTask row = some k → let owner := (s.row row).lease; let within := k.spent = true ∨ k.charged ≤ k.tile.budget
      (s.net.hand = some (.tileTaskEnd row) → within → k.tile.m * k.tile.n ≤ (s.row row).blocks → (∀ j ∈ (s.lease owner).tasks, j.place ≠ .waiting) →
        Completes .tileTaskEnd s fun t => t.mem = s.mem ∧ t.tidState owner k.tile.tid = some 0 ∧ t.task? owner k.tile.tid = none ∧
          ∃ u : State, u.ctxs = s.ctxs ∧ t.ctxs = (if k.early then u else
            u.fillToken k.cmd.src k.cmd.handle (cmdToken k.cmd.word) (BitVec.ofNat 64 (k.tile.tid % 65536 * 65536 + if k.demoted then 16 else 0))).ctxs) ∧
      (s.net.hand = some (.tileTaskOverrun row) → s.taskOverrunDue row = true →
        let u := (s.postRecord owner (s.record 0x03 0x03 0 0 k.cmd.handle 0xFFFF none 0 k.tile.budget k.charged k.tile.tid)).count owner 0x039 0 1
        ((s.lease owner).vfCtl.getLsbD 0 = true → Completes .tileTaskOverrun s fun t =>
          t = u.modTask owner k.tile.tid fun j => { j with spent := true, demoted := true }) ∧
        ((s.lease owner).vfCtl.getLsbD 0 = false → Completes .tileTaskOverrun s fun t => t = u.endTask owner { k with spent := true } 2 0x03)) ∧
      (s.net.hand = some (.rowHalfKstep row) → (s.row row).bound = none → within → (s.row row).blocks < k.tile.m * k.tile.n →
        let r := s.row row
        (∀ acc, r.work = some acc → r.ksteps.length = k.tile.k → Completes .rowHalfKstep s fun t => BlockEnds s row k acc t) ∧
        (∀ acc go u as v bs, BlockGoesOn s row k acc go → let ks := nextK go.tick k.repro k.tile.k r.ksteps
          let addrs := fun base ld block (ty : Ty) => (List.range 16).map fun i => base + (16 * block + i) * ld + ks * (2 * ty.width)
          (go.setRow row { r with work := some acc }).loadRows ⟨k.cmd.lease, 0⟩ (row / 64) (2 * k.tile.fa.width) (k.tile.fa == .fp4b)
            (addrs k.tile.aAddr k.tile.lda (r.blocks / k.tile.n) k.tile.fa) = .got u as →
          u.loadRows ⟨k.cmd.lease, 0⟩ (row / 64) (2 * k.tile.fb.width) (k.tile.fb == .fp4b)
            (addrs k.tile.bAddr k.tile.ldb (r.blocks % k.tile.n) k.tile.fb) = .got v bs →
          Completes .rowHalfKstep s fun t => ∃ next kept, KstepLeaves k.tile k.repro (r.ksteps.length + 1 == k.tile.k) as bs acc next r.parts kept ∧
            let w := ((v.setRow row { r with work := some next, ksteps := r.ksteps ++ [ks], parts := kept }).bump).count k.cmd.lease 0x011 0 1
            w.mem = s.mem ∧ (r.ksteps.length + 1 ≠ k.tile.k → t = w) ∧ (r.ksteps.length + 1 = k.tile.k → BlockEnds w row k next t)))) ∧
    KstepSums ∧
    (∀ tick repro n done, (∃ i, i < n ∧ i ∉ done) → let ks := nextK tick repro n done
      ks < n ∧ ks ∉ done ∧ (repro = true → ∀ i < ks, i ∈ done)) ∧
    (∀ slot idx c acc, s.net.hand = some (.rowHalfKstep row) → s.kstepDue row = true → (s.row row).bound = some (slot, idx) → (s.row row).mma = some c →
      (s.row row).work = some acc → (s.row row).ksteps.length = (parseTile c.list).k → (parseTile c.list).write = false →
      Completes .rowHalfKstep s fun t => t.mem = s.mem ∧ (t.row row).work = none ∧ (t.row row).blocks = 1 ∧
        (acc.fmt ≠ .f64 → ((s.row row).acc 0).all (fun b => b.fmt != .f64) = true → (s.row row).slots.length = 2 →
          (t.row row).acc ((cmdC c.word).toNat % 2) = some acc))

/-- The memory window and the doorbells. A read of a live lease's mapped bytes answers them, and one of a lease that is not live answers all ones; a write leaves its bytes at their homes, line by line; an atomic answers the old
word; a doorbell moves a queue's tail unless it runs more than the queue's size ahead, which is an error of code 0x02; LQ_HEAD and LQ_CTL are taken as the queue's state allows; the
record at HEAD of a queue whose turn it is is read and taken, and one already in hand of a lease that has been suspended is refused with LEASE_SUSPENDED (R10, R363, R368, R369, R372, R379). Where the spec leaves it open this is the model's choice: log entries 59, 60, 61, 108, 127. -/
def Obligations.HostAccessesAndLaunchQueuesTakeEffect : Prop :=
  ∀ (s : State) (lease : Nat),
    (∀ va n id ps, s.net.hand = some (.hostCxlRead lease va n id) →
      ((s.lease lease).state = .live → s.span none lease va n false = .ok ps → Completes .hostCxlRead s fun t => t.mem = s.mem ∧ t.ctxs = s.ctxs ∧
        t.host.answers = s.host.answers ++ [(id, ps.flatMap fun p => s.load p.2.1 p.2.2)]) ∧
      ((s.lease lease).state ≠ .live → Completes .hostCxlRead s fun t =>
        t = { s with host := { s.host with answers := s.host.answers ++ [(id, List.replicate n 0xFF#8)] } })) ∧
    (∀ va data ps, s.net.hand = some (.hostCxlWrite lease va data) →
      ((s.lease lease).state = .live → s.span none lease va data.length true = .ok ps → Completes .hostCxlWrite s fun t =>
        t.mem = (ps.foldl (fun u p => State.store u p.2.1 ((data.drop p.1).take p.2.2)) s).mem ∧ t.cells = s.cells ∧ t.ctxs = s.ctxs) ∧
      ((s.lease lease).state ≠ .live → Completes .hostCxlWrite s fun t => t = s)) ∧
    (∀ va fn b cmp id l, s.net.hand = some (.hostAtomic lease va fn b cmp id) → fn = .add ∨ fn = .swap ∨ fn = .cas → va % 8 = 0 →
      (s.lease lease).state = .live → s.engineLoc none lease va true = .found l →
      (∀ q, .watch q ∈ s.homes.waiters → ∃ c h i n k, q.reply = .ctxReply c h i n k) →
      let w := BitVec.ofNat 64 (leNat (s.load l 8))
      Completes .hostAtomic s fun t => t.host.answers = s.host.answers ++ [(id, leBytes 8 w.toNat)] ∧ t.cells = s.cells ∧
        t.mem = if fn = .cas ∧ w ≠ cmp then s.mem else (s.store l (leBytes 8 (amoNew fn w b cmp).toNat)).mem) ∧
    (∀ n, 0 < lease → lease < 256 → n < 4 →
      let q := (s.lease lease).queue n
      (∀ v, s.net.hand = some (.lqTailDoorbell lease n v) → let door := v.setWidth 32
        Completes .lqTailDoorbell s fun t => ∃ p, (t.lease lease).queue n = p ∧ p.door = door ∧ p.head = q.head ∧
          (q.state ≠ 2 → (door - q.head).toNat ≤ 2 ^ q.sizel → p.tail = door ∧ p.state = q.state) ∧
          (q.state ≠ 2 → 2 ^ q.sizel < (door - q.head).toNat → p.tail = q.tail ∧ p.state = 2 ∧ p.code = 2 ∧ p.eseq = door) ∧
          (q.state = 2 → p = { q with door := door })) ∧
      (∀ v, s.net.hand = some (.lqHeadWrite lease n v) → Completes .lqHeadWrite s fun t => (t.lease lease).queue n =
        if q.state = 0 then { q with head := v.setWidth 32, tail := v.setWidth 32 } else q) ∧
      (∀ v, s.net.hand = some (.lqCtlWrite lease n v) → let size := (v.extractLsb' 0 5).toNat
        Completes .lqCtlWrite s fun t => (t.lease lease).queue n =
          if q.state = 0 then
            (if 1 ≤ size ∧ size ≤ 16 then
              { q with pol := v.getLsbD 7, en := v.getLsbD 6, sizel := size, state := if v.getLsbD 6 then 1 else 0 } else q)
          else { q with pol := v.getLsbD 7, en := v.getLsbD 6, state := if v.getLsbD 6 = false ∧ q.reading = false then 0 else q.state })) ∧
    (∀ n, s.net.hand = some (.launchRecordRead lease n []) → s.recordDue lease n = true → ((s.lease lease).queue n).en = true →
      Completes .launchRecordRead s fun t => t = s.readRecord lease n) ∧
    (∀ n b bs, s.net.hand = some (.launchRecordRead lease n (b :: bs)) → (s.lease lease).state ≠ .none →
      Completes .launchRecordRead s fun t => t = s.takeRecord lease n ((b :: bs).take 128) ((b :: bs).drop 128) ∧
        (s.dev.ember = false → (s.lease lease).suspended = true → t = (s.dropLoad lease (.launchRecordRead lease n (b :: bs))).refuseRecord lease n ((b :: bs).take 128) 0x10 none 0x09))

/-- The fault queue, page service, invalidation and counters of a lease, whatever its state. A head doorbell within the used entries moves HEAD, another sets HDERR; FQ_CTL takes EN, and SIZEL while EN is 0; FQ_RESUME of a posted page-service record removes it and lets its accesses go on;
FQ_INVCNT starts an invalidation. It ends once no access of the lease is on its way and none that was translated through its range waits at its home, with the range dropped from every die's and every context's
translation cache, and from what walks there have found; CNT takes a value while its counter is disabled, CNTSEL a valid selection (R385, R386, R389, R419). Where the spec leaves it open this is the model's choice: log entries 26, 59, 62. -/
def Obligations.FaultQueuesInvalidationsAndCountersTakeEffect : Prop :=
  ∀ (s : State) (lease : Nat), 0 < lease → lease < 256 →
    let q := (s.lease lease).fq
    (∀ v, s.net.hand = some (.fqHeadDoorbell lease v) → let head := v.toNat % 2 ^ 32
      let f := if (head + 2 ^ 32 - q.head) % 2 ^ 32 ≤ (q.tail + 2 ^ 32 - q.head) % 2 ^ 32 then { q with head := head } else { q with hderr := true }
      Completes .fqHeadDoorbell s fun t => t = (s.setLease lease { s.lease lease with fq := f }).serveQueue lease) ∧
    (∀ v, s.net.hand = some (.fqCtlWrite lease v) → let size := (v.extractLsb' 0 5).toNat
      let f := if q.en then { q with en := v.getLsbD 7 }
        else if 4 ≤ size ∧ size ≤ 12 then { q with en := v.getLsbD 7, sizel := size, lost := if v.getLsbD 7 then 0 else q.lost } else q
      Completes .fqCtlWrite s fun t => t = (s.setLease lease { s.lease lease with fq := f }).serveQueue lease) ∧
    (∀ v w, s.net.hand = some (.fqResumeWrite lease v) →
      (s.lease lease).svcs.find? (fun k => k.posted && k.seq == v.toNat % 2 ^ 32) = some w → (s.lease lease).stWrites = [] → q.held = [] →
      (∀ k ∈ (s.lease lease).svcs, k.entry ≠ w.entry → k.posted = true) → Completes .fqResumeWrite s fun t => t.mem = s.mem ∧ t.ctxs = s.ctxs ∧
        (t.lease lease).svcs = (s.lease lease).svcs.filter (fun k => k.entry != w.entry) ∧
        ∃ last, t.sent = w.waiters.filter (fun e => !e.offered) ++ s.sent ++ last ∧ (last = [] ∨ last = [.recordWrite lease])) ∧
    (∀ v, s.net.hand = some (.fqInvcntWrite lease v) → Completes .fqInvcntWrite s fun t => t.mem = s.mem ∧ t.ctxs = s.ctxs ∧
      (t.lease lease).fq = if q.inval.isSome then q else { q with inval := some ((q.invVa.extractLsb' 16 41).toNat * 65536, v.toNat % 2 ^ 32) }) ∧
    (∀ va count, s.net.hand = some (.invalidationDone lease) → q.inval = some (va, count) → s.invalDue lease = true → Completes .invalidationDone s fun t =>
      t.mem = s.mem ∧ (t.lease lease).fq.inval = none ∧
      (∀ die es, Tab.get? s.homes.tlbs die = some es → Tab.get? t.homes.tlbs die = some (es.filter fun e => !(e.lease == lease &&
        (count == 0 || (decide (va < e.va + e.bytes) && decide (e.va < va + count * 65536)))))) ∧
      (∀ c x, s.ctx? c = some x → ∃ z, t.ctx? c = some z ∧ z = { x with tcache := z.tcache, walk := ⟨x.walk.busy, z.walk.failed⟩ } ∧
        (∀ p ∈ x.walk.failed, (p ∈ z.walk.failed ↔ ¬ (x.lease = lease ∧
          (count = 0 ∨ (va < p.1 * 65536 + 65536 ∧ p.1 * 65536 < va + count * 65536))))) ∧
        ∀ e ∈ x.tcache, (e ∈ z.tcache ↔ ¬ (e.lease = lease ∧ (count = 0 ∨ (va < e.va + e.bytes ∧ e.va < va + count * 65536)))))) ∧
    (∀ va count, q.inval = some (va, count) → s.invalDue lease = true →
      (∀ r, .homeReadWrite r ∈ s.sent → r.lease ≠ lease) ∧ (∀ r, .homeAtomic r ∈ s.sent → r.lease ≠ lease) ∧
      (∀ r, .homeDequeOp r ∈ s.sent → r.lease ≠ lease) ∧
      ∀ w ∈ s.homes.waiters, w.lease = lease → ∀ e, ((∃ die es, (die, es) ∈ s.homes.tlbs ∧ e ∈ es) ∨ ∃ c x, (c, x) ∈ s.ctxs ∧ e ∈ x.tcache) →
        e.lease = lease → (count = 0 ∨ (va < e.va + e.bytes ∧ e.va < va + count * 65536)) → (e.loc e.va).sameSpace w.loc = true →
        ¬ (e.leaf.addr ≤ w.loc.addr ∧ w.loc.addr < e.leaf.addr + e.bytes)) ∧
    (∀ n v, n < 8 → let k := (s.lease lease).counters.toList.getD n Counter.reset
      (s.net.hand = some (.cntWrite lease n v) → Completes .cntWrite s fun t => t.mem = s.mem ∧
        (t.lease lease).counters.toList.getD n Counter.reset = if k.cfg.getLsbD 21 then k else { k with value := v.setWidth 48 }) ∧
      (s.net.hand = some (.cntselWrite lease n v) → Completes .cntselWrite s fun t => t.mem = s.mem ∧
        (badCounterConfig v = true ∨ v.getLsbD 15 = true → t.lease lease = s.lease lease) ∧
        (badCounterConfig v = false → v.getLsbD 15 = false → (t.lease lease).counters.toList.getD n Counter.reset =
          { value := if v.getLsbD 23 then 0 else k.value, cfg := v &&& 0xFFFFFFFFFF7FFFFF#64, rect := none })))

/-- A mailbox request under way: GO is set and OP is `op` (R367, R403). -/
def Asked (m : Vector (BitVec 64) 8) (op : Nat) : Prop := m[0].getLsbD 0 = true ∧ (m[0].extractLsb' 56 8).toNat = op

/-- Word 0 of a mailbox whose request is done (R367, R403). -/
def answeredWord (op result : Nat) : BitVec 64 := BitVec.ofNat 64 (op * 2 ^ 56 + result % 256 * 2 ^ 48)

/-- Mailbox requests. A region-table entry or a format window that the hub accepts is written and RESULT is 0x00, and a refused one leaves the table as it was with RESULT 0x01; a halted context goes on; an attestation
report and a signed reading are written with both signatures to the buffer and use up one leaf, a certificate uses none; the physical function's reading goes to host memory; a staged set of images that all verify fills the bank not marked active
(R255, R269, R297, R367, R403, R407 to R409, R418). Where the spec leaves it open this is the model's choice: log entries 39, 40, 64, 66, 67. -/
def Obligations.MailboxRequestsAreServed : Prop :=
  (∀ (s : State) (lease : Nat), (s.lease lease).state = .live →
    let m := (s.lease lease).mailbox
    let answered := fun (t : State) (op result : Nat) => (t.lease lease).mailbox = m.set 0 (answeredWord op result)
    (Asked m 0x01 → s.net.hand = some (.writeRegionEntry lease) → let slot := m[1].toNat % 1024; let e := mboxRegion m
      (s.regionRefused lease slot e = true → Completes .writeRegionEntry s fun t => answered t 1 1 ∧ (t.lease lease).regions = (s.lease lease).regions) ∧
      (s.regionRefused lease slot e = false → Completes .writeRegionEntry s fun t => answered t 1 0 ∧
        (t.lease lease).regions = Tab.put (s.lease lease).regions slot e)) ∧
    (Asked m 0x02 → s.net.hand = some (.writeFormatWindow lease) → let n := m[5].toNat % 32; let w : Window := ⟨m[1], m[2], m[3], m[4]⟩
      (s.windowRefused lease n w = true → Completes .writeFormatWindow s fun t => answered t 2 1 ∧ (t.lease lease).windows = (s.lease lease).windows) ∧
      (s.windowRefused lease n w = false → Completes .writeFormatWindow s fun t => answered t 2 0 ∧
        (t.lease lease).windows = if w.ctl.getLsbD 4 then Tab.put (s.lease lease).windows n w else Tab.drop (s.lease lease).windows n)) ∧
    (∀ c x, Asked m 0x03 → s.net.hand = some (.resumeContext lease) → s.resumeTarget lease m = some c → s.ctx? c = some x → x.cut = none →
      (x.halted = true → Completes .resumeContext s fun t => answered t 3 0 ∧ t.ctxs = Tab.put s.ctxs c { x with halted := false }) ∧
      (x.halted = false → Completes .resumeContext s fun t => answered t 3 1 ∧ t.ctxs = s.ctxs)) ∧
    (∀ l, m[1].toNat % 4096 = 0 → s.engineLoc none lease m[1].toNat true = .found l →
      (Asked m 0x04 → s.net.hand = some (.attestReport lease) → Completes .attestReport s fun t => answered t 4 0 ∧ t.dev = s.dev.nextLeaf ∧
        t.mem = (s.store l (s.dev.signed (s.reportDoc lease m))).mem) ∧
      (Asked m 0x05 → s.net.hand = some (.keyCertificate lease) → m[2].toNat ≤ s.dev.keyser → Completes .keyCertificate s fun t => answered t 5 0 ∧
        t.dev = s.dev ∧ t.mem = (s.store l (certificate m[2].toNat)).mem ∧
        (certificate m[2].toNat).length ≤ 4096) ∧
      (Asked m 0x06 → s.net.hand = some (.cinderReading lease) → Completes .cinderReading s fun t => answered t 6 0 ∧ t.dev = s.dev.nextLeaf ∧
        t.mem = (s.store l (s.dev.signed (s.readingDoc lease (nonceBytes m 2)))).mem))) ∧
  (∀ s : State, let d := s.dev.mailbox
    (Asked d 0x11 → s.net.hand = some .cinderReadingPf → let id := d[2].toNat % 256
      (id = 0 ∨ (s.meter id).epoch ≠ 0 → Completes .cinderReadingPf s fun t => t.dev.mailbox = d.set 0 (answeredWord 0x11 0) ∧
        t.mem = (s.store (.host d[1].toNat) (s.dev.signed (s.readingDoc id (nonceBytes d 3)))).mem) ∧
      (id ≠ 0 → (s.meter id).epoch = 0 → Completes .cinderReadingPf s fun t => t.dev.mailbox = d.set 0 (answeredWord 0x11 1) ∧ t.mem = s.mem)) ∧
    (Asked d 0x10 → s.net.hand = some .firmwareStage → let fs := parseFirmware 4 (s.load (.host d[1].toNat) d[2].toNat)
      (s.dev.stageGood fs = true → Completes .firmwareStage s fun t => t.dev.mailbox = d.set 0 (answeredWord 0x10 0) ∧
        t.dev.banks = Tab.put s.dev.banks (1 - s.dev.active) fs ∧ t.dev.active = (if d[3].getLsbD 0 then 1 - s.dev.active else s.dev.active)) ∧
      (s.dev.stageGood fs = false → Completes .firmwareStage s fun t => t.dev.mailbox = d.set 0 (answeredWord 0x10 1) ∧
        t.dev.banks = Tab.put s.dev.banks (1 - s.dev.active) [] ∧ t.dev.active = s.dev.active)))

/-- LEASE_CMD and the device's registers. CREATE of a lease that does not exist, while the device is ready, makes it live with its memory zero, and one without resources reports 0x03; a command of a lease in no state for it reports 0x01: CREATE of one that exists or
while the device is not ready, DESTROY of one that does not, every other command of one that is not live, REVOKE_ROW of a row half that it does not hold, and one whose handle names no rectangle of the lease; GRANT_ROW gives an unheld row half to the lease and REVOKE_ROW takes an idle one; PREEMPT requests a cut of an ARMED or RUNNING rectangle; RESTORE and DUMP refuse a rectangle in another state; FREE passes a rectangle without children to EMPTY; DESTROY first
ends what the lease runs and then, once nothing of it is outstanding, the lease; LEASE_SCHED, LEASE_PT and DEV_PWR take the values that R338, R376 and R411 allow, and the suspension
of a lease cuts its ARMED and RUNNING rectangles; the other registers of a lease block take a write, four of them while the lease does not exist, and a write of LEASE_CMD sends its command; of a virtual function's registers VF_CTL, FQ_BASE, FQ_STATUS and CNT_OVF are stated here; a status query answers 40 bytes (R10, R337, R366, R371, R376 to R379, R386, R402, R419). Where the spec leaves it open this is the model's choice: log entries 50, 56, 63, 65. -/
def Obligations.LeaseCommandsAndDeviceRegistersTakeEffect : Prop :=
  ∀ (s : State) (lease : Nat), 0 < lease → lease < 256 →
    let l := s.lease lease
    let go := fun (op : Nat) => l.cmdGo = true ∧ l.cmdOp.toNat = op
    let done := fun (t : State) (result : Nat) => (t.lease lease).cmdGo = false ∧ (t.lease lease).cmdResult.toNat = result
    (go 0x01 → s.net.hand = some (.leaseCreate lease) → l.state = .none → s.dev.ready = true → s.dev.ember = false →
      (s.createLacks lease = false → Completes .leaseCreate s fun t => done t 0 ∧ (t.lease lease).state = .live ∧
        (t.lease lease).fq = FaultQueue.reset ∧ (t.meter lease).epoch = ((s.meter lease).epoch + 1) % 2 ^ 32 ∧
        (∀ a, t.mem.read (Loc.dev lease a).key = 0 ∧ t.mem.read (Loc.carve lease a).key = 0) ∧
        ∀ o a, o % 256 ≠ lease → t.mem.read (Loc.dev o a).key = s.mem.read (Loc.dev o a).key) ∧
      (s.createLacks lease = true → Completes .leaseCreate s fun t => done t 3 ∧ (t.lease lease).state = .none ∧ t.mem = s.mem)) ∧
    (go 0x01 → s.net.hand = some (.leaseCreate lease) → l.state ≠ .none ∨ s.dev.ready = false ∨ s.dev.ember = true → Completes .leaseCreate s fun t =>
      t = s.cmdDone lease 1 ∧ done t 1) ∧
    (l.state = .none → go 0x02 → s.net.hand = some (.leaseDestroy lease) → Completes .leaseDestroy s fun t => t = s.cmdDone lease 1) ∧
    (l.state ≠ .live →
      (go 0x03 → s.net.hand = some (.grantRow lease) → Completes .grantRow s fun t => t = s.cmdDone lease 1) ∧
      (go 0x04 → s.net.hand = some (.revokeRow lease) → Completes .revokeRow s fun t => t = s.cmdDone lease 1) ∧
      (go 0x05 → s.net.hand = some (.preempt lease) → Completes .preempt s fun t => t = s.cmdDone lease 1) ∧
      (go 0x06 → s.net.hand = some (.restore lease) → Completes .restore s fun t => t = s.cmdDone lease 1) ∧
      (go 0x07 → s.net.hand = some (.leaseFree lease) → Completes .leaseFree s fun t => t = s.cmdDone lease 1) ∧
      (go 0x08 → s.net.hand = some (.dump lease) → Completes .dump s fun t => t = s.cmdDone lease 1)) ∧
    (l.state = .live →
      (go 0x02 → s.net.hand = some (.leaseDestroy lease) → s.rectsOf lease = [] → l.tasks = [] → Completes .leaseDestroy s fun t =>
        (t.lease lease).state = .ending ∧ .leaseDestroy lease ∈ t.sent ∧ t.mem = s.mem) ∧
      (go 0x03 → s.net.hand = some (.grantRow lease) → let n := l.arg.toNat % 256
        ((s.row n).lease = 0 → Completes .grantRow s fun t => done t 0 ∧ t.row n = { s.row n with lease := lease } ∧ t.mem = s.mem) ∧
        ((s.row n).lease ≠ 0 → (s.row n).lease ≠ lease → Completes .grantRow s fun t => done t 3 ∧ t.rows = s.rows)) ∧
      (go 0x04 → s.net.hand = some (.revokeRow lease) → let n := l.arg.toNat % 256
        ((s.row n).lease = lease → (s.row n).bound = none → s.isReserved .mat n = false → Completes .revokeRow s fun t => done t 0 ∧ (t.row n).lease = 0 ∧ (t.row n).task = none) ∧
        ((s.row n).lease ≠ lease → Completes .revokeRow s fun t => t = s.cmdDone lease 1) ∧
        ((s.row n).lease = lease → (s.row n).bound ≠ none ∨ s.isReserved .mat n = true → Completes .revokeRow s fun t => done t 4 ∧ t.rows = s.rows)) ∧
      (s.argRect lease = none →
        (go 0x05 → s.net.hand = some (.preempt lease) → Completes .preempt s fun t => t = s.cmdDone lease 1) ∧
        (go 0x06 → s.net.hand = some (.restore lease) → Completes .restore s fun t => t = s.cmdDone lease 1) ∧
        (go 0x07 → s.net.hand = some (.leaseFree lease) → Completes .leaseFree s fun t => t = s.cmdDone lease 1) ∧
        (go 0x08 → s.net.hand = some (.dump lease) → Completes .dump s fun t => t = s.cmdDone lease 1)) ∧
      (∀ n r, s.argRect lease = some (n, r) →
        (go 0x05 → s.net.hand = some (.preempt lease) →
          (r.state = .armed ∨ r.state = .running → Completes .preempt s fun t => done t 0 ∧ t.sent = s.sent ++ [.cutRequest n .preempt]) ∧
          (r.state ≠ .armed → r.state ≠ .running → Completes .preempt s fun t => done t 1 ∧ t.sent = s.sent)) ∧
        (go 0x06 → s.net.hand = some (.restore lease) →
          (∀ t', r.state = .saved → s.restoreRect n = some t' → Completes .restore s fun t => done t 0 ∧ t = t'.cmdDone lease 0) ∧
          (r.state ≠ .saved → Completes .restore s fun t => done t 1 ∧ t.rects = s.rects)) ∧
        (go 0x07 → s.net.hand = some (.leaseFree lease) → r.parent = none → r.children = [] → r.outcome.isSome = true → n < 1024 →
          Completes .leaseFree s fun t => done t 0 ∧ t.rect? n = none ∧ (t.slot n).gen = ((s.slot n).gen + 1) % 256 ∧ t.mem = s.mem) ∧
        (go 0x08 → s.net.hand = some (.dump lease) → r.state ≠ .frozen → Completes .dump s fun t => done t 1 ∧ t.mem = s.mem) ∧
        (go 0x08 → s.net.hand = some (.dump lease) → r.state = .frozen →
          let bs := reelBytes s.tick (s.handleOf n) (r.stoppedAt / 4) 2 r.stopCounts r
          (∀ a, s.reelPlace lease n bs.length = some a → Completes .dump s fun t => done t 0 ∧
            t.mem = (s.store (.dev lease a) bs).mem ∧ (t.lease lease).arg = BitVec.ofNat 64 a ∧
            (s.lease lease).bytes ≤ a ∧ a + bs.length ≤ (s.lease lease).bytes + (s.lease lease).resvBytes) ∧
          (s.reelPlace lease n bs.length = none → Completes .dump s fun t => done t 3 ∧ t.mem = s.mem)))) ∧
    (go 0x02 → s.net.hand = some (.leaseDestroy lease) → l.state = .ending → s.endDue lease = true → Completes .leaseDestroy s fun t => done t 0 ∧
      (t.lease lease).state = .none ∧ ∀ a, t.mem.read (Loc.dev lease a).key = 0 ∧ t.mem.read (Loc.carve lease a).key = 0) ∧
    (∀ v, s.net.hand = some (.leaseSchedWrite lease v) →
      (s.schedRefused lease v = true → Completes .leaseSchedWrite s fun t => t = s) ∧
      (s.schedRefused lease v = false → Completes .leaseSchedWrite s fun t => t.mem = s.mem ∧ (t.lease lease).sched = v &&& 0x800007FF07FF07FF#64 ∧
        (v.getLsbD 63 = false ∨ l.sched.getLsbD 63 = true → t.sent = s.sent) ∧
        (v.getLsbD 63 = true → l.sched.getLsbD 63 = false → t.sent = s.sent ++
          ((s.rectsOf lease).filter fun p => p.2.state == .armed || p.2.state == .running).map fun p => .cutRequest p.1 .suspend))) ∧
    (∀ v, s.net.hand = some (.leasePtWrite lease v) → Completes .leasePtWrite s fun t => t.mem = s.mem ∧ (t.lease lease).pt = v &&& 0x000FFFFFFFFFF000#64 ∧
      (t.lease lease).fq.inval = if l.state = .live then some (0, 0) else l.fq.inval) ∧
    (∀ v, s.net.hand = some (.devPwrWrite v) → Completes .devPwrWrite s fun t =>
      t = if 1500 ≤ v.toNat % 4096 ∧ v.toNat % 4096 ≤ 3400 then { s with dev := { s.dev with cap := v.toNat % 4096 } } else s) ∧
    (∀ off v, s.net.hand = some (.registerWrite .pf (0x10000 + 64 * lease + off) v) →
      let sets := fun (m : Lease) => Completes .registerWrite s fun t => t = if l.state = .none then s.setLease lease m else s
      (off = 0x08 → sets { l with memReg := v &&& 0x000001FF01FFFF0F#64 }) ∧ (off = 0x10 → sets { l with hash := v &&& 0xFFFFFFFF#64 }) ∧
      (off = 0x20 → sets { l with carveReg := v &&& 0x3FF#64 }) ∧ (off = 0x28 → sets { l with host := v &&& 3#64 }) ∧
      (off = 0x30 → Completes .registerWrite s fun t => t = s.setLease lease { l with arg := v }) ∧
      (off = 0x38 → let m := { l with cmdOp := v.extractLsb' 56 8, cmdGo := v.getLsbD 0 }
        (l.cmdGo = true → Completes .registerWrite s fun t => t = s) ∧
        (l.cmdGo = false → v.getLsbD 0 = false → Completes .registerWrite s fun t => t = s.setLease lease m) ∧
        (∀ ev, l.cmdGo = false → v.getLsbD 0 = true → leaseCommand lease (v.extractLsb' 56 8).toNat = some ev → Completes .registerWrite s fun t =>
          t.lease lease = m ∧ t.sent = s.sent ++ [ev]))) ∧
    (∀ op, leaseCommand lease op = match op with
      | 1 => some (.leaseCreate lease) | 2 => some (.leaseDestroy lease) | 3 => some (.grantRow lease) | 4 => some (.revokeRow lease)
      | 5 => some (.preempt lease) | 6 => some (.restore lease) | 7 => some (.leaseFree lease) | 8 => some (.dump lease) | _ => none) ∧
    (∀ off v, s.net.hand = some (.registerWrite (.vf lease) off v) →
      (off = 0x10 → Completes .registerWrite s fun t => t = s.setLease lease { l with vfCtl := v.setWidth 2 }) ∧
      (off = 0x200 → Completes .registerWrite s fun t => t = s.setLease lease
        { l with fq := if l.fq.en then l.fq else { l.fq with base := v &&& 0x01FFFFFFFFFFFFC0#64 } }) ∧
      (off = 0x218 → Completes .registerWrite s fun t => t = s.setLease lease
        { l with fq := { l.fq with wrerr := l.fq.wrerr && !v.getLsbD 2, hderr := l.fq.hderr && !v.getLsbD 0 } }) ∧
      (off = 0x480 → Completes .registerWrite s fun t => t = s.setLease lease { l with cntOvf := l.cntOvf &&& ~~~(v.setWidth 8) })) ∧
    (s.net.hand = some .mctpStatusQuery → Completes .mctpStatusQuery s fun t => ∃ bs, bs.length = 40 ∧ bs.take 8 = leBytes 8 s.dev.status.toNat ∧
      (∀ g, s.dev.fail = some g → bs.drop 8 = leBytes 1 g.die ++ leBytes 1 g.block ++ leBytes 2 g.test ++ leBytes 4 g.unit ++ leBytes 8 g.dtime ++
        leBytes 8 g.detail.toNat ++ leBytes 8 0) ∧ (s.dev.fail = none → bs.drop 8 = leBytes 32 0) ∧
      t = { s with host := { s.host with answers := s.host.answers ++ [(0, bs)] } })

/-- Bring-up, samples, trips and soft errors. A cold power-up leaves device memory and the meters at zero, DTIME at zero and the device unready; a warm reset ends every lease and keeps DTIME and host memory; a stage that passes in its time is followed by the next, and
stage 6 leaves READY set; a failed or late stage leaves Ember with the first failure that it found, of the time at which it failed, and counts them all; a failure names a block and a die of R402, a stack's the die of R3; Cinder samples and
pacing comparisons come once a millisecond, a sample divides each rail's energy among the identifiers and adds to an identifier's meter its part and what it is owed from readings since its last sample; a trip leaves Ember with TRIP set; a soft error is counted, one that cannot be
corrected marks its line or freezes its rectangle (R3, R9, R400 to R404, R411 to R416, R423). Where the spec leaves it open this is the model's choice: log entries 68, 69, 70, 71, 114. -/
def Obligations.ResetsBringUpPowerAndErrorsTakeEffect : Prop :=
  ∀ (s : State),
    (s.net.hand = some .coldPowerUp → Completes .coldPowerUp s fun t => t.dtime = 0 ∧ t.meters = [] ∧ t.dev.ready = false ∧ t.dev.ember = false ∧ t.leases = [] ∧
      t.ctxs = [] ∧ t.rects = State.reset.rects ∧ (∀ l a, t.mem.read (Loc.dev l a).key = 0 ∧ t.mem.read (Loc.carve l a).key = 0) ∧
      ∀ a, t.mem.read (Loc.host a).key = s.mem.read (Loc.host a).key) ∧
    (s.net.hand = some .warmReset → Completes .warmReset s fun t => t.dtime = s.dtime ∧ t.mem = s.mem ∧ t.leases = [] ∧ t.ctxs = [] ∧ t.rects = State.reset.rects ∧
      t.dev.ready = false ∧ t.dev.banks = s.dev.banks ∧ t.dev.fused = s.dev.fused ∧ t.dev.leaf = s.dev.leaf ∧ (t.meter 0).warm = true) ∧
    (∀ fails, s.net.hand = some (.bringupStageComplete fails) → s.dev.ready = false → s.dev.ember = false →
      s.clock.cycles ≤ s.clock.stageStart + stageBound s.dev.stage * 4000000 →
      (s.bootFails = [] → fails = [] →
        (s.dev.stage < 6 → Completes .bringupStageComplete s fun t => t.dev.stage = s.dev.stage + 1 ∧ t.dev.ready = false ∧ t.dev.ember = false ∧
          t.clock.stageStart = s.clock.cycles ∧ (s.dev.stage ≠ 4 → t.mem = s.mem) ∧
          (s.dev.stage = 4 → ∀ l a, t.mem.read (Loc.dev l a).key = 0 ∧ t.mem.read (Loc.carve l a).key = 0)) ∧
        (s.dev.stage = 6 → Completes .bringupStageComplete s fun t => t.dev.stage = 6 ∧ t.dev.ready = true ∧ t.mem = s.mem)) ∧
      (∀ f fs, s.bootFails ++ fails = f :: fs → Completes .bringupStageComplete s fun t => t = { s with dev := { s.dev with
        ember := true, fail := some f, nfail := min 255 (fs.length + 1) } })) ∧
    (s.net.hand = some .bringupStageTimeout → s.dev.ready = false → s.dev.ember = false → s.clock.stageStart + stageBound s.dev.stage * 4000000 < s.clock.cycles →
      Completes .bringupStageTimeout s fun t => t.mem = s.mem ∧ t.dev.ember = true ∧ t.dev.nfail = min 255 (s.stageFinds.length + 1) ∧
        (∀ g gs, s.stageFinds = g :: gs → t.dev.fail = some g) ∧
        (s.stageFinds = [] → ∃ f, t.dev.fail = some f ∧ f.test = 0xFFFF ∧ f.block = stageBlock s.dev.stage ∧ f.dtime = s.dtime)) ∧
    (∀ f ∈ s.stageFinds, 1 ≤ f.block ∧ f.block ≤ 14 ∧ f.die ≤ 9 ∧ f.dtime ≤ s.dtime ∧ (f.block = 4 → f.die = f.unit / 256 / 4)) ∧
    (s.net.hand = some .cinderSample → s.clock.lastSample + 4000000 ≤ s.clock.cycles → Completes .cinderSample s fun t => t.mem = s.mem ∧ t.leases = s.leases ∧
      t.clock.lastSample = s.clock.lastSample + 4000000 ∧ (t.meter 0).sdtime = s.dtime ∧
      (∀ l, l ∉ s.metered → t.meter l = s.meter l) ∧
      (s.metered.Nodup → ∀ l ∈ s.metered, let m := s.meter l
        (s.clock.measured ≠ s.clock.cycles → let e := m.rest + (m.owed + s.energyOf l)
          t.meter l = { m with mj := (m.mj + e / 1000) % 2 ^ 64, rest := e % 1000, sdtime := s.dtime, owed := 0, area := 0, busy := [] }) ∧
        (s.clock.measured = s.clock.cycles → let e := m.rest + m.owed
          t.meter l = { m with mj := (m.mj + e / 1000) % 2 ^ 64, rest := e % 1000, sdtime := s.dtime, owed := 0 }))) ∧
    (∀ l, l ∈ s.metered ↔ l = 0 ∨ ∃ x, (l, x) ∈ s.leases ∧ x.state ≠ .none) ∧
    (∀ l, s.energyOf l = ((List.range Config.rails).map fun rail => s.railShare rail l).sum) ∧
    (∀ rail, s.metered.Nodup → (s.metered.map fun id => s.railShare rail id).foldl (· + ·) 0 = Config.railEnergy s.tick rail) ∧
    (s.net.hand = some .powerPacingTick → s.dev.lastPace + 4000000 ≤ s.clock.cycles → Completes .powerPacingTick s fun t => t.mem = s.mem ∧
      t.dev = { s.dev with pace := t.dev.pace, lastPace := s.dev.lastPace + 4000000 } ∧ 
      (t.dev.pace = s.dev.pace ∨ t.dev.pace = s.dev.pace - 1 ∨ t.dev.pace = min 7 (s.dev.pace + 1))) ∧
    (∀ die unit, s.net.hand = some (.junctionTrip die unit) → Completes .junctionTrip s fun t => t.dev.ember = true ∧ t.dev.trip = true ∧
        ∃ f, t.dev.fail = some f ∧ f.die = die ∧ f.block = 0x0E ∧ f.unit = unit ∧ f.dtime = s.dtime) ∧
    (s.net.hand = some .coolantFlowLow → Completes .coolantFlowLow s fun t => t.dev.ember = true ∧ t.dev.trip = true ∧
        ∃ f, t.dev.fail = some f ∧ f.die = 9 ∧ f.block = 0x0E ∧ f.unit = 0 ∧ f.dtime = s.dtime) ∧
    (s.net.hand = some (.softErrorDetected .free true) → Completes .softErrorDetected s fun t => t.mem = s.mem ∧
      t.dev = { s.dev with ce := min (2 ^ 32 - 1) (s.dev.ce + 1) }) ∧
    (∀ c r, s.net.hand = some (.softErrorDetected (.pad c) true) → s.rect? c.slot = some r → 0 < r.lease → Completes .softErrorDetected s fun t => t.mem = s.mem ∧
      t.dev = { s.dev with ce := min (2 ^ 32 - 1) (s.dev.ce + 1) } ∧ (t.lease r.lease).errCe = min 65535 ((s.lease r.lease).errCe + 1) ∧ t.rects = s.rects) ∧
    (∀ lease addr, s.net.hand = some (.softErrorDetected (.line lease addr) false) → Completes .softErrorDetected s fun t =>
      t.dev = { s.dev with ue := min (2 ^ 32 - 1) (s.dev.ue + 1) } ∧
      ((Loc.dev lease addr).align 128) ∈ t.homes.bad ∧ t.damaged (.dev lease (addr / 128 * 128)) 128 = true) ∧
    (∀ c r, s.net.hand = some (.softErrorDetected (.pad c) false) → s.rect? c.slot = some r → 0 < r.lease → Completes .softErrorDetected s fun t =>
      t.dev = { s.dev with ue := min (2 ^ 32 - 1) (s.dev.ue + 1) } ∧
      (t.lease r.lease).errUe = min 65535 ((s.lease r.lease).errUe + 1) ∧
      ∃ f, .faultEvent c.slot f ∈ t.sent ∧ f.who = some ⟨c.slot, c.col, c.row, 0⟩) ∧
    (s.net.hand = some (.softErrorDetected .free false) → Completes .softErrorDetected s fun t =>
      t = { s with dev := { s.dev with ue := min (2 ^ 32 - 1) (s.dev.ue + 1) } })
end

