-- ==== Sys2Proof/Laws/State.lean ====
section
/-! SUPPORT. What each update of the state leaves in each field. -/

namespace Sys2Proof.Machine

/-! `State.setCtx` -/

@[simp] theorem State.setCtx_clock (s : State) (c : CtxId) (x : Ctx) : (s.setCtx c x).clock = s.clock := rfl
@[simp] theorem State.setCtx_net (s : State) (c : CtxId) (x : Ctx) : (s.setCtx c x).net = s.net := rfl
@[simp] theorem State.setCtx_cur (s : State) (c : CtxId) (x : Ctx) : (s.setCtx c x).cur = s.cur := rfl
@[simp] theorem State.setCtx_mem (s : State) (c : CtxId) (x : Ctx) : (s.setCtx c x).mem = s.mem := rfl
@[simp] theorem State.setCtx_homes (s : State) (c : CtxId) (x : Ctx) : (s.setCtx c x).homes = s.homes := rfl
@[simp] theorem State.setCtx_ctxs (s : State) (c : CtxId) (x : Ctx) : (s.setCtx c x).ctxs = Tab.put s.ctxs c x := rfl
@[simp] theorem State.setCtx_cells (s : State) (c : CtxId) (x : Ctx) : (s.setCtx c x).cells = s.cells := rfl
@[simp] theorem State.setCtx_edges (s : State) (c : CtxId) (x : Ctx) : (s.setCtx c x).edges = s.edges := rfl
@[simp] theorem State.setCtx_nodes (s : State) (c : CtxId) (x : Ctx) : (s.setCtx c x).nodes = s.nodes := rfl
@[simp] theorem State.setCtx_strms (s : State) (c : CtxId) (x : Ctx) : (s.setCtx c x).strms = s.strms := rfl
@[simp] theorem State.setCtx_rows (s : State) (c : CtxId) (x : Ctx) : (s.setCtx c x).rows = s.rows := rfl
@[simp] theorem State.setCtx_rects (s : State) (c : CtxId) (x : Ctx) : (s.setCtx c x).rects = s.rects := rfl
@[simp] theorem State.setCtx_leases (s : State) (c : CtxId) (x : Ctx) : (s.setCtx c x).leases = s.leases := rfl
@[simp] theorem State.setCtx_meters (s : State) (c : CtxId) (x : Ctx) : (s.setCtx c x).meters = s.meters := rfl
@[simp] theorem State.setCtx_dev (s : State) (c : CtxId) (x : Ctx) : (s.setCtx c x).dev = s.dev := rfl
@[simp] theorem State.setCtx_host (s : State) (c : CtxId) (x : Ctx) : (s.setCtx c x).host = s.host := rfl

/-! `State.setCell` -/

@[simp] theorem State.setCell_clock (s : State) (k : CellId) (x : Cell) : (s.setCell k x).clock = s.clock := rfl
@[simp] theorem State.setCell_net (s : State) (k : CellId) (x : Cell) : (s.setCell k x).net = s.net := rfl
@[simp] theorem State.setCell_cur (s : State) (k : CellId) (x : Cell) : (s.setCell k x).cur = s.cur := rfl
@[simp] theorem State.setCell_mem (s : State) (k : CellId) (x : Cell) : (s.setCell k x).mem = s.mem := rfl
@[simp] theorem State.setCell_homes (s : State) (k : CellId) (x : Cell) : (s.setCell k x).homes = s.homes := rfl
@[simp] theorem State.setCell_ctxs (s : State) (k : CellId) (x : Cell) : (s.setCell k x).ctxs = s.ctxs := rfl
@[simp] theorem State.setCell_cells (s : State) (k : CellId) (x : Cell) : (s.setCell k x).cells = Tab.put s.cells k x := rfl
@[simp] theorem State.setCell_edges (s : State) (k : CellId) (x : Cell) : (s.setCell k x).edges = s.edges := rfl
@[simp] theorem State.setCell_nodes (s : State) (k : CellId) (x : Cell) : (s.setCell k x).nodes = s.nodes := rfl
@[simp] theorem State.setCell_strms (s : State) (k : CellId) (x : Cell) : (s.setCell k x).strms = s.strms := rfl
@[simp] theorem State.setCell_rows (s : State) (k : CellId) (x : Cell) : (s.setCell k x).rows = s.rows := rfl
@[simp] theorem State.setCell_rects (s : State) (k : CellId) (x : Cell) : (s.setCell k x).rects = s.rects := rfl
@[simp] theorem State.setCell_leases (s : State) (k : CellId) (x : Cell) : (s.setCell k x).leases = s.leases := rfl
@[simp] theorem State.setCell_meters (s : State) (k : CellId) (x : Cell) : (s.setCell k x).meters = s.meters := rfl
@[simp] theorem State.setCell_dev (s : State) (k : CellId) (x : Cell) : (s.setCell k x).dev = s.dev := rfl
@[simp] theorem State.setCell_host (s : State) (k : CellId) (x : Cell) : (s.setCell k x).host = s.host := rfl

/-! `State.setEdge` -/

@[simp] theorem State.setEdge_clock (s : State) (n k : Nat) (e : Edge) : (s.setEdge n k e).clock = s.clock := rfl
@[simp] theorem State.setEdge_net (s : State) (n k : Nat) (e : Edge) : (s.setEdge n k e).net = s.net := rfl
@[simp] theorem State.setEdge_cur (s : State) (n k : Nat) (e : Edge) : (s.setEdge n k e).cur = s.cur := rfl
@[simp] theorem State.setEdge_mem (s : State) (n k : Nat) (e : Edge) : (s.setEdge n k e).mem = s.mem := rfl
@[simp] theorem State.setEdge_homes (s : State) (n k : Nat) (e : Edge) : (s.setEdge n k e).homes = s.homes := rfl
@[simp] theorem State.setEdge_ctxs (s : State) (n k : Nat) (e : Edge) : (s.setEdge n k e).ctxs = s.ctxs := rfl
@[simp] theorem State.setEdge_cells (s : State) (n k : Nat) (e : Edge) : (s.setEdge n k e).cells = s.cells := rfl
@[simp] theorem State.setEdge_edges (s : State) (n k : Nat) (e : Edge) : (s.setEdge n k e).edges = Tab.put s.edges (n, k) e := rfl
@[simp] theorem State.setEdge_nodes (s : State) (n k : Nat) (e : Edge) : (s.setEdge n k e).nodes = s.nodes := rfl
@[simp] theorem State.setEdge_strms (s : State) (n k : Nat) (e : Edge) : (s.setEdge n k e).strms = s.strms := rfl
@[simp] theorem State.setEdge_rows (s : State) (n k : Nat) (e : Edge) : (s.setEdge n k e).rows = s.rows := rfl
@[simp] theorem State.setEdge_rects (s : State) (n k : Nat) (e : Edge) : (s.setEdge n k e).rects = s.rects := rfl
@[simp] theorem State.setEdge_leases (s : State) (n k : Nat) (e : Edge) : (s.setEdge n k e).leases = s.leases := rfl
@[simp] theorem State.setEdge_meters (s : State) (n k : Nat) (e : Edge) : (s.setEdge n k e).meters = s.meters := rfl
@[simp] theorem State.setEdge_dev (s : State) (n k : Nat) (e : Edge) : (s.setEdge n k e).dev = s.dev := rfl
@[simp] theorem State.setEdge_host (s : State) (n k : Nat) (e : Edge) : (s.setEdge n k e).host = s.host := rfl

/-! `State.setRect` -/

@[simp] theorem State.setRect_clock (s : State) (n : Nat) (r : Rect) : (s.setRect n r).clock = s.clock := rfl
@[simp] theorem State.setRect_net (s : State) (n : Nat) (r : Rect) : (s.setRect n r).net = s.net := rfl
@[simp] theorem State.setRect_cur (s : State) (n : Nat) (r : Rect) : (s.setRect n r).cur = s.cur := rfl
@[simp] theorem State.setRect_mem (s : State) (n : Nat) (r : Rect) : (s.setRect n r).mem = s.mem := rfl
@[simp] theorem State.setRect_homes (s : State) (n : Nat) (r : Rect) : (s.setRect n r).homes = s.homes := rfl
@[simp] theorem State.setRect_ctxs (s : State) (n : Nat) (r : Rect) : (s.setRect n r).ctxs = s.ctxs := rfl
@[simp] theorem State.setRect_cells (s : State) (n : Nat) (r : Rect) : (s.setRect n r).cells = s.cells := rfl
@[simp] theorem State.setRect_edges (s : State) (n : Nat) (r : Rect) : (s.setRect n r).edges = s.edges := rfl
@[simp] theorem State.setRect_nodes (s : State) (n : Nat) (r : Rect) : (s.setRect n r).nodes = s.nodes := rfl
@[simp] theorem State.setRect_strms (s : State) (n : Nat) (r : Rect) : (s.setRect n r).strms = s.strms := rfl
@[simp] theorem State.setRect_rows (s : State) (n : Nat) (r : Rect) : (s.setRect n r).rows = s.rows := rfl
@[simp] theorem State.setRect_rects (s : State) (n : Nat) (r : Rect) : (s.setRect n r).rects = Tab.put s.rects n { s.slot n with rect := some r } := rfl
@[simp] theorem State.setRect_leases (s : State) (n : Nat) (r : Rect) : (s.setRect n r).leases = s.leases := rfl
@[simp] theorem State.setRect_meters (s : State) (n : Nat) (r : Rect) : (s.setRect n r).meters = s.meters := rfl
@[simp] theorem State.setRect_dev (s : State) (n : Nat) (r : Rect) : (s.setRect n r).dev = s.dev := rfl
@[simp] theorem State.setRect_host (s : State) (n : Nat) (r : Rect) : (s.setRect n r).host = s.host := rfl

/-! `State.setLease` -/

@[simp] theorem State.setLease_clock (s : State) (n : Nat) (l : Lease) : (s.setLease n l).clock = s.clock := rfl
@[simp] theorem State.setLease_net (s : State) (n : Nat) (l : Lease) : (s.setLease n l).net = s.net := rfl
@[simp] theorem State.setLease_cur (s : State) (n : Nat) (l : Lease) : (s.setLease n l).cur = s.cur := rfl
@[simp] theorem State.setLease_mem (s : State) (n : Nat) (l : Lease) : (s.setLease n l).mem = s.mem := rfl
@[simp] theorem State.setLease_homes (s : State) (n : Nat) (l : Lease) : (s.setLease n l).homes = s.homes := rfl
@[simp] theorem State.setLease_ctxs (s : State) (n : Nat) (l : Lease) : (s.setLease n l).ctxs = s.ctxs := rfl
@[simp] theorem State.setLease_cells (s : State) (n : Nat) (l : Lease) : (s.setLease n l).cells = s.cells := rfl
@[simp] theorem State.setLease_edges (s : State) (n : Nat) (l : Lease) : (s.setLease n l).edges = s.edges := rfl
@[simp] theorem State.setLease_nodes (s : State) (n : Nat) (l : Lease) : (s.setLease n l).nodes = s.nodes := rfl
@[simp] theorem State.setLease_strms (s : State) (n : Nat) (l : Lease) : (s.setLease n l).strms = s.strms := rfl
@[simp] theorem State.setLease_rows (s : State) (n : Nat) (l : Lease) : (s.setLease n l).rows = s.rows := rfl
@[simp] theorem State.setLease_rects (s : State) (n : Nat) (l : Lease) : (s.setLease n l).rects = s.rects := rfl
@[simp] theorem State.setLease_leases (s : State) (n : Nat) (l : Lease) : (s.setLease n l).leases = Tab.put s.leases n l := rfl
@[simp] theorem State.setLease_meters (s : State) (n : Nat) (l : Lease) : (s.setLease n l).meters = s.meters := rfl
@[simp] theorem State.setLease_dev (s : State) (n : Nat) (l : Lease) : (s.setLease n l).dev = s.dev := rfl
@[simp] theorem State.setLease_host (s : State) (n : Nat) (l : Lease) : (s.setLease n l).host = s.host := rfl

/-! `State.setMeter` -/

@[simp] theorem State.setMeter_clock (s : State) (n : Nat) (m : Meter) : (s.setMeter n m).clock = s.clock := rfl
@[simp] theorem State.setMeter_net (s : State) (n : Nat) (m : Meter) : (s.setMeter n m).net = s.net := rfl
@[simp] theorem State.setMeter_cur (s : State) (n : Nat) (m : Meter) : (s.setMeter n m).cur = s.cur := rfl
@[simp] theorem State.setMeter_mem (s : State) (n : Nat) (m : Meter) : (s.setMeter n m).mem = s.mem := rfl
@[simp] theorem State.setMeter_homes (s : State) (n : Nat) (m : Meter) : (s.setMeter n m).homes = s.homes := rfl
@[simp] theorem State.setMeter_ctxs (s : State) (n : Nat) (m : Meter) : (s.setMeter n m).ctxs = s.ctxs := rfl
@[simp] theorem State.setMeter_cells (s : State) (n : Nat) (m : Meter) : (s.setMeter n m).cells = s.cells := rfl
@[simp] theorem State.setMeter_edges (s : State) (n : Nat) (m : Meter) : (s.setMeter n m).edges = s.edges := rfl
@[simp] theorem State.setMeter_nodes (s : State) (n : Nat) (m : Meter) : (s.setMeter n m).nodes = s.nodes := rfl
@[simp] theorem State.setMeter_strms (s : State) (n : Nat) (m : Meter) : (s.setMeter n m).strms = s.strms := rfl
@[simp] theorem State.setMeter_rows (s : State) (n : Nat) (m : Meter) : (s.setMeter n m).rows = s.rows := rfl
@[simp] theorem State.setMeter_rects (s : State) (n : Nat) (m : Meter) : (s.setMeter n m).rects = s.rects := rfl
@[simp] theorem State.setMeter_leases (s : State) (n : Nat) (m : Meter) : (s.setMeter n m).leases = s.leases := rfl
@[simp] theorem State.setMeter_meters (s : State) (n : Nat) (m : Meter) : (s.setMeter n m).meters = Tab.put s.meters n m := rfl
@[simp] theorem State.setMeter_dev (s : State) (n : Nat) (m : Meter) : (s.setMeter n m).dev = s.dev := rfl
@[simp] theorem State.setMeter_host (s : State) (n : Nat) (m : Meter) : (s.setMeter n m).host = s.host := rfl

/-! `State.setRow` -/

@[simp] theorem State.setRow_clock (s : State) (n : Nat) (r : RowHalf) : (s.setRow n r).clock = s.clock := rfl
@[simp] theorem State.setRow_net (s : State) (n : Nat) (r : RowHalf) : (s.setRow n r).net = s.net := rfl
@[simp] theorem State.setRow_cur (s : State) (n : Nat) (r : RowHalf) : (s.setRow n r).cur = s.cur := rfl
@[simp] theorem State.setRow_mem (s : State) (n : Nat) (r : RowHalf) : (s.setRow n r).mem = s.mem := rfl
@[simp] theorem State.setRow_homes (s : State) (n : Nat) (r : RowHalf) : (s.setRow n r).homes = s.homes := rfl
@[simp] theorem State.setRow_ctxs (s : State) (n : Nat) (r : RowHalf) : (s.setRow n r).ctxs = s.ctxs := rfl
@[simp] theorem State.setRow_cells (s : State) (n : Nat) (r : RowHalf) : (s.setRow n r).cells = s.cells := rfl
@[simp] theorem State.setRow_edges (s : State) (n : Nat) (r : RowHalf) : (s.setRow n r).edges = s.edges := rfl
@[simp] theorem State.setRow_nodes (s : State) (n : Nat) (r : RowHalf) : (s.setRow n r).nodes = s.nodes := rfl
@[simp] theorem State.setRow_strms (s : State) (n : Nat) (r : RowHalf) : (s.setRow n r).strms = s.strms := rfl
@[simp] theorem State.setRow_rows (s : State) (n : Nat) (r : RowHalf) : (s.setRow n r).rows = Tab.put s.rows n r := rfl
@[simp] theorem State.setRow_rects (s : State) (n : Nat) (r : RowHalf) : (s.setRow n r).rects = s.rects := rfl
@[simp] theorem State.setRow_leases (s : State) (n : Nat) (r : RowHalf) : (s.setRow n r).leases = s.leases := rfl
@[simp] theorem State.setRow_meters (s : State) (n : Nat) (r : RowHalf) : (s.setRow n r).meters = s.meters := rfl
@[simp] theorem State.setRow_dev (s : State) (n : Nat) (r : RowHalf) : (s.setRow n r).dev = s.dev := rfl
@[simp] theorem State.setRow_host (s : State) (n : Nat) (r : RowHalf) : (s.setRow n r).host = s.host := rfl

/-! `State.setNode` -/

@[simp] theorem State.setNode_clock (s : State) (n k : Nat) (x : MemNode) : (s.setNode n k x).clock = s.clock := rfl
@[simp] theorem State.setNode_net (s : State) (n k : Nat) (x : MemNode) : (s.setNode n k x).net = s.net := rfl
@[simp] theorem State.setNode_cur (s : State) (n k : Nat) (x : MemNode) : (s.setNode n k x).cur = s.cur := rfl
@[simp] theorem State.setNode_mem (s : State) (n k : Nat) (x : MemNode) : (s.setNode n k x).mem = s.mem := rfl
@[simp] theorem State.setNode_homes (s : State) (n k : Nat) (x : MemNode) : (s.setNode n k x).homes = s.homes := rfl
@[simp] theorem State.setNode_ctxs (s : State) (n k : Nat) (x : MemNode) : (s.setNode n k x).ctxs = s.ctxs := rfl
@[simp] theorem State.setNode_cells (s : State) (n k : Nat) (x : MemNode) : (s.setNode n k x).cells = s.cells := rfl
@[simp] theorem State.setNode_edges (s : State) (n k : Nat) (x : MemNode) : (s.setNode n k x).edges = s.edges := rfl
@[simp] theorem State.setNode_nodes (s : State) (n k : Nat) (x : MemNode) : (s.setNode n k x).nodes = Tab.put s.nodes (n, k) x := rfl
@[simp] theorem State.setNode_strms (s : State) (n k : Nat) (x : MemNode) : (s.setNode n k x).strms = s.strms := rfl
@[simp] theorem State.setNode_rows (s : State) (n k : Nat) (x : MemNode) : (s.setNode n k x).rows = s.rows := rfl
@[simp] theorem State.setNode_rects (s : State) (n k : Nat) (x : MemNode) : (s.setNode n k x).rects = s.rects := rfl
@[simp] theorem State.setNode_leases (s : State) (n k : Nat) (x : MemNode) : (s.setNode n k x).leases = s.leases := rfl
@[simp] theorem State.setNode_meters (s : State) (n k : Nat) (x : MemNode) : (s.setNode n k x).meters = s.meters := rfl
@[simp] theorem State.setNode_dev (s : State) (n k : Nat) (x : MemNode) : (s.setNode n k x).dev = s.dev := rfl
@[simp] theorem State.setNode_host (s : State) (n k : Nat) (x : MemNode) : (s.setNode n k x).host = s.host := rfl

/-! `State.setStrm` -/

@[simp] theorem State.setStrm_clock (s : State) (n k : Nat) (x : Streamer) : (s.setStrm n k x).clock = s.clock := rfl
@[simp] theorem State.setStrm_net (s : State) (n k : Nat) (x : Streamer) : (s.setStrm n k x).net = s.net := rfl
@[simp] theorem State.setStrm_cur (s : State) (n k : Nat) (x : Streamer) : (s.setStrm n k x).cur = s.cur := rfl
@[simp] theorem State.setStrm_mem (s : State) (n k : Nat) (x : Streamer) : (s.setStrm n k x).mem = s.mem := rfl
@[simp] theorem State.setStrm_homes (s : State) (n k : Nat) (x : Streamer) : (s.setStrm n k x).homes = s.homes := rfl
@[simp] theorem State.setStrm_ctxs (s : State) (n k : Nat) (x : Streamer) : (s.setStrm n k x).ctxs = s.ctxs := rfl
@[simp] theorem State.setStrm_cells (s : State) (n k : Nat) (x : Streamer) : (s.setStrm n k x).cells = s.cells := rfl
@[simp] theorem State.setStrm_edges (s : State) (n k : Nat) (x : Streamer) : (s.setStrm n k x).edges = s.edges := rfl
@[simp] theorem State.setStrm_nodes (s : State) (n k : Nat) (x : Streamer) : (s.setStrm n k x).nodes = s.nodes := rfl
@[simp] theorem State.setStrm_strms (s : State) (n k : Nat) (x : Streamer) : (s.setStrm n k x).strms = Tab.put s.strms (n, k) x := rfl
@[simp] theorem State.setStrm_rows (s : State) (n k : Nat) (x : Streamer) : (s.setStrm n k x).rows = s.rows := rfl
@[simp] theorem State.setStrm_rects (s : State) (n k : Nat) (x : Streamer) : (s.setStrm n k x).rects = s.rects := rfl
@[simp] theorem State.setStrm_leases (s : State) (n k : Nat) (x : Streamer) : (s.setStrm n k x).leases = s.leases := rfl
@[simp] theorem State.setStrm_meters (s : State) (n k : Nat) (x : Streamer) : (s.setStrm n k x).meters = s.meters := rfl
@[simp] theorem State.setStrm_dev (s : State) (n k : Nat) (x : Streamer) : (s.setStrm n k x).dev = s.dev := rfl
@[simp] theorem State.setStrm_host (s : State) (n k : Nat) (x : Streamer) : (s.setStrm n k x).host = s.host := rfl

/-! `State.modLease` -/

@[simp] theorem State.modLease_clock (s : State) (n : Nat) (f : Lease → Lease) : (s.modLease n f).clock = s.clock := rfl
@[simp] theorem State.modLease_net (s : State) (n : Nat) (f : Lease → Lease) : (s.modLease n f).net = s.net := rfl
@[simp] theorem State.modLease_cur (s : State) (n : Nat) (f : Lease → Lease) : (s.modLease n f).cur = s.cur := rfl
@[simp] theorem State.modLease_mem (s : State) (n : Nat) (f : Lease → Lease) : (s.modLease n f).mem = s.mem := rfl
@[simp] theorem State.modLease_homes (s : State) (n : Nat) (f : Lease → Lease) : (s.modLease n f).homes = s.homes := rfl
@[simp] theorem State.modLease_ctxs (s : State) (n : Nat) (f : Lease → Lease) : (s.modLease n f).ctxs = s.ctxs := rfl
@[simp] theorem State.modLease_cells (s : State) (n : Nat) (f : Lease → Lease) : (s.modLease n f).cells = s.cells := rfl
@[simp] theorem State.modLease_edges (s : State) (n : Nat) (f : Lease → Lease) : (s.modLease n f).edges = s.edges := rfl
@[simp] theorem State.modLease_nodes (s : State) (n : Nat) (f : Lease → Lease) : (s.modLease n f).nodes = s.nodes := rfl
@[simp] theorem State.modLease_strms (s : State) (n : Nat) (f : Lease → Lease) : (s.modLease n f).strms = s.strms := rfl
@[simp] theorem State.modLease_rows (s : State) (n : Nat) (f : Lease → Lease) : (s.modLease n f).rows = s.rows := rfl
@[simp] theorem State.modLease_rects (s : State) (n : Nat) (f : Lease → Lease) : (s.modLease n f).rects = s.rects := rfl
@[simp] theorem State.modLease_leases (s : State) (n : Nat) (f : Lease → Lease) : (s.modLease n f).leases = Tab.put s.leases n (f (s.lease n)) := rfl
@[simp] theorem State.modLease_meters (s : State) (n : Nat) (f : Lease → Lease) : (s.modLease n f).meters = s.meters := rfl
@[simp] theorem State.modLease_dev (s : State) (n : Nat) (f : Lease → Lease) : (s.modLease n f).dev = s.dev := rfl
@[simp] theorem State.modLease_host (s : State) (n : Nat) (f : Lease → Lease) : (s.modLease n f).host = s.host := rfl

/-! `State.store` -/

@[simp] theorem State.store_clock (s : State) (l : Loc) (bs : List Byte) : (s.store l bs).clock = s.clock := rfl
@[simp] theorem State.store_net (s : State) (l : Loc) (bs : List Byte) : (s.store l bs).net = s.net := rfl
@[simp] theorem State.store_cur (s : State) (l : Loc) (bs : List Byte) : (s.store l bs).cur = s.cur := rfl
@[simp] theorem State.store_mem (s : State) (l : Loc) (bs : List Byte) : (s.store l bs).mem = s.mem.writeAt (fun i => Loc.key (l.add i)) 0 bs := rfl
@[simp] theorem State.store_homes (s : State) (l : Loc) (bs : List Byte) : (s.store l bs).homes = s.homes := rfl
@[simp] theorem State.store_ctxs (s : State) (l : Loc) (bs : List Byte) : (s.store l bs).ctxs = s.ctxs := rfl
@[simp] theorem State.store_cells (s : State) (l : Loc) (bs : List Byte) : (s.store l bs).cells = s.cells := rfl
@[simp] theorem State.store_edges (s : State) (l : Loc) (bs : List Byte) : (s.store l bs).edges = s.edges := rfl
@[simp] theorem State.store_nodes (s : State) (l : Loc) (bs : List Byte) : (s.store l bs).nodes = s.nodes := rfl
@[simp] theorem State.store_strms (s : State) (l : Loc) (bs : List Byte) : (s.store l bs).strms = s.strms := rfl
@[simp] theorem State.store_rows (s : State) (l : Loc) (bs : List Byte) : (s.store l bs).rows = s.rows := rfl
@[simp] theorem State.store_rects (s : State) (l : Loc) (bs : List Byte) : (s.store l bs).rects = s.rects := rfl
@[simp] theorem State.store_leases (s : State) (l : Loc) (bs : List Byte) : (s.store l bs).leases = s.leases := rfl
@[simp] theorem State.store_meters (s : State) (l : Loc) (bs : List Byte) : (s.store l bs).meters = s.meters := rfl
@[simp] theorem State.store_dev (s : State) (l : Loc) (bs : List Byte) : (s.store l bs).dev = s.dev := rfl
@[simp] theorem State.store_host (s : State) (l : Loc) (bs : List Byte) : (s.store l bs).host = s.host := rfl

/-! `State.bump` -/

@[simp] theorem State.bump_clock (s : State) : (s.bump).clock = { s.clock with tick := s.clock.tick + 1 } := rfl
@[simp] theorem State.bump_net (s : State) : (s.bump).net = s.net := rfl
@[simp] theorem State.bump_cur (s : State) : (s.bump).cur = s.cur := rfl
@[simp] theorem State.bump_mem (s : State) : (s.bump).mem = s.mem := rfl
@[simp] theorem State.bump_homes (s : State) : (s.bump).homes = s.homes := rfl
@[simp] theorem State.bump_ctxs (s : State) : (s.bump).ctxs = s.ctxs := rfl
@[simp] theorem State.bump_cells (s : State) : (s.bump).cells = s.cells := rfl
@[simp] theorem State.bump_edges (s : State) : (s.bump).edges = s.edges := rfl
@[simp] theorem State.bump_nodes (s : State) : (s.bump).nodes = s.nodes := rfl
@[simp] theorem State.bump_strms (s : State) : (s.bump).strms = s.strms := rfl
@[simp] theorem State.bump_rows (s : State) : (s.bump).rows = s.rows := rfl
@[simp] theorem State.bump_rects (s : State) : (s.bump).rects = s.rects := rfl
@[simp] theorem State.bump_leases (s : State) : (s.bump).leases = s.leases := rfl
@[simp] theorem State.bump_meters (s : State) : (s.bump).meters = s.meters := rfl
@[simp] theorem State.bump_dev (s : State) : (s.bump).dev = s.dev := rfl
@[simp] theorem State.bump_host (s : State) : (s.bump).host = s.host := rfl

/-! `State.fresh` -/

@[simp] theorem State.fresh_clock (s : State) : (s.fresh).clock = { s.clock with nextId := s.clock.nextId + 1 } := rfl
@[simp] theorem State.fresh_net (s : State) : (s.fresh).net = s.net := rfl
@[simp] theorem State.fresh_cur (s : State) : (s.fresh).cur = s.cur := rfl
@[simp] theorem State.fresh_mem (s : State) : (s.fresh).mem = s.mem := rfl
@[simp] theorem State.fresh_homes (s : State) : (s.fresh).homes = s.homes := rfl
@[simp] theorem State.fresh_ctxs (s : State) : (s.fresh).ctxs = s.ctxs := rfl
@[simp] theorem State.fresh_cells (s : State) : (s.fresh).cells = s.cells := rfl
@[simp] theorem State.fresh_edges (s : State) : (s.fresh).edges = s.edges := rfl
@[simp] theorem State.fresh_nodes (s : State) : (s.fresh).nodes = s.nodes := rfl
@[simp] theorem State.fresh_strms (s : State) : (s.fresh).strms = s.strms := rfl
@[simp] theorem State.fresh_rows (s : State) : (s.fresh).rows = s.rows := rfl
@[simp] theorem State.fresh_rects (s : State) : (s.fresh).rects = s.rects := rfl
@[simp] theorem State.fresh_leases (s : State) : (s.fresh).leases = s.leases := rfl
@[simp] theorem State.fresh_meters (s : State) : (s.fresh).meters = s.meters := rfl
@[simp] theorem State.fresh_dev (s : State) : (s.fresh).dev = s.dev := rfl
@[simp] theorem State.fresh_host (s : State) : (s.fresh).host = s.host := rfl

/-! `State.postIn` -/

@[simp] theorem State.postIn_clock (s : State) (wait cls : Nat) (ev : Event) : (s.postIn wait cls ev).clock = { s.clock with tick := s.clock.tick + 1 } := rfl
@[simp] theorem State.postIn_net (s : State) (wait cls : Nat) (ev : Event) :
    (s.postIn wait cls ev).net = { s.net with agenda := s.net.agenda ++ [⟨s.clock.cycles + wait, cls, Config.buffer s.clock.tick, s.clock.cycles, ev⟩] } := rfl
@[simp] theorem State.postIn_cur (s : State) (wait cls : Nat) (ev : Event) : (s.postIn wait cls ev).cur = s.cur := rfl
@[simp] theorem State.postIn_mem (s : State) (wait cls : Nat) (ev : Event) : (s.postIn wait cls ev).mem = s.mem := rfl
@[simp] theorem State.postIn_homes (s : State) (wait cls : Nat) (ev : Event) : (s.postIn wait cls ev).homes = s.homes := rfl
@[simp] theorem State.postIn_ctxs (s : State) (wait cls : Nat) (ev : Event) : (s.postIn wait cls ev).ctxs = s.ctxs := rfl
@[simp] theorem State.postIn_cells (s : State) (wait cls : Nat) (ev : Event) : (s.postIn wait cls ev).cells = s.cells := rfl
@[simp] theorem State.postIn_edges (s : State) (wait cls : Nat) (ev : Event) : (s.postIn wait cls ev).edges = s.edges := rfl
@[simp] theorem State.postIn_nodes (s : State) (wait cls : Nat) (ev : Event) : (s.postIn wait cls ev).nodes = s.nodes := rfl
@[simp] theorem State.postIn_strms (s : State) (wait cls : Nat) (ev : Event) : (s.postIn wait cls ev).strms = s.strms := rfl
@[simp] theorem State.postIn_rows (s : State) (wait cls : Nat) (ev : Event) : (s.postIn wait cls ev).rows = s.rows := rfl
@[simp] theorem State.postIn_rects (s : State) (wait cls : Nat) (ev : Event) : (s.postIn wait cls ev).rects = s.rects := rfl
@[simp] theorem State.postIn_leases (s : State) (wait cls : Nat) (ev : Event) : (s.postIn wait cls ev).leases = s.leases := rfl
@[simp] theorem State.postIn_meters (s : State) (wait cls : Nat) (ev : Event) : (s.postIn wait cls ev).meters = s.meters := rfl
@[simp] theorem State.postIn_dev (s : State) (wait cls : Nat) (ev : Event) : (s.postIn wait cls ev).dev = s.dev := rfl
@[simp] theorem State.postIn_host (s : State) (wait cls : Nat) (ev : Event) : (s.postIn wait cls ev).host = s.host := rfl

/-! `State.postFirst` -/

@[simp] theorem State.postFirst_clock (s : State) (wait cls : Nat) (ev : Event) :
    (s.postFirst wait cls ev).clock = { s.clock with tick := s.clock.tick + 1 } := rfl
@[simp] theorem State.postFirst_net (s : State) (wait cls : Nat) (ev : Event) :
    (s.postFirst wait cls ev).net = { s.net with agenda := ⟨s.clock.cycles + wait, cls, Config.buffer s.clock.tick, s.clock.cycles, ev⟩ :: s.net.agenda } := rfl
@[simp] theorem State.postFirst_cur (s : State) (wait cls : Nat) (ev : Event) : (s.postFirst wait cls ev).cur = s.cur := rfl
@[simp] theorem State.postFirst_mem (s : State) (wait cls : Nat) (ev : Event) : (s.postFirst wait cls ev).mem = s.mem := rfl
@[simp] theorem State.postFirst_homes (s : State) (wait cls : Nat) (ev : Event) : (s.postFirst wait cls ev).homes = s.homes := rfl
@[simp] theorem State.postFirst_ctxs (s : State) (wait cls : Nat) (ev : Event) : (s.postFirst wait cls ev).ctxs = s.ctxs := rfl
@[simp] theorem State.postFirst_cells (s : State) (wait cls : Nat) (ev : Event) : (s.postFirst wait cls ev).cells = s.cells := rfl
@[simp] theorem State.postFirst_edges (s : State) (wait cls : Nat) (ev : Event) : (s.postFirst wait cls ev).edges = s.edges := rfl
@[simp] theorem State.postFirst_nodes (s : State) (wait cls : Nat) (ev : Event) : (s.postFirst wait cls ev).nodes = s.nodes := rfl
@[simp] theorem State.postFirst_strms (s : State) (wait cls : Nat) (ev : Event) : (s.postFirst wait cls ev).strms = s.strms := rfl
@[simp] theorem State.postFirst_rows (s : State) (wait cls : Nat) (ev : Event) : (s.postFirst wait cls ev).rows = s.rows := rfl
@[simp] theorem State.postFirst_rects (s : State) (wait cls : Nat) (ev : Event) : (s.postFirst wait cls ev).rects = s.rects := rfl
@[simp] theorem State.postFirst_leases (s : State) (wait cls : Nat) (ev : Event) : (s.postFirst wait cls ev).leases = s.leases := rfl
@[simp] theorem State.postFirst_meters (s : State) (wait cls : Nat) (ev : Event) : (s.postFirst wait cls ev).meters = s.meters := rfl
@[simp] theorem State.postFirst_dev (s : State) (wait cls : Nat) (ev : Event) : (s.postFirst wait cls ev).dev = s.dev := rfl
@[simp] theorem State.postFirst_host (s : State) (wait cls : Nat) (ev : Event) : (s.postFirst wait cls ev).host = s.host := rfl

/-! `State.post` -/

@[simp] theorem State.post_clock (s : State) (cls : Nat) (ev : Event) : (s.post cls ev).clock = { s.clock with tick := s.clock.tick + 1 } := rfl
@[simp] theorem State.post_net (s : State) (cls : Nat) (ev : Event) :
    (s.post cls ev).net = { s.net with agenda := s.net.agenda ++ [⟨s.clock.cycles + 0, cls, Config.buffer s.clock.tick, s.clock.cycles, ev⟩] } := rfl
@[simp] theorem State.post_cur (s : State) (cls : Nat) (ev : Event) : (s.post cls ev).cur = s.cur := rfl
@[simp] theorem State.post_mem (s : State) (cls : Nat) (ev : Event) : (s.post cls ev).mem = s.mem := rfl
@[simp] theorem State.post_homes (s : State) (cls : Nat) (ev : Event) : (s.post cls ev).homes = s.homes := rfl
@[simp] theorem State.post_ctxs (s : State) (cls : Nat) (ev : Event) : (s.post cls ev).ctxs = s.ctxs := rfl
@[simp] theorem State.post_cells (s : State) (cls : Nat) (ev : Event) : (s.post cls ev).cells = s.cells := rfl
@[simp] theorem State.post_edges (s : State) (cls : Nat) (ev : Event) : (s.post cls ev).edges = s.edges := rfl
@[simp] theorem State.post_nodes (s : State) (cls : Nat) (ev : Event) : (s.post cls ev).nodes = s.nodes := rfl
@[simp] theorem State.post_strms (s : State) (cls : Nat) (ev : Event) : (s.post cls ev).strms = s.strms := rfl
@[simp] theorem State.post_rows (s : State) (cls : Nat) (ev : Event) : (s.post cls ev).rows = s.rows := rfl
@[simp] theorem State.post_rects (s : State) (cls : Nat) (ev : Event) : (s.post cls ev).rects = s.rects := rfl
@[simp] theorem State.post_leases (s : State) (cls : Nat) (ev : Event) : (s.post cls ev).leases = s.leases := rfl
@[simp] theorem State.post_meters (s : State) (cls : Nat) (ev : Event) : (s.post cls ev).meters = s.meters := rfl
@[simp] theorem State.post_dev (s : State) (cls : Nat) (ev : Event) : (s.post cls ev).dev = s.dev := rfl
@[simp] theorem State.post_host (s : State) (cls : Nat) (ev : Event) : (s.post cls ev).host = s.host := rfl

/-! `State.count` -/

@[simp] theorem State.count_clock (s : State) (lease code handle n : Nat) : (s.count lease code handle n).clock = s.clock := by unfold State.count; split <;> rfl
@[simp] theorem State.count_net (s : State) (lease code handle n : Nat) : (s.count lease code handle n).net = s.net := by unfold State.count; split <;> rfl
@[simp] theorem State.count_cur (s : State) (lease code handle n : Nat) : (s.count lease code handle n).cur = s.cur := by unfold State.count; split <;> rfl
@[simp] theorem State.count_mem (s : State) (lease code handle n : Nat) : (s.count lease code handle n).mem = s.mem := by unfold State.count; split <;> rfl
@[simp] theorem State.count_homes (s : State) (lease code handle n : Nat) : (s.count lease code handle n).homes = s.homes := by unfold State.count; split <;> rfl
@[simp] theorem State.count_ctxs (s : State) (lease code handle n : Nat) : (s.count lease code handle n).ctxs = s.ctxs := by unfold State.count; split <;> rfl
@[simp] theorem State.count_cells (s : State) (lease code handle n : Nat) : (s.count lease code handle n).cells = s.cells := by unfold State.count; split <;> rfl
@[simp] theorem State.count_edges (s : State) (lease code handle n : Nat) : (s.count lease code handle n).edges = s.edges := by unfold State.count; split <;> rfl
@[simp] theorem State.count_nodes (s : State) (lease code handle n : Nat) : (s.count lease code handle n).nodes = s.nodes := by unfold State.count; split <;> rfl
@[simp] theorem State.count_strms (s : State) (lease code handle n : Nat) : (s.count lease code handle n).strms = s.strms := by unfold State.count; split <;> rfl
@[simp] theorem State.count_rows (s : State) (lease code handle n : Nat) : (s.count lease code handle n).rows = s.rows := by unfold State.count; split <;> rfl
@[simp] theorem State.count_rects (s : State) (lease code handle n : Nat) : (s.count lease code handle n).rects = s.rects := by unfold State.count; split <;> rfl
@[simp] theorem State.count_meters (s : State) (lease code handle n : Nat) : (s.count lease code handle n).meters = s.meters := by unfold State.count; split <;> rfl
@[simp] theorem State.count_dev (s : State) (lease code handle n : Nat) : (s.count lease code handle n).dev = s.dev := by unfold State.count; split <;> rfl
@[simp] theorem State.count_host (s : State) (lease code handle n : Nat) : (s.count lease code handle n).host = s.host := by unfold State.count; split <;> rfl

/-! `State.modCtx` -/

@[simp] theorem State.modCtx_clock (s : State) (c : CtxId) (f : Ctx → Ctx) : (s.modCtx c f).clock = s.clock := by unfold State.modCtx; split <;> rfl
@[simp] theorem State.modCtx_net (s : State) (c : CtxId) (f : Ctx → Ctx) : (s.modCtx c f).net = s.net := by unfold State.modCtx; split <;> rfl
@[simp] theorem State.modCtx_cur (s : State) (c : CtxId) (f : Ctx → Ctx) : (s.modCtx c f).cur = s.cur := by unfold State.modCtx; split <;> rfl
@[simp] theorem State.modCtx_mem (s : State) (c : CtxId) (f : Ctx → Ctx) : (s.modCtx c f).mem = s.mem := by unfold State.modCtx; split <;> rfl
@[simp] theorem State.modCtx_homes (s : State) (c : CtxId) (f : Ctx → Ctx) : (s.modCtx c f).homes = s.homes := by unfold State.modCtx; split <;> rfl
@[simp] theorem State.modCtx_cells (s : State) (c : CtxId) (f : Ctx → Ctx) : (s.modCtx c f).cells = s.cells := by unfold State.modCtx; split <;> rfl
@[simp] theorem State.modCtx_edges (s : State) (c : CtxId) (f : Ctx → Ctx) : (s.modCtx c f).edges = s.edges := by unfold State.modCtx; split <;> rfl
@[simp] theorem State.modCtx_nodes (s : State) (c : CtxId) (f : Ctx → Ctx) : (s.modCtx c f).nodes = s.nodes := by unfold State.modCtx; split <;> rfl
@[simp] theorem State.modCtx_strms (s : State) (c : CtxId) (f : Ctx → Ctx) : (s.modCtx c f).strms = s.strms := by unfold State.modCtx; split <;> rfl
@[simp] theorem State.modCtx_rows (s : State) (c : CtxId) (f : Ctx → Ctx) : (s.modCtx c f).rows = s.rows := by unfold State.modCtx; split <;> rfl
@[simp] theorem State.modCtx_rects (s : State) (c : CtxId) (f : Ctx → Ctx) : (s.modCtx c f).rects = s.rects := by unfold State.modCtx; split <;> rfl
@[simp] theorem State.modCtx_leases (s : State) (c : CtxId) (f : Ctx → Ctx) : (s.modCtx c f).leases = s.leases := by unfold State.modCtx; split <;> rfl
@[simp] theorem State.modCtx_meters (s : State) (c : CtxId) (f : Ctx → Ctx) : (s.modCtx c f).meters = s.meters := by unfold State.modCtx; split <;> rfl
@[simp] theorem State.modCtx_dev (s : State) (c : CtxId) (f : Ctx → Ctx) : (s.modCtx c f).dev = s.dev := by unfold State.modCtx; split <;> rfl
@[simp] theorem State.modCtx_host (s : State) (c : CtxId) (f : Ctx → Ctx) : (s.modCtx c f).host = s.host := by unfold State.modCtx; split <;> rfl

/-! `State.modCell` -/

@[simp] theorem State.modCell_clock (s : State) (k : CellId) (f : Cell → Cell) : (s.modCell k f).clock = s.clock := by unfold State.modCell; split <;> rfl
@[simp] theorem State.modCell_net (s : State) (k : CellId) (f : Cell → Cell) : (s.modCell k f).net = s.net := by unfold State.modCell; split <;> rfl
@[simp] theorem State.modCell_cur (s : State) (k : CellId) (f : Cell → Cell) : (s.modCell k f).cur = s.cur := by unfold State.modCell; split <;> rfl
@[simp] theorem State.modCell_mem (s : State) (k : CellId) (f : Cell → Cell) : (s.modCell k f).mem = s.mem := by unfold State.modCell; split <;> rfl
@[simp] theorem State.modCell_homes (s : State) (k : CellId) (f : Cell → Cell) : (s.modCell k f).homes = s.homes := by unfold State.modCell; split <;> rfl
@[simp] theorem State.modCell_ctxs (s : State) (k : CellId) (f : Cell → Cell) : (s.modCell k f).ctxs = s.ctxs := by unfold State.modCell; split <;> rfl
@[simp] theorem State.modCell_edges (s : State) (k : CellId) (f : Cell → Cell) : (s.modCell k f).edges = s.edges := by unfold State.modCell; split <;> rfl
@[simp] theorem State.modCell_nodes (s : State) (k : CellId) (f : Cell → Cell) : (s.modCell k f).nodes = s.nodes := by unfold State.modCell; split <;> rfl
@[simp] theorem State.modCell_strms (s : State) (k : CellId) (f : Cell → Cell) : (s.modCell k f).strms = s.strms := by unfold State.modCell; split <;> rfl
@[simp] theorem State.modCell_rows (s : State) (k : CellId) (f : Cell → Cell) : (s.modCell k f).rows = s.rows := by unfold State.modCell; split <;> rfl
@[simp] theorem State.modCell_rects (s : State) (k : CellId) (f : Cell → Cell) : (s.modCell k f).rects = s.rects := by unfold State.modCell; split <;> rfl
@[simp] theorem State.modCell_leases (s : State) (k : CellId) (f : Cell → Cell) : (s.modCell k f).leases = s.leases := by unfold State.modCell; split <;> rfl
@[simp] theorem State.modCell_meters (s : State) (k : CellId) (f : Cell → Cell) : (s.modCell k f).meters = s.meters := by unfold State.modCell; split <;> rfl
@[simp] theorem State.modCell_dev (s : State) (k : CellId) (f : Cell → Cell) : (s.modCell k f).dev = s.dev := by unfold State.modCell; split <;> rfl
@[simp] theorem State.modCell_host (s : State) (k : CellId) (f : Cell → Cell) : (s.modCell k f).host = s.host := by unfold State.modCell; split <;> rfl

/-! `State.modRect` -/

@[simp] theorem State.modRect_clock (s : State) (n : Nat) (f : Rect → Rect) : (s.modRect n f).clock = s.clock := by unfold State.modRect; split <;> rfl
@[simp] theorem State.modRect_net (s : State) (n : Nat) (f : Rect → Rect) : (s.modRect n f).net = s.net := by unfold State.modRect; split <;> rfl
@[simp] theorem State.modRect_cur (s : State) (n : Nat) (f : Rect → Rect) : (s.modRect n f).cur = s.cur := by unfold State.modRect; split <;> rfl
@[simp] theorem State.modRect_mem (s : State) (n : Nat) (f : Rect → Rect) : (s.modRect n f).mem = s.mem := by unfold State.modRect; split <;> rfl
@[simp] theorem State.modRect_homes (s : State) (n : Nat) (f : Rect → Rect) : (s.modRect n f).homes = s.homes := by unfold State.modRect; split <;> rfl
@[simp] theorem State.modRect_ctxs (s : State) (n : Nat) (f : Rect → Rect) : (s.modRect n f).ctxs = s.ctxs := by unfold State.modRect; split <;> rfl
@[simp] theorem State.modRect_cells (s : State) (n : Nat) (f : Rect → Rect) : (s.modRect n f).cells = s.cells := by unfold State.modRect; split <;> rfl
@[simp] theorem State.modRect_edges (s : State) (n : Nat) (f : Rect → Rect) : (s.modRect n f).edges = s.edges := by unfold State.modRect; split <;> rfl
@[simp] theorem State.modRect_nodes (s : State) (n : Nat) (f : Rect → Rect) : (s.modRect n f).nodes = s.nodes := by unfold State.modRect; split <;> rfl
@[simp] theorem State.modRect_strms (s : State) (n : Nat) (f : Rect → Rect) : (s.modRect n f).strms = s.strms := by unfold State.modRect; split <;> rfl
@[simp] theorem State.modRect_rows (s : State) (n : Nat) (f : Rect → Rect) : (s.modRect n f).rows = s.rows := by unfold State.modRect; split <;> rfl
@[simp] theorem State.modRect_leases (s : State) (n : Nat) (f : Rect → Rect) : (s.modRect n f).leases = s.leases := by unfold State.modRect; split <;> rfl
@[simp] theorem State.modRect_meters (s : State) (n : Nat) (f : Rect → Rect) : (s.modRect n f).meters = s.meters := by unfold State.modRect; split <;> rfl
@[simp] theorem State.modRect_dev (s : State) (n : Nat) (f : Rect → Rect) : (s.modRect n f).dev = s.dev := by unfold State.modRect; split <;> rfl
@[simp] theorem State.modRect_host (s : State) (n : Nat) (f : Rect → Rect) : (s.modRect n f).host = s.host := by unfold State.modRect; split <;> rfl

/-! `State.block` -/

@[simp] theorem State.block_clock (s : State) (x : Ctx) : (s.block x).clock = s.clock := rfl
@[simp] theorem State.block_net (s : State) (x : Ctx) : (s.block x).net = s.net := rfl
@[simp] theorem State.block_cur (s : State) (x : Ctx) : (s.block x).cur = s.cur := rfl
@[simp] theorem State.block_mem (s : State) (x : Ctx) : (s.block x).mem = s.mem := rfl
@[simp] theorem State.block_homes (s : State) (x : Ctx) : (s.block x).homes = s.homes := rfl
@[simp] theorem State.block_cells (s : State) (x : Ctx) : (s.block x).cells = s.cells := rfl
@[simp] theorem State.block_edges (s : State) (x : Ctx) : (s.block x).edges = s.edges := rfl
@[simp] theorem State.block_nodes (s : State) (x : Ctx) : (s.block x).nodes = s.nodes := rfl
@[simp] theorem State.block_strms (s : State) (x : Ctx) : (s.block x).strms = s.strms := rfl
@[simp] theorem State.block_rows (s : State) (x : Ctx) : (s.block x).rows = s.rows := rfl
@[simp] theorem State.block_rects (s : State) (x : Ctx) : (s.block x).rects = s.rects := rfl
@[simp] theorem State.block_leases (s : State) (x : Ctx) : (s.block x).leases = s.leases := rfl
@[simp] theorem State.block_meters (s : State) (x : Ctx) : (s.block x).meters = s.meters := rfl
@[simp] theorem State.block_dev (s : State) (x : Ctx) : (s.block x).dev = s.dev := rfl
@[simp] theorem State.block_host (s : State) (x : Ctx) : (s.block x).host = s.host := rfl

/-! `State.retire` -/

@[simp] theorem State.retire_clock (s : State) (x : Ctx) (goto : Option PC) : (s.retire x goto).clock = s.clock := by simp [State.retire]
@[simp] theorem State.retire_net (s : State) (x : Ctx) (goto : Option PC) : (s.retire x goto).net = s.net := by simp [State.retire]
@[simp] theorem State.retire_cur (s : State) (x : Ctx) (goto : Option PC) : (s.retire x goto).cur = s.cur := by simp [State.retire]
@[simp] theorem State.retire_mem (s : State) (x : Ctx) (goto : Option PC) : (s.retire x goto).mem = s.mem := by simp [State.retire]
@[simp] theorem State.retire_homes (s : State) (x : Ctx) (goto : Option PC) : (s.retire x goto).homes = s.homes := by simp [State.retire]
@[simp] theorem State.retire_cells (s : State) (x : Ctx) (goto : Option PC) : (s.retire x goto).cells = s.cells := by simp [State.retire]
@[simp] theorem State.retire_edges (s : State) (x : Ctx) (goto : Option PC) : (s.retire x goto).edges = s.edges := by simp [State.retire]
@[simp] theorem State.retire_nodes (s : State) (x : Ctx) (goto : Option PC) : (s.retire x goto).nodes = s.nodes := by simp [State.retire]
@[simp] theorem State.retire_strms (s : State) (x : Ctx) (goto : Option PC) : (s.retire x goto).strms = s.strms := by simp [State.retire]
@[simp] theorem State.retire_rows (s : State) (x : Ctx) (goto : Option PC) : (s.retire x goto).rows = s.rows := by simp [State.retire]
@[simp] theorem State.retire_rects (s : State) (x : Ctx) (goto : Option PC) : (s.retire x goto).rects = s.rects := by simp [State.retire]
@[simp] theorem State.retire_meters (s : State) (x : Ctx) (goto : Option PC) : (s.retire x goto).meters = s.meters := by simp [State.retire]
@[simp] theorem State.retire_dev (s : State) (x : Ctx) (goto : Option PC) : (s.retire x goto).dev = s.dev := by simp [State.retire]
@[simp] theorem State.retire_host (s : State) (x : Ctx) (goto : Option PC) : (s.retire x goto).host = s.host := by simp [State.retire]

end Sys2Proof.Machine
end

