-- ==== Sys2Proof/Laws/Tables.lean ====
section
/-! SUPPORT. Reads of tables after an update, and of the state's tables by name. -/

namespace Sys2Proof.Machine

theorem Tab.get?_put {κ α : Type} [DecidableEq κ] (t : Tab κ α) (k x : κ) (v : α) :
    Tab.get? (Tab.put t k v) x = if k = x then some v else Tab.get? t x := by
  induction t with
  | nil => simp [Tab.put, Tab.get?]
  | cons p t ih =>
    obtain ⟨a, b⟩ := p
    unfold Tab.put
    split
    · subst_vars; simp only [Tab.get?]; split <;> rfl
    · simp only [Tab.get?, ih]; split <;> split <;> simp_all

@[simp] theorem Tab.get?_put_self {κ α : Type} [DecidableEq κ] (t : Tab κ α) (k : κ) (v : α) :
    Tab.get? (Tab.put t k v) k = some v := by simp [Tab.get?_put]

theorem Tab.get?_put_ne {κ α : Type} [DecidableEq κ] (t : Tab κ α) {k x : κ} (v : α) (h : k ≠ x) :
    Tab.get? (Tab.put t k v) x = Tab.get? t x := by simp [Tab.get?_put, h]

theorem Tab.put_put {κ α : Type} [DecidableEq κ] (t : Tab κ α) (k : κ) (v w : α) :
    Tab.put (Tab.put t k v) k w = Tab.put t k w := by
  induction t with
  | nil => simp [Tab.put]
  | cons p t ih =>
    obtain ⟨a, b⟩ := p
    unfold Tab.put
    by_cases h : a = k
    · simp [h, Tab.put]
    · simp [h, Tab.put, ih]

/-- What is in a table after an update was in it before, or is what was put. -/
theorem Tab.mem_put {κ α : Type} [DecidableEq κ] {t : Tab κ α} {k : κ} {v : α} {p : κ × α} (h : p ∈ Tab.put t k v) :
    p = (k, v) ∨ p ∈ t := by
  induction t with
  | nil => simpa [Tab.put] using h
  | cons q t ih =>
    obtain ⟨a, b⟩ := q
    unfold Tab.put at h
    split at h
    · rename_i e; subst e
      rcases List.mem_cons.1 h with h | h
      · exact .inl h
      · exact .inr (List.mem_cons_of_mem _ h)
    · rcases List.mem_cons.1 h with h | h
      · exact .inr (h ▸ List.mem_cons_self ..)
      · exact (ih h).imp id (List.mem_cons_of_mem _)

theorem Tab.mem_of_get? {κ α : Type} [DecidableEq κ] {t : Tab κ α} {k : κ} {v : α} (h : Tab.get? t k = some v) :
    (k, v) ∈ t := by
  induction t with
  | nil => simp [Tab.get?] at h
  | cons q t ih =>
    obtain ⟨a, b⟩ := q
    simp only [Tab.get?] at h
    split at h
    · rename_i e; subst e; simp_all
    · exact List.mem_cons_of_mem _ (ih h)

/-! ### The state's tables by name -/

theorem State.ctx?_setCtx (s : State) (c e : CtxId) (x : Ctx) : (s.setCtx c x).ctx? e = if c = e then some x else s.ctx? e :=
  Tab.get?_put ..
@[simp] theorem State.ctx?_setCtx_self (s : State) (c : CtxId) (x : Ctx) : (s.setCtx c x).ctx? c = some x := Tab.get?_put_self ..
theorem State.cell?_setCell (s : State) (k e : CellId) (x : Cell) : (s.setCell k x).cell? e = if k = e then some x else s.cell? e :=
  Tab.get?_put ..
@[simp] theorem State.cell?_setCell_self (s : State) (k : CellId) (x : Cell) : (s.setCell k x).cell? k = some x := Tab.get?_put_self ..
@[simp] theorem State.edge?_setEdge_self (s : State) (n k : Nat) (e : Edge) : (s.setEdge n k e).edge? n k = some e :=
  Tab.get?_put_self ..
@[simp] theorem State.node?_setNode_self (s : State) (n k : Nat) (x : MemNode) : (s.setNode n k x).node? n k = some x :=
  Tab.get?_put_self ..
@[simp] theorem State.strm?_setStrm_self (s : State) (n k : Nat) (x : Streamer) : (s.setStrm n k x).strm? n k = some x :=
  Tab.get?_put_self ..
@[simp] theorem State.row_setRow_self (s : State) (n : Nat) (r : RowHalf) : (s.setRow n r).row n = r := by
  simp [State.row]
theorem State.lease_setLease (s : State) (n k : Nat) (l : Lease) : (s.setLease n l).lease k = if n = k then l else s.lease k := by
  simp only [State.lease, State.setLease_leases, Tab.get?_put]; split <;> rfl
@[simp] theorem State.lease_setLease_self (s : State) (n : Nat) (l : Lease) : (s.setLease n l).lease n = l := by
  simp [State.lease_setLease]
@[simp] theorem State.lease_modLease_self (s : State) (n : Nat) (f : Lease → Lease) : (s.modLease n f).lease n = f (s.lease n) := by
  simp [State.modLease]
@[simp] theorem State.meter_setMeter_self (s : State) (n : Nat) (m : Meter) : (s.setMeter n m).meter n = m := by
  simp [State.meter]
theorem State.slot_setRect (s : State) (n k : Nat) (r : Rect) :
    (s.setRect n r).slot k = if n = k then { s.slot n with rect := some r } else s.slot k := by
  simp only [State.slot, State.setRect_rects, Tab.get?_put]; split <;> rfl
@[simp] theorem State.rect?_setRect_self (s : State) (n : Nat) (r : Rect) : (s.setRect n r).rect? n = some r := by
  simp [State.rect?, State.slot_setRect]
theorem State.rect?_setRect (s : State) (n k : Nat) (r : Rect) : (s.setRect n r).rect? k = if n = k then some r else s.rect? k := by
  simp only [State.rect?, State.slot_setRect]; split <;> rfl

/-- A context is found under the same name in two states with the same table. -/
theorem State.ctx?_congr {s t : State} (h : t.ctxs = s.ctxs) (c : CtxId) : t.ctx? c = s.ctx? c := by simp [State.ctx?, h]
theorem State.rect?_congr {s t : State} (h : t.rects = s.rects) (n : Nat) : t.rect? n = s.rect? n := by
  simp [State.rect?, State.slot, h]
theorem State.lease_congr {s t : State} (h : t.leases = s.leases) (n : Nat) : t.lease n = s.lease n := by simp [State.lease, h]

theorem State.modCtx_of_some {s : State} {c : CtxId} {x : Ctx} (h : s.ctx? c = some x) (f : Ctx → Ctx) :
    s.modCtx c f = s.setCtx c (f x) := by simp [State.modCtx, h]
theorem State.modCell_of_some {s : State} {k : CellId} {x : Cell} (h : s.cell? k = some x) (f : Cell → Cell) :
    s.modCell k f = s.setCell k (f x) := by simp [State.modCell, h]
theorem State.modRect_of_some {s : State} {n : Nat} {r : Rect} (h : s.rect? n = some r) (f : Rect → Rect) :
    s.modRect n f = s.setRect n (f r) := by simp [State.modRect, h]

end Sys2Proof.Machine
end

