-- ==== Sys2Proof/Laws/Memory.lean ====
section
/-! SUPPORT. Memory: reads after writes, and the canonical form that every write keeps. -/

namespace Sys2Proof.Machine

/-! ### One byte -/

theorem Mem.wfFrom_mono {lo lo' : Nat} {m : Mem} (h : lo' ≤ lo) (hm : Mem.wfFrom lo m = true) : Mem.wfFrom lo' m = true := by
  cases m with
  | nil => rfl
  | cons p m =>
    obtain ⟨a, b⟩ := p
    simp only [Mem.wfFrom, Bool.and_eq_true, decide_eq_true_eq] at hm ⊢
    exact ⟨⟨by omega, hm.1.2⟩, hm.2⟩

theorem Mem.wfFrom_write {lo x : Nat} {m : Mem} (v : Byte) (h : lo ≤ x) (hm : Mem.wfFrom lo m = true) :
    Mem.wfFrom lo (m.write x v) = true := by
  induction m generalizing lo with
  | nil => unfold Mem.write; split <;> simp_all [Mem.wfFrom]
  | cons p m ih =>
    obtain ⟨a, b⟩ := p
    have hm' := hm
    simp only [Mem.wfFrom, Bool.and_eq_true, decide_eq_true_eq] at hm
    obtain ⟨⟨h1, h2⟩, h3⟩ := hm
    unfold Mem.write
    by_cases hx : x < a
    · by_cases hv : v = 0#8
      · simp [hx, hv, hm']
      · simp only [hx, hv, if_true, if_false, Mem.wfFrom, Bool.and_eq_true, decide_eq_true_eq]
        exact ⟨⟨h, hv⟩, ⟨by omega, h2⟩, h3⟩
    · by_cases he : x = a
      · subst he
        by_cases hv : v = 0#8
        · simp only [hx, hv, if_true, if_false]; exact Mem.wfFrom_mono (by omega) h3
        · simp only [hx, hv, if_true, if_false, Mem.wfFrom, Bool.and_eq_true, decide_eq_true_eq]; exact ⟨⟨h, hv⟩, h3⟩
      · simp only [hx, he, if_false, Mem.wfFrom, Bool.and_eq_true, decide_eq_true_eq]
        exact ⟨⟨h1, h2⟩, ih (by omega) h3⟩

theorem Mem.wf_nil : Mem.wf [] = true := rfl
/-- A write keeps the canonical form. -/
theorem Mem.wf_write {m : Mem} (x : Nat) (v : Byte) (hm : Mem.wf m = true) : Mem.wf (m.write x v) = true :=
  Mem.wfFrom_write v (Nat.zero_le x) hm

theorem Mem.read_below {lo x : Nat} {m : Mem} (hm : Mem.wfFrom lo m = true) (h : x < lo) : m.read x = 0#8 := by
  induction m generalizing lo with
  | nil => rfl
  | cons p m ih =>
    obtain ⟨a, b⟩ := p
    simp only [Mem.wfFrom, Bool.and_eq_true, decide_eq_true_eq] at hm
    have : a ≠ x := by omega
    simp only [Mem.read, this, if_false]
    exact ih hm.2 (by omega)

/-- A read after a write: the byte written at its own address, the old byte elsewhere. -/
theorem Mem.read_write {lo : Nat} {m : Mem} (hm : Mem.wfFrom lo m = true) (x y : Nat) (v : Byte) :
    (m.write x v).read y = if x = y then v else m.read y := by
  induction m generalizing lo with
  | nil => unfold Mem.write; split <;> simp_all [Mem.read]
  | cons p m ih =>
    obtain ⟨a, b⟩ := p
    simp only [Mem.wfFrom, Bool.and_eq_true, decide_eq_true_eq] at hm
    obtain ⟨⟨h1, h2⟩, h3⟩ := hm
    unfold Mem.write
    by_cases hx : x < a
    · by_cases hv : v = 0#8
      · simp only [hx, hv, if_true]
        by_cases hy : x = y
        · subst hy
          have : a ≠ x := by omega
          simp only [Mem.read, this, if_false, if_true]; exact Mem.read_below h3 (by omega)
        · simp [hy]
      · simp only [hx, hv, if_true, if_false, Mem.read]
    · by_cases he : x = a
      · subst he
        by_cases hv : v = 0#8
        · simp only [hx, hv, if_true, if_false, Mem.read]
          by_cases hy : x = y
          · subst hy; simp only [if_true]; exact Mem.read_below h3 (by omega)
          · simp [hy]
        · simp only [hx, hv, if_true, if_false, Mem.read]; split <;> rfl
      · simp only [hx, he, if_false, Mem.read, ih h3]
        by_cases hy : a = y
        · subst hy; simp [he]
        · simp [hy]

/-! ### Several bytes -/

/-- Writing bytes keeps the canonical form. -/
theorem Mem.wf_writeAt {k : Nat → Nat} {m : Mem} (i : Nat) (bs : List Byte) (hm : Mem.wf m = true) :
    Mem.wf (Mem.writeAt k m i bs) = true := by
  induction bs generalizing m i with
  | nil => exact hm
  | cons b bs ih => exact ih (i + 1) (Mem.wf_write (k i) b hm)

/-- A byte outside the keys written reads as before. -/
theorem Mem.read_writeAt_of_ne {k : Nat → Nat} {m : Mem} (hm : Mem.wf m = true) (i : Nat) (bs : List Byte) (x : Nat)
    (h : ∀ j, i ≤ j → j < i + bs.length → k j ≠ x) : (Mem.writeAt k m i bs).read x = m.read x := by
  induction bs generalizing m i with
  | nil => rfl
  | cons b bs ih =>
    simp only [List.length_cons] at h
    simp only [Mem.writeAt]
    rw [ih (Mem.wf_write (k i) b hm) (i + 1) (fun j h1 h2 => h j (by omega) (by omega)), Mem.read_write hm,
      if_neg (h i (by omega) (by omega))]

/-- A byte read at a key that was written is the byte written there. -/
theorem Mem.read_writeAt {k : Nat → Nat} (hk : ∀ a b, k a = k b → a = b) {m : Mem} (hm : Mem.wf m = true) (i : Nat) (bs : List Byte)
    (j : Nat) (hj : j < bs.length) : (Mem.writeAt k m i bs).read (k (i + j)) = bs[j] := by
  induction bs generalizing m i j with
  | nil => simp at hj
  | cons b bs ih =>
    simp only [Mem.writeAt]
    cases j with
    | zero =>
      show (Mem.writeAt k (m.write (k i) b) (i + 1) bs).read (k i) = b
      rw [Mem.read_writeAt_of_ne (Mem.wf_write (k i) b hm) (i + 1) bs (k i)
        (fun n h1 _ e => by have := hk n i e; omega), Mem.read_write hm, if_pos rfl]
    | succ j =>
      have h := ih (Mem.wf_write (k i) b hm) (i + 1) j (by simpa using hj)
      rw [show i + 1 + j = i + (j + 1) by omega] at h
      simpa using h

/-- What was written is what is read back. -/
theorem Mem.readAt_writeAt {k : Nat → Nat} (hk : ∀ a b, k a = k b → a = b) {m : Mem} (hm : Mem.wf m = true) (bs : List Byte)
    (i : Nat) : (Mem.writeAt k m i bs).readAt k i bs.length = bs := by
  induction bs generalizing m i with
  | nil => rfl
  | cons b bs ih =>
    simp only [List.length_cons, Mem.readAt, Mem.writeAt]
    rw [Mem.read_writeAt_of_ne (Mem.wf_write (k i) b hm) (i + 1) bs (k i) (fun n h1 _ e => by have := hk n i e; omega),
      Mem.read_write hm, if_pos rfl, ih (Mem.wf_write (k i) b hm)]

/-! ### Places -/

theorem Loc.key_add_inj (l : Loc) {i j : Nat} (h : Loc.key (l.add i) = Loc.key (l.add j)) : i = j := by
  cases l <;> simp only [Loc.add, Loc.key] at h <;> omega

/-- A store keeps the canonical form of storage. -/
theorem State.wf_store {s : State} (l : Loc) (bs : List Byte) (h : Mem.wf s.mem = true) : Mem.wf (s.store l bs).mem = true :=
  Mem.wf_writeAt 0 bs h

/-- What was stored at a place is what is loaded from it. -/
theorem State.load_store {s : State} (l : Loc) (bs : List Byte) (h : Mem.wf s.mem = true) :
    (s.store l bs).load l bs.length = bs :=
  Mem.readAt_writeAt (fun _ _ e => Loc.key_add_inj l e) h bs 0

/-- A byte outside the stored ones reads as before. -/
theorem State.read_store_of_ne {s : State} (l : Loc) (bs : List Byte) (h : Mem.wf s.mem = true) (x : Nat)
    (hx : ∀ j, j < bs.length → Loc.key (l.add j) ≠ x) : (s.store l bs).mem.read x = s.mem.read x :=
  Mem.read_writeAt_of_ne h 0 bs x (fun j _ h2 => hx j (by omega))

end Sys2Proof.Machine
end

