-- ==== Sys2Proof/Laws/Context.lean ====
section
/-! SUPPORT. Registers and full/empty bits of a context after a read, a write, a push and a completed instruction; what an instruction
that may take effect answers. -/

namespace Sys2Proof.Machine

/-! ### Single bits -/

theorem getLsbD_setBit {w : Nat} (v : BitVec w) (n i : Nat) (hi : i < w) :
    (v ||| (1#w <<< n)).getLsbD i = (v.getLsbD i || decide (i = n)) := by
  rw [BitVec.getLsbD_or, BitVec.getLsbD_shiftLeft, BitVec.getLsbD_one]
  congr 1
  rw [Bool.eq_iff_iff]
  simp
  omega
theorem getLsbD_clearBit {w : Nat} (v : BitVec w) (n i : Nat) (hi : i < w) :
    (v &&& ~~~(1#w <<< n)).getLsbD i = (v.getLsbD i && !decide (i = n)) := by
  rw [BitVec.getLsbD_and, BitVec.getLsbD_not, BitVec.getLsbD_shiftLeft, BitVec.getLsbD_one]
  congr 1
  rw [Bool.eq_iff_iff]
  simp
  omega

theorem Ctx.markS_sFull (x : Ctx) (d : SReg) (f : Bool) (r : SReg) :
    (x.markS d f).sFull r = if r = d ∧ r.toNat ≠ 0 ∧ r.toNat < 60 then f else x.sFull r := by
  have hr := r.isLt
  unfold Ctx.markS Ctx.sFull
  split
  · rename_i h
    simp only [Bool.or_eq_true, decide_eq_true_eq] at h
    rw [if_neg]; rintro ⟨rfl, h1, h2⟩; omega
  · rename_i h
    simp only [Bool.or_eq_true, decide_eq_true_eq, not_or] at h
    have h2 : decide (60 ≤ d.toNat) = false := by simpa using h.2
    have h3 : d.toNat < 60 := by omega
    by_cases e : r = d
    · subst e; cases f <;> simp [getLsbD_setBit _ _ _ hr, getLsbD_clearBit _ _ _ hr, h.1, h2, h3]
    · have e2 : r.toNat ≠ d.toNat := fun q => e (BitVec.eq_of_toNat_eq q)
      cases f <;> simp [getLsbD_setBit _ _ _ hr, getLsbD_clearBit _ _ _ hr, e, e2]

theorem Ctx.markV_vFull (x : Ctx) (d : VReg) (f : Bool) (r : VReg) :
    (x.markV d f).vFull r = if r = d ∧ r.toNat < 30 then f else x.vFull r := by
  have hr := r.isLt
  unfold Ctx.markV Ctx.vFull
  split
  · rw [if_neg]; rintro ⟨rfl, h1⟩; omega
  · rename_i h
    have h2 : decide (30 ≤ d.toNat) = false := by simpa using h
    have h3 : d.toNat < 30 := by omega
    by_cases e : r = d
    · subst e; cases f <;> simp [getLsbD_setBit _ _ _ hr, getLsbD_clearBit _ _ _ hr, h2, h3]
    · have e2 : r.toNat ≠ d.toNat := fun q => e (BitVec.eq_of_toNat_eq q)
      cases f <;> simp [getLsbD_setBit _ _ _ hr, getLsbD_clearBit _ _ _ hr, e, e2]

theorem Ctx.markS_rest (x : Ctx) (d : SReg) (f : Bool) : x.markS d f = { x with sfe := (x.markS d f).sfe } := by
  unfold Ctx.markS; split <;> rfl
theorem Ctx.markV_rest (x : Ctx) (d : VReg) (f : Bool) : x.markV d f = { x with vfe := (x.markV d f).vfe } := by
  unfold Ctx.markV; split <;> rfl
theorem Ctx.markS_s (x : Ctx) (d : SReg) (f : Bool) (r : SReg) : (x.markS d f).s r = x.s r := by
  unfold Ctx.markS; split <;> rfl
theorem Ctx.markV_v (x : Ctx) (d : VReg) (f : Bool) (r : VReg) : (x.markV d f).v r = x.v r := by
  unfold Ctx.markV; split <;> rfl

theorem Ctx.useS_rest (x : Ctx) (d : SReg) : x.useS d = { x with sfe := (x.useS d).sfe } := by
  unfold Ctx.useS; split
  · exact Ctx.markS_rest ..
  · rfl
theorem Ctx.useS_sFull (x : Ctx) (d r : SReg) : (x.useS d).sFull r = (x.sFull r && !emptied [d] r) := by
  unfold Ctx.useS emptied
  by_cases h : 48 ≤ d.toNat ∧ d.toNat < 60
  · rw [if_pos (by simpa using h), Ctx.markS_sFull]
    by_cases e : r = d
    · subst e; rw [if_pos ⟨rfl, by omega, h.2⟩]; simp [h.1, h.2]
    · simp [e]
  · rw [if_neg (by simpa using h)]
    by_cases e : r = d
    · subst e
      have : (decide (48 ≤ r.toNat) && decide (r.toNat < 60)) = false := by
        simp only [Bool.and_eq_false_iff, decide_eq_false_iff_not]; omega
      rw [Bool.and_assoc, this]; simp
    · simp [e]

theorem emptied_cons (d : SReg) (us : List SReg) (r : SReg) : emptied (d :: us) r = (emptied [d] r || emptied us r) := by
  simp only [emptied, List.contains_cons, List.contains_nil, Bool.or_false]
  cases (r == d) <;> cases us.contains r <;> simp

/-- Consuming sources empties the operand registers among them and changes nothing else. -/
theorem used_useAll (x : Ctx) (us : List SReg) : Used x us (x.useAll us) := by
  induction us generalizing x with
  | nil => exact ⟨fun r => by simp [Ctx.useAll, emptied], rfl⟩
  | cons d us ih =>
    have h := ih (x.useS d)
    refine ⟨fun r => ?_, ?_⟩
    · show ((x.useS d).useAll us).sFull r = _
      rw [h.full, Ctx.useS_sFull, emptied_cons d us, Bool.not_or, Bool.and_assoc]
    · show (x.useS d).useAll us = { x with sfe := ((x.useS d).useAll us).sfe }
      rw [h.rest, Ctx.useS_rest x d]
theorem Used.s_eq {x z : Ctx} {us : List SReg} (h : Used x us z) (r : SReg) : z.s r = x.s r := by rw [h.rest]; rfl

theorem Ctx.putS_s (x : Ctx) (d : SReg) (w : BitVec 64) (r : SReg) :
    (x.putS d w).s r = if r = d ∧ r.toNat ≠ 0 ∧ r.toNat < 60 then w else x.s r := by
  unfold Ctx.putS
  by_cases h : (decide (d.toNat = 0) || decide (60 ≤ d.toNat)) = true
  · rw [if_pos h]
    simp only [Bool.or_eq_true, decide_eq_true_eq] at h
    rw [if_neg]; rintro ⟨rfl, h1, h2⟩; omega
  · rw [if_neg h]
    simp only [Bool.or_eq_true, decide_eq_true_eq, not_or] at h
    unfold Ctx.s zeroReg
    by_cases h0 : r = 0#6
    · subst h0; simp
    · have h1 : r.toNat ≠ 0 := fun q => h0 (BitVec.eq_of_toNat_eq q)
      by_cases e : r = d
      · subst e; simp [h0, h1]; omega
      · have e2 : d.toNat ≠ r.toNat := fun q => e (BitVec.eq_of_toNat_eq q.symm)
        simp [h0, e, e2]
theorem Ctx.putS_rest (x : Ctx) (d : SReg) (w : BitVec 64) : x.putS d w = { x with sreg := (x.putS d w).sreg } := by
  unfold Ctx.putS; split <;> rfl

theorem Ctx.pushL_rest (x : Ctx) (w : BitVec 64) : x.pushL w = { x with sreg := (x.pushL w).sreg, snapL := (x.pushL w).snapL } := by
  unfold Ctx.pushL; split <;> rfl
theorem Ctx.pushL_replay (x : Ctx) (w : BitVec 64) (h : x.replaying = true) : x.pushL w = { x with snapL := (w :: x.snapL).take 4 } := by
  unfold Ctx.pushL; exact if_pos h
theorem Ctx.pushL_sFull (x : Ctx) (w : BitVec 64) (r : SReg) : (x.pushL w).sFull r = x.sFull r := by rw [Ctx.pushL_rest]; rfl
theorem Ctx.pushL_push (x : Ctx) (w : BitVec 64) (h : x.replaying = false) :
    (x.pushL w).s 60#6 = w ∧ (x.pushL w).s 61#6 = x.s 60#6 ∧ (x.pushL w).s 62#6 = x.s 61#6 ∧ (x.pushL w).s 63#6 = x.s 62#6 ∧
      (x.pushL w).snapL = x.snapL := by
  have h2 : (x.injecting.isSome && x.injectBy == .rply) = false := h
  unfold Ctx.pushL
  rw [h2]
  refine ⟨?_, ?_, ?_, ?_, rfl⟩ <;> simp [Ctx.s, zeroReg]
theorem Ctx.pushL_s_below (x : Ctx) (w : BitVec 64) {r : SReg} (hr : r.toNat < 60) : (x.pushL w).s r = x.s r := by
  unfold Ctx.pushL
  split
  · rfl
  · unfold Ctx.s zeroReg
    by_cases h0 : r = 0#6
    · simp [h0]
    · simp only [h0, if_false, Vector.getElem_set]
      rw [if_neg (by omega), if_neg (by omega), if_neg (by omega), if_neg (by omega)]

/-- Writing a result and consuming sources, register by register. -/
theorem wroteS_result (x : Ctx) (us : List SReg) (d : SReg) (w : BitVec 64) : WroteS x us d w ((x.useAll us).result d w) := by
  have hu := used_useAll x us
  generalize hz : x.useAll us = z at hu
  have hs : ∀ r, z.s r = x.s r := Used.s_eq hu
  have hrep : z.replaying = x.replaying := by rw [hu.rest]; rfl
  have hL : z.snapL = x.snapL := by rw [hu.rest]
  unfold Ctx.result
  generalize hy : (z.putS d w).markS d true = y
  have hys : ∀ r, y.s r = if r = d ∧ r.toNat ≠ 0 ∧ r.toNat < 60 then w else x.s r := by
    intro r; rw [← hy, Ctx.markS_s, Ctx.putS_s, hs]
  have hyf : ∀ r, y.sFull r = ((x.sFull r && !emptied us r) || r == d) := by
    intro r
    have : (z.putS d w).sFull r = z.sFull r := by rw [Ctx.putS_rest]; rfl
    rw [← hy, Ctx.markS_sFull, this, hu.full]
    by_cases e : r = d
    · subst e
      by_cases h1 : r.toNat ≠ 0 ∧ r.toNat < 60
      · simp [h1]
      · have : r.toNat = 0 ∨ 60 ≤ r.toNat := by omega
        have h2 : emptied us r = false := by simp [emptied]; intros; omega
        have h3 : x.sFull r = true := by rcases this with h | h <;> simp [Ctx.sFull, h]
        simp [h2, h3]
    · simp [e]
  have hyr : y = { x with sreg := y.sreg, sfe := y.sfe } := by
    rw [← hy, Ctx.markS_rest, Ctx.putS_rest, hu.rest]
  have hyrep : y.replaying = x.replaying := by rw [hyr]; rfl
  refine ⟨fun r hr => ?_, fun r => ?_, fun h => ?_, fun h => ⟨?_, fun r hr => ?_⟩, ?_⟩
  · rw [Ctx.pushL_s_below _ _ hr, hys]
    by_cases e : r = d
    · subst e
      have : r.toNat ≠ 0 ↔ r ≠ 0#6 := by simp [← BitVec.toNat_inj]
      simp [this, hr]
    · simp [e]
  · rw [Ctx.pushL_sFull, hyf]
  · rw [← hyrep] at h
    obtain ⟨h1, h2, h3, h4, h5⟩ := Ctx.pushL_push y w h
    rw [h1, h2, h3, h4, h5, hys, hys, hys]
    have : y.snapL = x.snapL := by rw [hyr]
    exact ⟨rfl, by simp, by simp, by simp, this⟩
  · rw [← hyrep] at h
    rw [Ctx.pushL_replay y w h]; rw [hyr]
  · rw [← hyrep] at h
    rw [Ctx.pushL_replay y w h]
    show y.s r = _
    rw [hys, if_neg]; rintro ⟨_, _, h2⟩; omega
  · rw [Ctx.pushL_rest, hyr]

/-! ### Vector registers -/

theorem Ctx.useV_rest (x : Ctx) (d : VReg) : x.useV d = { x with vfe := (x.useV d).vfe } := by
  unfold Ctx.useV; split
  · exact Ctx.markV_rest ..
  · rfl
theorem Ctx.useV_vFull (x : Ctx) (d r : VReg) : (x.useV d).vFull r = (x.vFull r && !emptiedV [d] r) := by
  unfold Ctx.useV emptiedV
  by_cases h : 24 ≤ d.toNat ∧ d.toNat < 30
  · rw [if_pos (by simpa using h), Ctx.markV_vFull]
    by_cases e : r = d
    · subst e; rw [if_pos ⟨rfl, h.2⟩]; simp [h.1, h.2]
    · simp [e]
  · rw [if_neg (by simpa using h)]
    by_cases e : r = d
    · subst e
      have : (decide (24 ≤ r.toNat) && decide (r.toNat < 30)) = false := by
        simp only [Bool.and_eq_false_iff, decide_eq_false_iff_not]; omega
      rw [Bool.and_assoc, this]; simp
    · simp [e]
theorem emptiedV_cons (d : VReg) (us : List VReg) (r : VReg) : emptiedV (d :: us) r = (emptiedV [d] r || emptiedV us r) := by
  simp only [emptiedV, List.contains_cons, List.contains_nil, Bool.or_false]
  cases (r == d) <;> cases us.contains r <;> simp
theorem Ctx.useVAll_vFull (x : Ctx) (us : List VReg) (r : VReg) : (x.useVAll us).vFull r = (x.vFull r && !emptiedV us r) := by
  induction us generalizing x with
  | nil => simp [Ctx.useVAll, emptiedV]
  | cons d us ih =>
    show ((x.useV d).useVAll us).vFull r = _
    rw [ih, Ctx.useV_vFull, emptiedV_cons d us, Bool.not_or, Bool.and_assoc]
theorem Ctx.useVAll_rest (x : Ctx) (us : List VReg) : x.useVAll us = { x with vfe := (x.useVAll us).vfe } := by
  induction us generalizing x with
  | nil => rfl
  | cons d us ih =>
    show (x.useV d).useVAll us = { x with vfe := ((x.useV d).useVAll us).vfe }
    rw [ih, Ctx.useV_rest x d]

theorem Ctx.putV_v (x : Ctx) (d : VReg) (w : List Lane) (r : VReg) :
    (x.putV d w).v r = if r = d ∧ r.toNat < 30 then w else x.v r := by
  unfold Ctx.putV
  by_cases h : 30 ≤ d.toNat
  · rw [if_pos h, if_neg]; rintro ⟨rfl, h1⟩; omega
  · rw [if_neg h]
    unfold Ctx.v
    by_cases e : r = d
    · subst e; simp; omega
    · have e2 : d.toNat ≠ r.toNat := fun q => e (BitVec.eq_of_toNat_eq q.symm)
      simp [e, e2]
theorem Ctx.putV_rest (x : Ctx) (d : VReg) (w : List Lane) : x.putV d w = { x with vreg := (x.putV d w).vreg } := by
  unfold Ctx.putV; split <;> rfl

theorem Ctx.pushV_rest (x : Ctx) (w : List Lane) : x.pushV w = { x with vreg := (x.pushV w).vreg, snapV := (x.pushV w).snapV } := by
  unfold Ctx.pushV; split <;> rfl
theorem Ctx.pushV_replay (x : Ctx) (w : List Lane) (h : x.replaying = true) : x.pushV w = { x with snapV := (w :: x.snapV).take 2 } := by
  unfold Ctx.pushV; exact if_pos h
theorem Ctx.pushV_vFull (x : Ctx) (w : List Lane) (r : VReg) : (x.pushV w).vFull r = x.vFull r := by rw [Ctx.pushV_rest]; rfl
theorem Ctx.pushV_push (x : Ctx) (w : List Lane) (h : x.replaying = false) :
    (x.pushV w).v 30#5 = w ∧ (x.pushV w).v 31#5 = x.v 30#5 ∧ (x.pushV w).snapV = x.snapV := by
  have h2 : (x.injecting.isSome && x.injectBy == .rply) = false := h
  unfold Ctx.pushV
  rw [h2]
  refine ⟨?_, ?_, rfl⟩ <;> simp [Ctx.v]
theorem Ctx.pushV_v_below (x : Ctx) (w : List Lane) {r : VReg} (hr : r.toNat < 30) : (x.pushV w).v r = x.v r := by
  unfold Ctx.pushV
  split
  · rfl
  · unfold Ctx.v
    simp only [Vector.getElem_set]
    rw [if_neg (by omega), if_neg (by omega)]

/-- Writing a vector result and consuming sources, register by register. -/
theorem wroteV_result (x : Ctx) (us : List VReg) (d : VReg) (w : List Lane) : WroteV x us d w ((x.useVAll us).resultV d w) := by
  have hz := Ctx.useVAll_rest x us
  have hzf := Ctx.useVAll_vFull x us
  generalize x.useVAll us = z at hz hzf
  have hs : ∀ r, z.v r = x.v r := fun r => by rw [hz]; rfl
  unfold Ctx.resultV
  generalize hy : (z.putV d w).markV d true = y
  have hys : ∀ r, y.v r = if r = d ∧ r.toNat < 30 then w else x.v r := by
    intro r; rw [← hy, Ctx.markV_v, Ctx.putV_v, hs]
  have hyf : ∀ r, y.vFull r = ((x.vFull r && !emptiedV us r) || r == d) := by
    intro r
    have : (z.putV d w).vFull r = z.vFull r := by rw [Ctx.putV_rest]; rfl
    rw [← hy, Ctx.markV_vFull, this, hzf]
    by_cases e : r = d
    · subst e
      by_cases h1 : r.toNat < 30
      · simp [h1]
      · have h2 : emptiedV us r = false := by simp [emptiedV]; intros; omega
        have h3 : x.vFull r = true := by simp [Ctx.vFull]; left; omega
        simp [h2, h3]
    · simp [e]
  have hyr : y = { x with vreg := y.vreg, vfe := y.vfe } := by
    rw [← hy, Ctx.markV_rest, Ctx.putV_rest, hz]
  have hyrep : y.replaying = x.replaying := by rw [hyr]; rfl
  refine ⟨fun r hr => ?_, fun r => ?_, fun h => ?_, fun h => ⟨?_, fun r hr => ?_⟩, ?_⟩
  · rw [Ctx.pushV_v_below _ _ hr, hys]
    by_cases e : r = d
    · subst e; simp [hr]
    · simp [e]
  · rw [Ctx.pushV_vFull, hyf]
  · rw [← hyrep] at h
    obtain ⟨h1, h2, h3⟩ := Ctx.pushV_push y w h
    rw [h1, h2, h3, hys]
    have : y.snapV = x.snapV := by rw [hyr]
    exact ⟨rfl, by simp, this⟩
  · rw [← hyrep] at h
    rw [Ctx.pushV_replay y w h]; rw [hyr]
  · rw [← hyrep] at h
    rw [Ctx.pushV_replay y w h]
    show y.v r = _
    rw [hys, if_neg]; rintro ⟨_, h2⟩; omega
  · rw [Ctx.pushV_rest, hyr]

/-! ### Completion and issue -/

theorem State.retire_completed (s : State) (z : Ctx) (g : Option PC) : Completed s z g (s.retire z g) := by
  unfold Completed State.retire State.count
  split <;> rfl
theorem State.doneS_scalarDone (s : State) (x : Ctx) (us : List SReg) (d : SReg) (w : BitVec 64) :
    ScalarDone s x us d w (s.doneS x us d w) := ⟨_, wroteS_result x us d w, State.retire_completed ..⟩
theorem State.doneV_vectorDone (s : State) (x : Ctx) (us : List VReg) (d : VReg) (ls : List Lane) :
    VectorDone s x us d ls (s.doneV x us d ls) := ⟨_, wroteV_result x us d ls, State.retire_completed ..⟩

/-! An instruction's answer goes on after what succeeds and stops at what does not. -/

@[simp] theorem Issue.ok_bind {α β : Type} (a : α) (f : α → Issue β) : ((Except.ok a : Issue α) >>= f) = f a := rfl
@[simp] theorem Issue.error_bind {α β : Type} (e : Stop) (f : α → Issue β) : ((Except.error e : Issue α) >>= f) = .error e := rfl
@[simp] theorem Issue.pure_bind {α β : Type} (a : α) (f : α → Issue β) : ((pure a : Issue α) >>= f) = f a := rfl
@[simp] theorem Issue.pure_eq {α : Type} (a : α) : (pure a : Issue α) = .ok a := rfl
@[simp] theorem Issue.map_ok {α β : Type} (a : α) (f : α → β) : (f <$> (Except.ok a : Issue α)) = .ok (f a) := rfl
@[simp] theorem Issue.map_error {α β : Type} (e : Stop) (f : α → β) : (f <$> (Except.error e : Issue α)) = .error e := rfl

/-- What an instruction that nothing holds back answers. -/
theorem issue_presented {s : State} {x : Ctx} {i : Instr} {d : Dest} (h : Presented s x i d) (body : Ctx → Issue State) :
    issue i d s body = match body x with
      | .ok t => .next t
      | .error (.trap t) => .next (s.raise x i t)
      | .error .block => .next (s.block x)
      | .error (.walk w) => .next (s.startWalk x w) := by
  obtain ⟨h1, h2, h3, h4⟩ := h
  unfold issue
  simp only [h1]
  rw [if_neg (by simp [Config.unfinished]; omega)]
  simp only [h3, h4]
  rfl
/-- An instruction that takes effect. -/
theorem issue_ok {s : State} {x : Ctx} {i : Instr} {d : Dest} (h : Presented s x i d) {body : Ctx → Issue State} {t : State}
    (hb : body x = .ok t) : issue i d s body = .next t := by rw [issue_presented h, hb]
/-- An instruction that raises a trap. -/
theorem issue_trap {s : State} {x : Ctx} {i : Instr} {d : Dest} (h : Presented s x i d) {body : Ctx → Issue State} {t : Trap}
    (hb : body x = .error (.trap t)) : issue i d s body = .next (s.raise x i t) := by rw [issue_presented h, hb]
/-- An instruction that waits at issue. -/
theorem issue_block {s : State} {x : Ctx} {i : Instr} {d : Dest} (h : Presented s x i d) {body : Ctx → Issue State}
    (hb : body x = .error .block) : issue i d s body = .next (s.block x) := by rw [issue_presented h, hb]

end Sys2Proof.Machine
end

