-- ==== Sys2Proof/Laws/Requests.lean ====
section
/-! SUPPORT. What the shared operations over requests, stream commands and storage do: what an instruction sends, how a posted write
completes, what a command does at its port and to its token. -/

namespace Sys2Proof.Machine

/-! ### Sending -/

/-- Events sent in order join what is on its way, and nothing else of the machine but its clock changes. -/
theorem State.postAll_frame (s : State) (cls : Nat) (evs : List Event) :
    (s.postAll cls evs).mem = s.mem ∧ (s.postAll cls evs).cells = s.cells ∧ (s.postAll cls evs).ctxs = s.ctxs ∧
      (s.postAll cls evs).leases = s.leases ∧ (s.postAll cls evs).edges = s.edges ∧ (s.postAll cls evs).sent = s.sent ++ evs := by
  induction evs generalizing s with
  | nil => simp [State.postAll]
  | cons e evs ih =>
    have h := ih (s.post cls e)
    simp only [State.postAll, List.foldl_cons] at h ⊢
    refine ⟨h.1, h.2.1, h.2.2.1, h.2.2.2.1, h.2.2.2.2.1, ?_⟩
    rw [h.2.2.2.2.2]
    simp [State.sent, State.post, State.postIn, State.bump]

/-- Permits are taken at their cell alone, and its scratchpad keeps its bytes. -/
theorem State.takePermits_frame (s : State) (k : CellId) (ks : List Nat) :
    (s.takePermits k ks).ctxs = s.ctxs ∧ (s.takePermits k ks).mem = s.mem ∧ (s.takePermits k ks).net = s.net ∧ (s.takePermits k ks).leases = s.leases ∧
      (∀ c, ((s.takePermits k ks).cell? c).map Cell.pad = (s.cell? c).map Cell.pad) := by
  unfold State.takePermits State.modCell
  split
  · rename_i x h
    refine ⟨rfl, rfl, rfl, rfl, fun c => ?_⟩
    rw [State.cell?_setCell]
    split
    · rename_i e; subst e; simp [h]
    · rfl
  · exact ⟨rfl, rfl, rfl, rfl, fun _ => rfl⟩

/-- Requests that may depart do. -/
theorem State.sendLong_departed {s : State} {x : Ctx} {i : Instr} {d : Dest} {k : Kind} {outs : List Out} (hr : x.unfinished < 16)
    (hm : MayDepart s x k outs) : ∃ t, s.sendLong x i d k outs = .ok t ∧ Departed s x i d k outs t := by
  obtain ⟨h1, h0, h2, h3, h4⟩ := hm
  unfold State.sendLong
  have e1 : decide (Config.unfinished ≤ x.unfinished) = false := by simp [Config.unfinished]; omega
  have e2 : (k.atomic && decide (Config.atomics ≤ x.atomics)) = false := by
    cases h : k.atomic
    · rfl
    · have := h2 h; simp [Config.atomics]; omega
  have e3 : (k.remote && decide (Config.remoteReads ≤ x.remoteReads)) = false := by
    cases h : k.remote
    · rfl
    · have := h3 h; simp [Config.remoteReads]; omega
  simp only [e1, h1, h0, e2, e3, h4]
  let e := x.entryFor i (encodeWord i) x.at 1
  refine ⟨_, rfl, ⟨?_, ?_, ?_⟩, ⟨s.clock.nextId, i, x.at, d, e.va, e.vb, e.a, e.b, outs.length, 0, [], outs.map Out.slice, k.hold,
    k.atomic, k.remote, if k.atomic then some x.seq else none⟩, rfl, rfl, rfl, rfl, rfl, rfl, rfl, rfl, rfl, ?_, ?_⟩
  · simp [(State.postAll_frame ..).1, (State.takePermits_frame ..).2.1]
  · intro c
    simp only [State.cell?, (State.postAll_frame ..).2.1]
    exact (State.takePermits_frame ..).2.2.2.2 c
  · intro c hc
    simp only [State.ctx?, (State.postAll_frame ..).2.2.1, (State.takePermits_frame ..).1]
    exact Tab.get?_put_ne _ _ (Ne.symm hc)
  · rw [(State.postAll_frame ..).2.2.2.2.2]
    congr 1
    simp [State.sent, (State.takePermits_frame ..).2.2.1]
  · simp only [State.ctx?, (State.postAll_frame ..).2.2.1, (State.takePermits_frame ..).1]
    exact Tab.get?_put_self ..

/-! ### Posted writes (R307) -/

theorem length_le_of_nodup_subset {α : Type} [DecidableEq α] : ∀ {l m : List α}, l.Nodup → l ⊆ m → l.length ≤ m.length
  | [], _, _, _ => Nat.zero_le _
  | a :: l, m, hn, hs => by
    have hm : a ∈ m := hs (List.mem_cons_self ..)
    have hl : l ⊆ m.erase a := fun b hb => (List.mem_erase_of_ne (by rintro rfl; exact (List.nodup_cons.1 hn).1 hb)).2 (hs (List.mem_cons_of_mem _ hb))
    have := length_le_of_nodup_subset (List.nodup_cons.1 hn).2 hl
    rw [List.length_erase_of_mem hm] at this
    have := List.length_pos_of_mem hm
    simp only [List.length_cons]
    omega
/-- A tag that fewer than 64 outstanding writes leave free. -/
theorem lowestTag_free {ts : List WriteTag} (h : ts.length < 64) : lowestTag ts < 64 ∧ ∀ v ∈ ts, v.tag ≠ lowestTag ts := by
  have hex : ∃ n ∈ List.range 64, (!ts.any fun t => t.tag == n) = true := by
    refine Classical.byContradiction fun hc => ?_
    have hsub : List.range 64 ⊆ ts.map WriteTag.tag := by
      intro n hn
      refine Classical.byContradiction fun hm => ?_
      refine hc ⟨n, hn, ?_⟩
      simp only [List.mem_map, not_exists, not_and] at hm
      simpa using hm
    have := length_le_of_nodup_subset List.nodup_range hsub
    simp at this
    omega
  obtain ⟨n, hn, hp⟩ := hex
  unfold lowestTag
  cases hf : (List.range 64).find? fun n => !ts.any fun t => t.tag == n with
  | none => exact absurd hp (by simpa using List.find?_eq_none.1 hf n hn)
  | some m =>
    have hm := List.find?_some hf
    have hr := List.mem_of_find?_eq_some hf
    refine ⟨List.mem_range.1 hr, fun v hv => ?_⟩
    simp only [Option.getD_some]
    simp only [Bool.not_eq_true', List.any_eq_false, beq_iff_eq] at hm
    exact hm v hv

/-- A posted write whose requests may leave completes. -/
theorem State.sendPosted_posted {s : State} {x : Ctx} {uses : List SReg} {vuses : List VReg} {own stx : Bool} {seq : Option (BitVec 16)}
    {outs : List Out} (hm : MayPost s x seq outs) :
    ∃ t, s.sendPosted x uses vuses own stx seq outs = .ok t ∧ Posted s x uses vuses seq outs t := by
  obtain ⟨h1, h2, h3⟩ := hm
  unfold State.sendPosted
  have e1 : decide (Config.writeTags ≤ x.tags.length) = false := by simp [Config.writeTags]; omega
  have e2 : (seq.isSome && decide (Config.atomics ≤ x.atomics)) = false := by
    cases h : seq.isSome
    · rfl
    · have := h2 h; simp [Config.atomics]; omega
  simp only [e1, e2, h3]
  refine ⟨_, rfl, ⟨?_, ?_, ?_⟩, ⟨lowestTag x.tags, outs.length, outs.map Out.place, outs.length, own, stx, outs.map Out.slice, seq⟩,
    (lowestTag_free h1).2, (lowestTag_free h1).1, rfl, rfl, rfl, ?_, ?_⟩
  · rw [(State.postAll_frame ..).1, (State.takePermits_frame ..).2.1, State.retire_completed]
  · intro c
    simp only [State.cell?, (State.postAll_frame ..).2.1]
    refine ((State.takePermits_frame ..).2.2.2.2 c).trans ?_
    rw [State.retire_completed]
    rfl
  · intro c hc
    simp only [State.ctx?, (State.postAll_frame ..).2.2.1, (State.takePermits_frame ..).1]
    rw [State.retire_completed]
    exact Tab.get?_put_ne _ _ (Ne.symm hc)
  · rw [(State.postAll_frame ..).2.2.2.2.2]
    congr 1
    rw [State.sent, (State.takePermits_frame ..).2.2.1, State.retire_completed]
    rfl
  · simp only [State.ctx?, (State.postAll_frame ..).2.2.1, (State.takePermits_frame ..).1]
    rw [State.retire_completed]
    refine (Tab.get?_put_self ..).trans ?_
    simp

/-! ### Stream commands -/

/-- A command that passes checks 2 to 4 of its port does what its rule says (R115). -/
theorem atPort_ok {s : State} {src : CtxId} {w : CWord} {x : Ctx} {cls : Nat} {flags : BitVec 6} {body : Ctx → State} (h1 : s.ctx? src = some x)
    (h2 : cmdClass w = cls) (h3 : s.bound src.slot cls (cmdIndex w) = true) (h4 : cmdRsv w = false) (h5 : cmdFlags w &&& ~~~flags = 0#6) :
    atPort src w cls flags s body = .next (body x) := by
  simp [atPort, h1, h2, h3, h4, h5]
/-- A command that fails one of them ends with BADCMD. -/
theorem atPort_bad {s : State} {src : CtxId} {w : CWord} {x : Ctx} {cls : Nat} {flags : BitVec 6} {body : Ctx → State} (h1 : s.ctx? src = some x)
    (h : cmdClass w ≠ cls ∨ s.bound src.slot cls (cmdIndex w) = false ∨ cmdRsv w = true ∨ cmdFlags w &&& ~~~flags ≠ 0#6) :
    atPort src w cls flags s body = .next (s.badCmd src x w) := by
  simp only [atPort, h1]
  rw [if_pos h]
/-- A command in the queue of an engine that works for its rectangle. -/
theorem withCmd_ok {s : State} {p : Port} {c : Cmd} {f : Cmd → State} (h : s.portWorks p = true) (g : s.cmd? p c.id = some c) :
    withCmd s p c.id f = .next (f c) := by
  simp [withCmd, h, g]

/-- Counting events changes the counters of one lease, their wraps and their interrupt alone. -/
theorem State.count_frame (s : State) (lease code handle n : Nat) :
    s.count lease code handle n = { s with leases := (s.count lease code handle n).leases } ∧
      ∀ k, ∃ cs ovf vs, (s.count lease code handle n).lease k = { s.lease k with counters := cs, cntOvf := ovf, vectors := vs } := by
  unfold State.count
  split
  · exact ⟨rfl, fun k => ⟨(s.lease k).counters, (s.lease k).cntOvf, (s.lease k).vectors, rfl⟩⟩
  · refine ⟨rfl, fun k => ?_⟩
    simp only [State.modLease, State.lease_setLease]
    split
    · subst_vars
      exact ⟨((s.lease k).count code handle n).counters, ((s.lease k).count code handle n).cntOvf,
        ((s.lease k).count code handle n).vectors, rfl⟩
    · exact ⟨(s.lease k).counters, (s.lease k).cntOvf, (s.lease k).vectors, rfl⟩

theorem Ctx.wake_rest (x : Ctx) : x.wake = { x with hold := x.wake.hold } := by
  unfold Ctx.wake; split <;> rfl

/-- A token register that is filled is full and holds the value; no other register of the context changes, and nothing outside contexts,
counters and die copies does (R67, R114, R224). -/
theorem State.fillToken_frame (s : State) (src : CtxId) (handle : Nat) (reg : SReg) (v : BitVec 64) :
    (s.fillToken src handle reg v).mem = s.mem ∧ (s.fillToken src handle reg v).cells = s.cells ∧ (s.fillToken src handle reg v).net = s.net ∧
      (s.fillToken src handle reg v).rects = s.rects ∧ (s.fillToken src handle reg v).clock = s.clock := by
  unfold State.fillToken
  split
  · exact ⟨rfl, rfl, rfl, rfl, rfl⟩
  · split
    · exact ⟨rfl, rfl, rfl, rfl, rfl⟩
    · rw [(State.count_frame ..).1]
      exact ⟨rfl, rfl, rfl, rfl, rfl⟩
theorem State.fillToken_zero (s : State) (src : CtxId) (handle : Nat) (v : BitVec 64) : s.fillToken src handle 0#6 v = s := by
  unfold State.fillToken
  split
  · rfl
  · rw [if_pos (show _ ∨ (0#6 : SReg) = zeroReg from Or.inr rfl)]
theorem State.fillToken_ctx {s : State} {src : CtxId} {x : Ctx} {reg : SReg} (v : BitVec 64) (h : s.ctx? src = some x) (h0 : 0 < reg.toNat)
    (h1 : reg.toNat < 60) : ∃ z, (s.fillToken src x.handle reg v).ctx? src = some z ∧ z.s reg = v ∧ z.sFull reg = true ∧
      (∀ r, r ≠ reg → z.s r = x.s r ∧ z.sFull r = x.sFull r) ∧ z.tokens = x.tokens.filter fun r => r != reg := by
  have hz : reg ≠ 0#6 := by rintro rfl; exact absurd h0 (by decide)
  refine ⟨(x.takeToken reg v).wake, ?_, ?_, ?_, ?_, ?_⟩
  · unfold State.fillToken
    simp only [h, zeroReg, hz, ne_eq, not_true_eq_false, or_self, if_false]
    rw [State.ctx?, (State.count_frame ..).1]
    exact Tab.get?_put_self ..
  · rw [Ctx.wake_rest]
    show ((x.putS reg v).markS reg true).s reg = v
    rw [Ctx.markS_s, Ctx.putS_s]
    simp [h1]
    omega
  · rw [Ctx.wake_rest]
    show ((x.putS reg v).markS reg true).sFull reg = true
    rw [Ctx.markS_sFull, if_pos ⟨rfl, by omega, h1⟩]
  · intro r hr
    rw [Ctx.wake_rest]
    constructor
    · show ((x.putS reg v).markS reg true).s r = x.s r
      rw [Ctx.markS_s, Ctx.putS_s, if_neg (by rintro ⟨h, _⟩; exact hr h)]
    · show ((x.putS reg v).markS reg true).sFull r = x.sFull r
      rw [Ctx.markS_sFull, if_neg (by rintro ⟨h, _⟩; exact hr h), Ctx.putS_rest]
      rfl
  · rw [Ctx.wake_rest]; rfl

/-! ### Memory that is cleared -/

theorem Mem.read_clear (m : Mem) (p : Nat → Bool) (k : Nat) : (m.clear p).read k = if p k then 0#8 else m.read k := by
  unfold Mem.clear
  induction m with
  | nil => simp [Mem.read]
  | cons q m ih =>
    obtain ⟨a, b⟩ := q
    by_cases h : p a
    · simp only [List.filter_cons, h, Bool.not_true, Mem.read]
      by_cases e : a = k
      · subst e; simp_all
      · simp_all
    · simp only [List.filter_cons, h, Bool.not_false, if_true, Mem.read]
      by_cases e : a = k
      · subst e; simp_all
      · simp_all

/-- Clearing keeps the canonical form. -/
theorem Mem.wf_clear {m : Mem} (p : Nat → Bool) (h : Mem.wf m = true) : Mem.wf (m.clear p) = true := by
  have key : ∀ (m : Mem) (lo : Nat), Mem.wfFrom lo m = true → Mem.wfFrom lo (m.clear p) = true := by
    intro m
    induction m with
    | nil => intro lo h; rfl
    | cons q m ih =>
      intro lo h
      obtain ⟨a, b⟩ := q
      simp only [Mem.wfFrom, Bool.and_eq_true, decide_eq_true_eq] at h
      by_cases e : p a
      · simp only [Mem.clear, List.filter_cons, e, Bool.not_true]
        exact Mem.wfFrom_mono (by omega) (ih _ h.2)
      · simp only [Mem.clear, List.filter_cons, e, Bool.not_false, if_true, Mem.wfFrom, Bool.and_eq_true, decide_eq_true_eq]
        exact ⟨h.1, ih _ h.2⟩
  exact key m 0 h

end Sys2Proof.Machine
end

