-- ==== Sys2Proof/Laws/Canonical.lean ====
section
/-! SUPPORT. The canonical form of storage and of the scratchpads: every operation that writes bytes keeps it. -/

namespace Sys2Proof.Machine

/-! ### What does not write -/

theorem State.canonical_of {s t : State} (h : s.canonical) (hm : t.mem = s.mem) (hc : t.cells = s.cells) : t.canonical := by
  unfold State.canonical at h ⊢
  rw [hm, hc]; exact h
theorem canonical_foldl {α : Type} {f : State → α → State} (hf : ∀ s a, s.canonical → (f s a).canonical) (l : List α) {s : State} (h : s.canonical) :
    (l.foldl f s).canonical := by
  induction l generalizing s with
  | nil => exact h
  | cons a l ih => exact ih (hf s a h)

/-! ### Scratchpads -/

theorem Cell.mark_pad (k : Cell) (w : Nat) (f : Bool) : (k.mark w f).pad = k.pad := by unfold Cell.mark; split <;> rfl
theorem Cell.markAll_pad (k : Cell) (w n : Nat) : (k.markAll w n).pad = k.pad := by
  induction n with
  | zero => rfl
  | succ n ih => rw [Cell.markAll, Cell.mark_pad, ih]
theorem Cell.wf_put {k : Cell} (off : Nat) (bs : List Byte) (back : Bool) (h : Mem.wf k.pad = true) : Mem.wf (k.put off bs back).pad = true := by
  unfold Cell.put
  rw [Cell.markAll_pad]
  exact Mem.wf_writeAt _ _ h
theorem State.canonical_cell {s : State} {c : CellId} {k : Cell} (h : s.canonical) (hk : s.cell? c = some k) : Mem.wf k.pad = true :=
  h.2 _ (Tab.mem_of_get? hk)
theorem State.canonical_setCell {s : State} {c : CellId} {k : Cell} (h : s.canonical) (hk : Mem.wf k.pad = true) : (s.setCell c k).canonical :=
  ⟨h.1, fun p hp => (Tab.mem_put hp).elim (fun e => e ▸ hk) (h.2 p)⟩
theorem State.canonical_modCell {s : State} (c : CellId) {f : Cell → Cell} (h : s.canonical) (hf : ∀ k, (f k).pad = k.pad) : (s.modCell c f).canonical := by
  unfold State.modCell
  split
  · exact State.canonical_setCell h (by rw [hf]; exact State.canonical_cell h ‹_›)
  · exact h
/-- An answer writes no byte. -/
theorem State.answer_frame (s : State) (k : Nat) (d : ReplyTo) (v : Payload) :
    (s.answer k d v).mem = s.mem ∧ (s.answer k d v).cells = s.cells := by
  unfold State.answer
  split <;> exact ⟨rfl, rfl⟩
theorem Cell.wf_presence {k m : Cell} {r : PresReq} {v : Payload} (h : Mem.wf k.pad = true) (hp : k.presence r = some (m, v)) : Mem.wf m.pad = true := by
  unfold Cell.presence at hp
  simp only at hp
  split at hp <;> split at hp <;> simp only [Option.some.injEq, Prod.mk.injEq, reduceCtorEq] at hp <;> obtain ⟨rfl, rfl⟩ := hp
  · rwa [Cell.mark_pad]
  · exact h
  · exact Cell.wf_put _ _ _ h
theorem State.canonical_wakeParked {s : State} (c : CellId) (w n : Nat) (h : s.canonical) : (s.wakeParked c w n).canonical := by
  induction n generalizing s with
  | zero => exact h
  | succ n ih =>
    unfold State.wakeParked
    split
    · exact h
    · rename_i k hk
      split
      · exact h
      · split
        · exact h
        · rename_i hp
          refine ih (State.canonical_of (State.canonical_setCell h ?_) (State.answer_frame ..).1 (State.answer_frame ..).2)
          show Mem.wf _ = true
          exact (Cell.wf_presence (State.canonical_cell h hk) hp :)
theorem State.canonical_padPut {s : State} (c : CellId) (off : Nat) (bs : List Byte) (back : Bool) (h : s.canonical) :
    (s.padPut c off bs back).canonical := by
  unfold State.padPut
  split
  · exact h
  · rename_i k hk
    refine canonical_foldl (fun t w ht => ?_) _ (State.canonical_setCell h (Cell.wf_put _ _ _ (State.canonical_cell h hk)))
    split
    · exact ht
    · exact State.canonical_wakeParked _ _ _ ht
/-- A cell as a load writes it. -/
theorem Image.wf_cellAt (im : Image) (ps : List Put) (col row : Nat) : Mem.wf (im.cellAt ps col row).pad = true := by
  have key : ∀ (rs : List DataRec) (m : Mem), Mem.wf m = true → Mem.wf (rs.foldl (fun m r => m.writeAt (fun i => r.off + i) 0 r.body) m) = true := by
    intro rs
    induction rs with
    | nil => intro m h; exact h
    | cons r rs ih => intro m h; exact ih _ (Mem.wf_writeAt _ _ h)
  exact key _ _ rfl

/-! ### Storage -/

theorem State.canonical_store {s : State} (l : Loc) (bs : List Byte) (h : s.canonical) : (s.store l bs).canonical := ⟨State.wf_store l bs h.1, h.2⟩
/-- Waiting requests that are tested again write no byte. -/
theorem State.canonical_retest {s : State} (l : Loc) (n : Nat) (h : s.canonical) : (s.retest l n).canonical := by
  refine canonical_foldl (fun t w ht => ?_) _ h
  split
  · split
    · refine State.canonical_of ht ?_ ?_ <;> unfold State.waitaDone <;> split <;> first | exact (State.answer_frame ..).1 | exact (State.answer_frame ..).2
    · exact ht
  · split
    · exact State.canonical_of ht rfl rfl
    · exact ht
  · exact ht
theorem State.canonical_homeWrite {s : State} (die : Option Nat) (l : Loc) (bs : List Byte) (h : s.canonical) : (s.homeWrite die l bs).canonical := by
  unfold State.homeWrite
  refine State.canonical_retest _ _ ?_
  split
  · exact State.canonical_of (State.canonical_store l bs h) rfl rfl
  · exact State.canonical_store l bs h
/-- The lines of the shared cache change no byte. -/
theorem State.evict_frame (s : State) (a : Agent) (c : CacheLine) : (s.evict a c).mem = s.mem ∧ (s.evict a c).cells = s.cells := by
  unfold State.evict
  split
  · rw [(State.count_frame ..).1, (State.count_frame ..).1]; exact ⟨rfl, rfl⟩
  · exact ⟨rfl, rfl⟩
theorem State.makeRoom_frame {s t : State} {a : Agent} {r : FillRoom} (h : s.makeRoom a r = some t) : t.mem = s.mem ∧ t.cells = s.cells := by
  cases r <;> simp only [State.makeRoom, Option.some.injEq, reduceCtorEq] at h <;> subst h
  · exact ⟨rfl, rfl⟩
  · exact ⟨rfl, rfl⟩
  · exact State.evict_frame ..
theorem State.touch_frame (s : State) (a : Agent) (l : Loc) (w : Bool) : (s.touch a l w).mem = s.mem ∧ (s.touch a l w).cells = s.cells := by
  unfold State.touch
  split
  · exact ⟨rfl, rfl⟩
  · exact ⟨rfl, rfl⟩
  · rw [(State.count_frame ..).1]; exact ⟨rfl, rfl⟩
  · dsimp only
    split
    · rw [(State.count_frame ..).1]; exact ⟨rfl, rfl⟩
    · rw [(State.count_frame ..).1, (State.count_frame ..).1]
      cases h : s.makeRoom a (s.fillRoom _ (s.setOf _)) with
      | none => exact ⟨rfl, rfl⟩
      | some t => exact ⟨(State.makeRoom_frame h).1, (State.makeRoom_frame h).2⟩
theorem State.canonical_engineWrite {s : State} (a : Agent) (die : Nat) (l : Loc) (bs : List Byte) (h : s.canonical) :
    (s.engineWrite a die l bs).canonical :=
  canonical_foldl (fun _ _ ht => State.canonical_homeWrite _ _ _ (State.canonical_of ht (State.touch_frame ..).1 (State.touch_frame ..).2)) _ h
theorem State.canonical_push {s : State} (a : Agent) (die : Nat) (ps : List (Nat × Loc × Nat)) (bs : List Byte) (h : s.canonical) :
    (s.push a die ps bs).canonical :=
  canonical_foldl (fun _ _ ht => State.canonical_engineWrite _ _ _ _ ht) _ h
theorem State.canonical_wipe {s : State} (lease : Nat) (h : s.canonical) : (s.wipe lease).canonical := ⟨Mem.wf_clear _ h.1, h.2⟩
theorem State.canonical_zeroFrames {s : State} (h : s.canonical) : s.zeroFrames.canonical := ⟨Mem.wf_clear (fun k => decide (k % 4 < 2)) h.1, h.2⟩

end Sys2Proof.Machine
end

