-- ==== Sys2Proof/Laws/Decode.lean ====
section
/-! SUPPORT. The seven formats: reading the fields of a word gives back what was written, and the codes of fields are told apart. -/

namespace Sys2Proof

/-! ### Fields of a concatenation -/

theorem extract_high {v w n s : Nat} (x : BitVec v) (y : BitVec w) (h : w ≤ s) :
    (x ++ y).extractLsb' s n = x.extractLsb' (s - w) n := by
  apply BitVec.eq_of_getLsbD_eq
  intro i hi
  simp only [BitVec.getLsbD_extractLsb', BitVec.getLsbD_append, hi, decide_true, Bool.true_and]
  rw [if_neg (by omega), show s + i - w = s - w + i by omega]
theorem extract_low {v w n s : Nat} (x : BitVec v) (y : BitVec w) (h : s + n ≤ w) :
    (x ++ y).extractLsb' s n = y.extractLsb' s n := by
  apply BitVec.eq_of_getLsbD_eq
  intro i hi
  simp only [BitVec.getLsbD_extractLsb', BitVec.getLsbD_append, hi, decide_true, Bool.true_and]
  rw [if_pos (by omega)]
theorem extract_step {v w n s : Nat} (x : BitVec v) (y : BitVec w) (z : BitVec n) (h : w ≤ s) (e : x.extractLsb' (s - w) n = z) :
    (x ++ y).extractLsb' s n = z := (extract_high x y h).trans e
theorem extract_here {v w s : Nat} (x : BitVec v) (y : BitVec w) (h : s = 0) : (x ++ y).extractLsb' s w = y := by
  subst h; rw [extract_low x y (by omega)]; simp
theorem extract_first {w s : Nat} (x : BitVec w) (h : s = 0) : x.extractLsb' s w = x := by subst h; simp
/-! ### The formats (R91) -/

/-- Reading the fields of a format R word gives them back. -/
theorem FmtR.read_word (f : FmtR) : FmtR.read f.word = f := by
  obtain ⟨op, d, a, b, ea, eb, fn⟩ := f
  simp only [FmtR.read, FmtR.mk.injEq]
  refine ⟨?_, ?_, ?_, ?_, ?_, ?_, ?_⟩
  · iterate 6 refine extract_step _ _ _ (by decide) ?_
    exact extract_first _ rfl
  · iterate 5 refine extract_step _ _ _ (by decide) ?_
    exact extract_here _ _ rfl
  · iterate 4 refine extract_step _ _ _ (by decide) ?_
    exact extract_here _ _ rfl
  · iterate 3 refine extract_step _ _ _ (by decide) ?_
    exact extract_here _ _ rfl
  · iterate 2 refine extract_step _ _ _ (by decide) ?_
    exact extract_here _ _ rfl
  · iterate 1 refine extract_step _ _ _ (by decide) ?_
    exact extract_here _ _ rfl
  · exact extract_here _ _ rfl
theorem FmtR.word_op (f : FmtR) : f.word.extractLsb' 24 8 = f.op := congrArg FmtR.op f.read_word
/-- Reading the fields of a format I word gives them back. -/
theorem FmtI.read_word (f : FmtI) : FmtI.read f.word = f := by
  obtain ⟨op, d, a, ea, imm⟩ := f
  simp only [FmtI.read, FmtI.mk.injEq]
  refine ⟨?_, ?_, ?_, ?_, ?_⟩
  · iterate 4 refine extract_step _ _ _ (by decide) ?_
    exact extract_first _ rfl
  · iterate 3 refine extract_step _ _ _ (by decide) ?_
    exact extract_here _ _ rfl
  · iterate 2 refine extract_step _ _ _ (by decide) ?_
    exact extract_here _ _ rfl
  · iterate 1 refine extract_step _ _ _ (by decide) ?_
    exact extract_here _ _ rfl
  · exact extract_here _ _ rfl
theorem FmtI.word_op (f : FmtI) : f.word.extractLsb' 24 8 = f.op := congrArg FmtI.op f.read_word
/-- Reading the fields of a format U word gives them back. -/
theorem FmtU.read_word (f : FmtU) : FmtU.read f.word = f := by
  obtain ⟨op, d, imm⟩ := f
  simp only [FmtU.read, FmtU.mk.injEq]
  refine ⟨?_, ?_, ?_⟩
  · iterate 2 refine extract_step _ _ _ (by decide) ?_
    exact extract_first _ rfl
  · iterate 1 refine extract_step _ _ _ (by decide) ?_
    exact extract_here _ _ rfl
  · exact extract_here _ _ rfl
theorem FmtU.word_op (f : FmtU) : f.word.extractLsb' 24 8 = f.op := congrArg FmtU.op f.read_word
/-- Reading the fields of a format B word gives them back. -/
theorem FmtB.read_word (f : FmtB) : FmtB.read f.word = f := by
  obtain ⟨op, a, b, off⟩ := f
  simp only [FmtB.read, FmtB.mk.injEq]
  refine ⟨?_, ?_, ?_, ?_⟩
  · iterate 3 refine extract_step _ _ _ (by decide) ?_
    exact extract_first _ rfl
  · iterate 2 refine extract_step _ _ _ (by decide) ?_
    exact extract_here _ _ rfl
  · iterate 1 refine extract_step _ _ _ (by decide) ?_
    exact extract_here _ _ rfl
  · exact extract_here _ _ rfl
theorem FmtB.word_op (f : FmtB) : f.word.extractLsb' 24 8 = f.op := congrArg FmtB.op f.read_word
/-- Reading the fields of a format J word gives them back. -/
theorem FmtJ.read_word (f : FmtJ) : FmtJ.read f.word = f := by
  obtain ⟨op, hi, lo⟩ := f
  simp only [FmtJ.read, FmtJ.mk.injEq]
  refine ⟨?_, ?_, ?_⟩
  · iterate 2 refine extract_step _ _ _ (by decide) ?_
    exact extract_first _ rfl
  · iterate 1 refine extract_step _ _ _ (by decide) ?_
    exact extract_here _ _ rfl
  · exact extract_here _ _ rfl
theorem FmtJ.word_op (f : FmtJ) : f.word.extractLsb' 24 8 = f.op := congrArg FmtJ.op f.read_word
/-- Reading the fields of a format V word gives them back. -/
theorem FmtV.read_word (f : FmtV) : FmtV.read f.word = f := by
  obtain ⟨op, vd, va, vb, m, ea, fn⟩ := f
  simp only [FmtV.read, FmtV.mk.injEq]
  refine ⟨?_, ?_, ?_, ?_, ?_, ?_, ?_⟩
  · iterate 6 refine extract_step _ _ _ (by decide) ?_
    exact extract_first _ rfl
  · iterate 5 refine extract_step _ _ _ (by decide) ?_
    exact extract_here _ _ rfl
  · iterate 4 refine extract_step _ _ _ (by decide) ?_
    exact extract_here _ _ rfl
  · iterate 3 refine extract_step _ _ _ (by decide) ?_
    exact extract_here _ _ rfl
  · iterate 2 refine extract_step _ _ _ (by decide) ?_
    exact extract_here _ _ rfl
  · iterate 1 refine extract_step _ _ _ (by decide) ?_
    exact extract_here _ _ rfl
  · exact extract_here _ _ rfl
theorem FmtV.word_op (f : FmtV) : f.word.extractLsb' 24 8 = f.op := congrArg FmtV.op f.read_word
/-- Reading the fields of a format M word gives them back. -/
theorem FmtM.read_word (f : FmtM) : FmtM.read f.word = f := by
  obtain ⟨op, d, base, ea, sp, imm⟩ := f
  simp only [FmtM.read, FmtM.mk.injEq]
  refine ⟨?_, ?_, ?_, ?_, ?_, ?_⟩
  · iterate 5 refine extract_step _ _ _ (by decide) ?_
    exact extract_first _ rfl
  · iterate 4 refine extract_step _ _ _ (by decide) ?_
    exact extract_here _ _ rfl
  · iterate 3 refine extract_step _ _ _ (by decide) ?_
    exact extract_here _ _ rfl
  · iterate 2 refine extract_step _ _ _ (by decide) ?_
    exact extract_here _ _ rfl
  · iterate 1 refine extract_step _ _ _ (by decide) ?_
    exact extract_here _ _ rfl
  · exact extract_here _ _ rfl
theorem FmtM.word_op (f : FmtM) : f.word.extractLsb' 24 8 = f.op := congrArg FmtM.op f.read_word

/-! ### Codes -/

@[simp] theorem flag_bitOf (b : Bool) : flag (bitOf b) = b := by cases b <;> rfl
@[simp] theorem Ty.ofCode_code (t : Ty) : Ty.ofCode t.code = t := by cases t <;> rfl
@[simp] theorem CvtTy.ofCode_code (t : CvtTy) : CvtTy.ofCode t.code = t := by cases t <;> rfl
@[simp] theorem RMode.ofCode_code (t : RMode) : RMode.ofCode t.code = some t := by cases t <;> rfl
@[simp] theorem FCond.ofCode_code (t : FCond) : FCond.ofCode t.code = t := by cases t <;> rfl
@[simp] theorem VCond.ofCode_code (t : VCond) : VCond.ofCode t.code = t := by cases t <;> rfl
@[simp] theorem Space.ofCode_code (t : Space) : Space.ofCode t.code = t := by cases t <;> rfl
@[simp] theorem AmoFn.ofCode_code (t : AmoFn) : AmoFn.ofCode t.code = some t := by cases t <;> rfl
@[simp] theorem FenceKind.ofCode_code (t : FenceKind) : FenceKind.ofCode t.code = t := by cases t <;> rfl
@[simp] theorem Scope.ofCode_code (t : Scope) : Scope.ofCode t.code = some t := by cases t <;> rfl
@[simp] theorem WCond.ofCode_code (t : WCond) : WCond.ofCode t.code = t := by cases t <;> rfl
@[simp] theorem Shuf.ofCode_code (t : Shuf) : Shuf.ofCode t.code = t := by cases t <;> rfl

/-! ### Packed fields -/

@[simp] theorem pack_shift_0 (n : BitVec 6) : (0#5 ++ n : BitVec 11).extractLsb' 6 5 = 0#5 :=
  extract_step _ _ _ (by decide) <| extract_first _ rfl
@[simp] theorem pack_shift_1 (n : BitVec 6) : (0#5 ++ n : BitVec 11).extractLsb' 0 6 = n :=
  extract_here _ _ rfl
@[simp] theorem pack_bits_0 (w : BitVec 5) (p : BitVec 6) : (w ++ p : BitVec 11).extractLsb' 6 5 = w :=
  extract_step _ _ _ (by decide) <| extract_first _ rfl
@[simp] theorem pack_bits_1 (w : BitVec 5) (p : BitVec 6) : (w ++ p : BitVec 11).extractLsb' 0 6 = p :=
  extract_here _ _ rfl
@[simp] theorem pack_code_0 (c : BitVec 8) : (0#4 ++ c : BitVec 12).extractLsb' 8 4 = 0#4 :=
  extract_step _ _ _ (by decide) <| extract_first _ rfl
@[simp] theorem pack_code_1 (c : BitVec 8) : (0#4 ++ c : BitVec 12).extractLsb' 0 8 = c :=
  extract_here _ _ rfl
@[simp] theorem pack_bit_0 (t : BitVec 1) : (0#3 ++ t : BitVec 4).extractLsb' 1 3 = 0#3 :=
  extract_step _ _ _ (by decide) <| extract_first _ rfl
@[simp] theorem pack_bit_1 (t : BitVec 1) : (0#3 ++ t : BitVec 4).extractLsb' 0 1 = t :=
  extract_here _ _ rfl
@[simp] theorem pack_round_0 (w : BitVec 1) (r : BitVec 3) : (w ++ r : BitVec 4).extractLsb' 3 1 = w :=
  extract_step _ _ _ (by decide) <| extract_first _ rfl
@[simp] theorem pack_round_1 (w : BitVec 1) (r : BitVec 3) : (w ++ r : BitVec 4).extractLsb' 0 3 = r :=
  extract_here _ _ rfl
@[simp] theorem pack_type_0 (c : BitVec 4) : (0#1 ++ c : BitVec 5).extractLsb' 4 1 = 0#1 :=
  extract_step _ _ _ (by decide) <| extract_first _ rfl
@[simp] theorem pack_type_1 (c : BitVec 4) : (0#1 ++ c : BitVec 5).extractLsb' 0 4 = c :=
  extract_here _ _ rfl
@[simp] theorem pack_cond_0 (c : BitVec 2) (k : BitVec 3) : (c ++ k : BitVec 5).extractLsb' 3 2 = c :=
  extract_step _ _ _ (by decide) <| extract_first _ rfl
@[simp] theorem pack_cond_1 (c : BitVec 2) (k : BitVec 3) : (c ++ k : BitVec 5).extractLsb' 0 3 = k :=
  extract_here _ _ rfl
@[simp] theorem pack_cvt_0 (d : BitVec 3) (s : BitVec 3) : (d ++ s : BitVec 6).extractLsb' 3 3 = d :=
  extract_step _ _ _ (by decide) <| extract_first _ rfl
@[simp] theorem pack_cvt_1 (d : BitVec 3) (s : BitVec 3) : (d ++ s : BitVec 6).extractLsb' 0 3 = s :=
  extract_here _ _ rfl
@[simp] theorem pack_gather_0 (x : BitVec 1) (m : BitVec 3) (v : BitVec 5) : (x ++ m ++ v : BitVec 9).extractLsb' 8 1 = x :=
  extract_step _ _ _ (by decide) <| extract_step _ _ _ (by decide) <| extract_first _ rfl
@[simp] theorem pack_gather_1 (x : BitVec 1) (m : BitVec 3) (v : BitVec 5) : (x ++ m ++ v : BitVec 9).extractLsb' 5 3 = m :=
  extract_step _ _ _ (by decide) <| extract_here _ _ rfl
@[simp] theorem pack_gather_2 (x : BitVec 1) (m : BitVec 3) (v : BitVec 5) : (x ++ m ++ v : BitVec 9).extractLsb' 0 5 = v :=
  extract_here _ _ rfl
@[simp] theorem pack_chan_0 (v : BitVec 1) (c : BitVec 3) : (0#7 ++ v ++ c : BitVec 11).extractLsb' 4 7 = 0#7 :=
  extract_step _ _ _ (by decide) <| extract_step _ _ _ (by decide) <| extract_first _ rfl
@[simp] theorem pack_chan_1 (v : BitVec 1) (c : BitVec 3) : (0#7 ++ v ++ c : BitVec 11).extractLsb' 3 1 = v :=
  extract_step _ _ _ (by decide) <| extract_here _ _ rfl
@[simp] theorem pack_chan_2 (v : BitVec 1) (c : BitVec 3) : (0#7 ++ v ++ c : BitVec 11).extractLsb' 0 3 = c :=
  extract_here _ _ rfl
@[simp] theorem pack_fence_0 (k : BitVec 2) (s : BitVec 3) : (0#6 ++ k ++ s : BitVec 11).extractLsb' 5 6 = 0#6 :=
  extract_step _ _ _ (by decide) <| extract_step _ _ _ (by decide) <| extract_first _ rfl
@[simp] theorem pack_fence_1 (k : BitVec 2) (s : BitVec 3) : (0#6 ++ k ++ s : BitVec 11).extractLsb' 3 2 = k :=
  extract_step _ _ _ (by decide) <| extract_here _ _ rfl
@[simp] theorem pack_fence_2 (k : BitVec 2) (s : BitVec 3) : (0#6 ++ k ++ s : BitVec 11).extractLsb' 0 3 = s :=
  extract_here _ _ rfl
@[simp] theorem pack_wait_0 (w : BitVec 1) (c : BitVec 2) : (w ++ 0#1 ++ c : BitVec 4).extractLsb' 3 1 = w :=
  extract_step _ _ _ (by decide) <| extract_step _ _ _ (by decide) <| extract_first _ rfl
@[simp] theorem pack_wait_1 (w : BitVec 1) (c : BitVec 2) : (w ++ 0#1 ++ c : BitVec 4).extractLsb' 2 1 = 0#1 :=
  extract_step _ _ _ (by decide) <| extract_here _ _ rfl
@[simp] theorem pack_wait_2 (w : BitVec 1) (c : BitVec 2) : (w ++ 0#1 ++ c : BitVec 4).extractLsb' 0 2 = c :=
  extract_here _ _ rfl
@[simp] theorem pack_count_0 (n : BitVec 3) : (0#8 ++ n : BitVec 11).extractLsb' 3 8 = 0#8 :=
  extract_step _ _ _ (by decide) <| extract_first _ rfl
@[simp] theorem pack_count_1 (n : BitVec 3) : (0#8 ++ n : BitVec 11).extractLsb' 0 3 = n :=
  extract_here _ _ rfl
@[simp] theorem pack_shuffle_0 (p : BitVec 3) : (0#2 ++ p : BitVec 5).extractLsb' 3 2 = 0#2 :=
  extract_step _ _ _ (by decide) <| extract_first _ rfl
@[simp] theorem pack_shuffle_1 (p : BitVec 3) : (0#2 ++ p : BitVec 5).extractLsb' 0 3 = p :=
  extract_here _ _ rfl
@[simp] theorem pack_mask_0 (m : BitVec 3) : (0#2 ++ m : BitVec 5).extractLsb' 3 2 = 0#2 :=
  extract_step _ _ _ (by decide) <| extract_first _ rfl
@[simp] theorem pack_mask_1 (m : BitVec 3) : (0#2 ++ m : BitVec 5).extractLsb' 0 3 = m :=
  extract_here _ _ rfl
@[simp] theorem pack_lea_0 (k : BitVec 2) : (0#2 ++ k : BitVec 4).extractLsb' 2 2 = 0#2 :=
  extract_step _ _ _ (by decide) <| extract_first _ rfl
@[simp] theorem pack_lea_1 (k : BitVec 2) : (0#2 ++ k : BitVec 4).extractLsb' 0 2 = k :=
  extract_here _ _ rfl
@[simp] theorem pack_agen_0 (k : BitVec 2) : (1#2 ++ k : BitVec 4).extractLsb' 2 2 = 1#2 :=
  extract_step _ _ _ (by decide) <| extract_first _ rfl
@[simp] theorem pack_agen_1 (k : BitVec 2) : (1#2 ++ k : BitVec 4).extractLsb' 0 2 = k :=
  extract_here _ _ rfl

end Sys2Proof
end

