-- ==== Sys2Proof/Laws/PerInstr.lean ====
section
/-! SUPPORT. The round trip of each instruction: its word decodes to it. -/

namespace Sys2Proof.Laws.RoundTrip

set_option Elab.async false

/-- Where an instruction has a word, that word decodes to it, whatever its operands. -/
def Statement (i : Instr) : Prop := ∀ w, encode i = some w → decode w = .ok i

/-- The lemma from the word that the encoder gives. -/
theorem of_word {i : Instr} {v : IWord} (e : encode i = some v) (h : decode v = .ok i) : Statement i := by
  intro w hw
  rw [e] at hw
  cases hw
  exact h
/-- An instruction without a word. -/
theorem of_none {i : Instr} (e : encode i = none) : Statement i := by
  intro w hw
  rw [e] at hw
  cases hw

theorem add (o : OpR3) : Statement (.add o) := of_word rfl <| by
  simp [decode, decode01, OpR3.word, FmtR.word_op, FmtR.read_word, FmtR.r3]
theorem sub (o : OpR3) : Statement (.sub o) := of_word rfl <| by
  simp [decode, decode01, OpR3.word, FmtR.word_op, FmtR.read_word, FmtR.r3]
theorem and (o : OpR3) : Statement (.and o) := of_word rfl <| by
  simp [decode, decode01, OpR3.word, FmtR.word_op, FmtR.read_word, FmtR.r3]
theorem or (o : OpR3) : Statement (.or o) := of_word rfl <| by
  simp [decode, decode01, OpR3.word, FmtR.word_op, FmtR.read_word, FmtR.r3]
theorem xor (o : OpR3) : Statement (.xor o) := of_word rfl <| by
  simp [decode, decode01, OpR3.word, FmtR.word_op, FmtR.read_word, FmtR.r3]
theorem andn (o : OpR3) : Statement (.andn o) := of_word rfl <| by
  simp [decode, decode01, OpR3.word, FmtR.word_op, FmtR.read_word, FmtR.r3]
theorem shl (o : OpR3) : Statement (.shl o) := of_word rfl <| by
  simp [decode, decode01, OpR3.word, FmtR.word_op, FmtR.read_word, FmtR.r3]
theorem shr (o : OpR3) : Statement (.shr o) := of_word rfl <| by
  simp [decode, decode01, OpR3.word, FmtR.word_op, FmtR.read_word, FmtR.r3]
theorem sha (o : OpR3) : Statement (.sha o) := of_word rfl <| by
  simp [decode, decode01, OpR3.word, FmtR.word_op, FmtR.read_word, FmtR.r3]
theorem rot (o : OpR3) : Statement (.rot o) := of_word rfl <| by
  simp [decode, decode01, OpR3.word, FmtR.word_op, FmtR.read_word, FmtR.r3]
theorem min (o : OpR3) : Statement (.min o) := of_word rfl <| by
  simp [decode, decode01, OpR3.word, FmtR.word_op, FmtR.read_word, FmtR.r3]
theorem max (o : OpR3) : Statement (.max o) := of_word rfl <| by
  simp [decode, decode01, OpR3.word, FmtR.word_op, FmtR.read_word, FmtR.r3]
theorem minz (o : OpR3) : Statement (.minz o) := of_word rfl <| by
  simp [decode, decode01, OpR3.word, FmtR.word_op, FmtR.read_word, FmtR.r3]
theorem maxz (o : OpR3) : Statement (.maxz o) := of_word rfl <| by
  simp [decode, decode01, OpR3.word, FmtR.word_op, FmtR.read_word, FmtR.r3]
theorem sel (o : OpR3) : Statement (.sel o) := of_word rfl <| by
  simp [decode, decode01, OpR3.word, FmtR.word_op, FmtR.read_word, FmtR.r3]
theorem mul (o : OpR3) : Statement (.mul o) := of_word rfl <| by
  simp [decode, decode02, OpR3.word, FmtR.word_op, FmtR.read_word, FmtR.r3]
theorem mulh (o : OpR3) : Statement (.mulh o) := of_word rfl <| by
  simp [decode, decode02, OpR3.word, FmtR.word_op, FmtR.read_word, FmtR.r3]
theorem mulhz (o : OpR3) : Statement (.mulhz o) := of_word rfl <| by
  simp [decode, decode02, OpR3.word, FmtR.word_op, FmtR.read_word, FmtR.r3]
theorem div (o : OpR3) : Statement (.div o) := of_word rfl <| by
  simp [decode, decode02, OpR3.word, FmtR.word_op, FmtR.read_word, FmtR.r3]
theorem divz (o : OpR3) : Statement (.divz o) := of_word rfl <| by
  simp [decode, decode02, OpR3.word, FmtR.word_op, FmtR.read_word, FmtR.r3]
theorem rem (o : OpR3) : Statement (.rem o) := of_word rfl <| by
  simp [decode, decode02, OpR3.word, FmtR.word_op, FmtR.read_word, FmtR.r3]
theorem remz (o : OpR3) : Statement (.remz o) := of_word rfl <| by
  simp [decode, decode02, OpR3.word, FmtR.word_op, FmtR.read_word, FmtR.r3]
theorem mads (o : OpR3) : Statement (.mads o) := of_word rfl <| by
  simp [decode, decode02, OpR3.word, FmtR.word_op, FmtR.read_word, FmtR.r3]
theorem clz (o : OpR2) : Statement (.clz o) := of_word rfl <| by
  simp [decode, decode03, OpR2.word, FmtR.word_op, FmtR.read_word, FmtR.r2, withReserved]
theorem ctz (o : OpR2) : Statement (.ctz o) := of_word rfl <| by
  simp [decode, decode03, OpR2.word, FmtR.word_op, FmtR.read_word, FmtR.r2, withReserved]
theorem pop (o : OpR2) : Statement (.pop o) := of_word rfl <| by
  simp [decode, decode03, OpR2.word, FmtR.word_op, FmtR.read_word, FmtR.r2, withReserved]
theorem brev (o : OpR2) : Statement (.brev o) := of_word rfl <| by
  simp [decode, decode03, OpR2.word, FmtR.word_op, FmtR.read_word, FmtR.r2, withReserved]
theorem bswap (o : OpR2) : Statement (.bswap o) := of_word rfl <| by
  simp [decode, decode03, OpR2.word, FmtR.word_op, FmtR.read_word, FmtR.r2, withReserved]
theorem ext (o : OpR3) : Statement (.ext o) := of_word rfl <| by
  simp [decode, decode03, OpR3.word, FmtR.word_op, FmtR.read_word, FmtR.r3]
theorem ins (o : OpR3) : Statement (.ins o) := of_word rfl <| by
  simp [decode, decode03, OpR3.word, FmtR.word_op, FmtR.read_word, FmtR.r3]
theorem cmpEq (o : OpR3) : Statement (.cmpEq o) := of_word rfl <| by
  simp [decode, decode04, OpR3.word, FmtR.word_op, FmtR.read_word, FmtR.r3]
theorem cmpNe (o : OpR3) : Statement (.cmpNe o) := of_word rfl <| by
  simp [decode, decode04, OpR3.word, FmtR.word_op, FmtR.read_word, FmtR.r3]
theorem cmpLt (o : OpR3) : Statement (.cmpLt o) := of_word rfl <| by
  simp [decode, decode04, OpR3.word, FmtR.word_op, FmtR.read_word, FmtR.r3]
theorem cmpGe (o : OpR3) : Statement (.cmpGe o) := of_word rfl <| by
  simp [decode, decode04, OpR3.word, FmtR.word_op, FmtR.read_word, FmtR.r3]
theorem cmpLtz (o : OpR3) : Statement (.cmpLtz o) := of_word rfl <| by
  simp [decode, decode04, OpR3.word, FmtR.word_op, FmtR.read_word, FmtR.r3]
theorem cmpGez (o : OpR3) : Statement (.cmpGez o) := of_word rfl <| by
  simp [decode, decode04, OpR3.word, FmtR.word_op, FmtR.read_word, FmtR.r3]
theorem lea (o : OpR3) (k : BitVec 2) : Statement (.lea o k) := of_word rfl <| by
  have e : ∀ k : BitVec 2, decode05 ⟨5#8, o.d, o.a, o.b, bitOf o.ea, bitOf o.eb, (0#2 ++ k : BitVec 4)⟩ = .ok (.lea ⟨o.d, o.a, o.b, flag (bitOf o.ea), flag (bitOf o.eb)⟩ k) := by
    have h : ∀ k : BitVec 2, ((0#2 ++ k : BitVec 4).toNat < 4) = True ∧ (0#2 ++ k : BitVec 4).toNat < 8 ∧ (0#2 ++ k : BitVec 4).extractLsb' 0 2 = k := by decide
    intro k
    simp [decode05, FmtR.r3, FmtR.scale, h k]
  simp [decode, OpR3.word, FmtR.word_op, FmtR.read_word, e]
theorem agen2 (o : OpR3) (k : BitVec 2) : Statement (.agen2 o k) := of_word rfl <| by
  have e : ∀ k : BitVec 2, decode05 ⟨5#8, o.d, o.a, o.b, bitOf o.ea, bitOf o.eb, (1#2 ++ k : BitVec 4)⟩ = .ok (.agen2 ⟨o.d, o.a, o.b, flag (bitOf o.ea), flag (bitOf o.eb)⟩ k) := by
    have h : ∀ k : BitVec 2, ((1#2 ++ k : BitVec 4).toNat < 4) = False ∧ (1#2 ++ k : BitVec 4).toNat < 8 ∧ (1#2 ++ k : BitVec 4).extractLsb' 0 2 = k := by decide
    intro k
    simp [decode05, FmtR.r3, FmtR.scale, h k]
  simp [decode, OpR3.word, FmtR.word_op, FmtR.read_word, e]
theorem bound (o : OpR3) : Statement (.bound o) := of_word rfl <| by
  simp [decode, decode05, OpR3.word, FmtR.word_op, FmtR.read_word, FmtR.r3]
theorem addImm (o : OpI) : Statement (.addImm o) := of_word rfl <| by
  simp [decode, decodeImm, OpI.word, FmtI.word_op, FmtI.read_word, FmtI.opI]
theorem andImm (o : OpI) : Statement (.andImm o) := of_word rfl <| by
  simp [decode, decodeImm, OpI.word, FmtI.word_op, FmtI.read_word, FmtI.opI]
theorem orImm (o : OpI) : Statement (.orImm o) := of_word rfl <| by
  simp [decode, decodeImm, OpI.word, FmtI.word_op, FmtI.read_word, FmtI.opI]
theorem xorImm (o : OpI) : Statement (.xorImm o) := of_word rfl <| by
  simp [decode, decodeImm, OpI.word, FmtI.word_op, FmtI.read_word, FmtI.opI]
theorem shlImm (o : OpSh) : Statement (.shlImm o) := of_word rfl <| by
  simp [decode, decodeImm, OpSh.word, FmtI.word_op, FmtI.read_word, FmtI.shift]
theorem shrImm (o : OpSh) : Statement (.shrImm o) := of_word rfl <| by
  simp [decode, decodeImm, OpSh.word, FmtI.word_op, FmtI.read_word, FmtI.shift]
theorem shaImm (o : OpSh) : Statement (.shaImm o) := of_word rfl <| by
  simp [decode, decodeImm, OpSh.word, FmtI.word_op, FmtI.read_word, FmtI.shift]
theorem rotImm (o : OpSh) : Statement (.rotImm o) := of_word rfl <| by
  simp [decode, decodeImm, OpSh.word, FmtI.word_op, FmtI.read_word, FmtI.shift]
theorem mulImm (o : OpI) : Statement (.mulImm o) := of_word rfl <| by
  simp [decode, decodeImm, OpI.word, FmtI.word_op, FmtI.read_word, FmtI.opI]
theorem minImm (o : OpI) : Statement (.minImm o) := of_word rfl <| by
  simp [decode, decodeImm, OpI.word, FmtI.word_op, FmtI.read_word, FmtI.opI]
theorem maxImm (o : OpI) : Statement (.maxImm o) := of_word rfl <| by
  simp [decode, decodeImm, OpI.word, FmtI.word_op, FmtI.read_word, FmtI.opI]
theorem cmpEqImm (o : OpI) : Statement (.cmpEqImm o) := of_word rfl <| by
  simp [decode, decodeImm, OpI.word, FmtI.word_op, FmtI.read_word, FmtI.opI]
theorem cmpNeImm (o : OpI) : Statement (.cmpNeImm o) := of_word rfl <| by
  simp [decode, decodeImm, OpI.word, FmtI.word_op, FmtI.read_word, FmtI.opI]
theorem cmpLtImm (o : OpI) : Statement (.cmpLtImm o) := of_word rfl <| by
  simp [decode, decodeImm, OpI.word, FmtI.word_op, FmtI.read_word, FmtI.opI]
theorem cmpGeImm (o : OpI) : Statement (.cmpGeImm o) := of_word rfl <| by
  simp [decode, decodeImm, OpI.word, FmtI.word_op, FmtI.read_word, FmtI.opI]
theorem cmpLtzImm (o : OpI) : Statement (.cmpLtzImm o) := of_word rfl <| by
  simp [decode, decodeImm, OpI.word, FmtI.word_op, FmtI.read_word, FmtI.opI]
theorem cmpGezImm (o : OpI) : Statement (.cmpGezImm o) := of_word rfl <| by
  simp [decode, decodeImm, OpI.word, FmtI.word_op, FmtI.read_word, FmtI.opI]
theorem extImm (o : OpBf) : Statement (.extImm o) := of_word rfl <| by
  simp [decode, decodeImm, OpBf.word, FmtI.word_op, FmtI.read_word, FmtI.bf]
theorem insImm (o : OpBf) : Statement (.insImm o) := of_word rfl <| by
  simp [decode, decodeImm, OpBf.word, FmtI.word_op, FmtI.read_word, FmtI.bf]
theorem lui (d : SReg) (imm : BitVec 18) : Statement (.lui d imm) := of_word rfl <| by
  simp [decode, decodeImm, FmtU.word_op, FmtU.read_word]
theorem bccEq (o : OpB) : Statement (.bccEq o) := of_word rfl <| by
  simp [decode, decodeControl, OpB.word, FmtB.word_op, FmtB.read_word, FmtB.opB]
theorem bccNe (o : OpB) : Statement (.bccNe o) := of_word rfl <| by
  simp [decode, decodeControl, OpB.word, FmtB.word_op, FmtB.read_word, FmtB.opB]
theorem bccLt (o : OpB) : Statement (.bccLt o) := of_word rfl <| by
  simp [decode, decodeControl, OpB.word, FmtB.word_op, FmtB.read_word, FmtB.opB]
theorem bccGe (o : OpB) : Statement (.bccGe o) := of_word rfl <| by
  simp [decode, decodeControl, OpB.word, FmtB.word_op, FmtB.read_word, FmtB.opB]
theorem bccLtz (o : OpB) : Statement (.bccLtz o) := of_word rfl <| by
  simp [decode, decodeControl, OpB.word, FmtB.word_op, FmtB.read_word, FmtB.opB]
theorem bccGez (o : OpB) : Statement (.bccGez o) := of_word rfl <| by
  simp [decode, decodeControl, OpB.word, FmtB.word_op, FmtB.read_word, FmtB.opB]
theorem j (off : BitVec 12) : Statement (.j off) := of_word rfl <| by
  simp [decode, decodeControl, jWord, FmtJ.word_op, FmtJ.read_word, FmtJ.target]
theorem jal (off : BitVec 12) : Statement (.jal off) := of_word rfl <| by
  simp [decode, decodeControl, jWord, FmtJ.word_op, FmtJ.read_word, FmtJ.target]
theorem jalr (o : OpI) : Statement (.jalr o) := of_word rfl <| by
  simp [decode, decodeControl, OpI.word, FmtI.word_op, FmtI.read_word, FmtI.opI]
theorem loop (o : OpLoop) : Statement (.loop o) := of_word rfl <| by
  simp [decode, decodeControl, OpLoop.word, FmtI.word_op, FmtI.read_word, FmtI.loopOp, withReserved]
theorem loopx (o : OpLoop) : Statement (.loopx o) := of_word rfl <| by
  simp [decode, decodeControl, OpLoop.word, FmtI.word_op, FmtI.read_word, FmtI.loopOp, withReserved]
theorem done : Statement .done := of_word rfl rfl
theorem yield : Statement .yield := of_word rfl rfl
theorem movq (o : OpR2e) : Statement (.movq o) := of_word rfl <| by
  simp [decode, decodeControl, FmtR.word_op, FmtR.read_word, FmtR.zeroFn, withReserved]
theorem marke (o : OpMark) : Statement (.marke o) := of_word rfl <| by
  simp [decode, decodeControl, fnBit, FmtR.word_op, FmtR.read_word, FmtR.bit, withReserved]
theorem markf (o : OpMark) : Statement (.markf o) := of_word rfl <| by
  simp [decode, decodeControl, fnBit, FmtR.word_op, FmtR.read_word, FmtR.bit, withReserved]
theorem testf (o : OpTestf) : Statement (.testf o) := of_word rfl <| by
  simp [decode, decodeControl, fnBit, FmtR.word_op, FmtR.read_word, FmtR.bit]
theorem waitf (o : OpWaitf) : Statement (.waitf o) := of_word rfl <| by
  simp [decode, decodeControl, fnBit, FmtR.word_op, FmtR.read_word, FmtR.bit, withReserved]
theorem waitm (o : OpWaitm) : Statement (.waitm o) := of_word rfl <| by
  simp [decode, decodeControl, fnBit, FmtR.word_op, FmtR.read_word, FmtR.bit]
theorem mfs (d : SReg) (e : Bool) (n : BitVec 11) : Statement (.mfs d e n) := of_word rfl <| by
  simp [decode, decodeControl, FmtI.word_op, FmtI.read_word, withReserved]
theorem mts (a : SReg) (ea : Bool) (n : BitVec 11) : Statement (.mts a ea n) := of_word rfl <| by
  simp [decode, decodeControl, FmtI.word_op, FmtI.read_word, withReserved]
theorem fadd (o : OpF3) : Statement (.fadd o) := of_word rfl <| by
  simp [decode, decodeFloat, OpF3.word, FmtR.word_op, FmtR.read_word, FmtR.round, FmtR.f3]
theorem fsub (o : OpF3) : Statement (.fsub o) := of_word rfl <| by
  simp [decode, decodeFloat, OpF3.word, FmtR.word_op, FmtR.read_word, FmtR.round, FmtR.f3]
theorem fmul (o : OpF3) : Statement (.fmul o) := of_word rfl <| by
  simp [decode, decodeFloat, OpF3.word, FmtR.word_op, FmtR.read_word, FmtR.round, FmtR.f3]
theorem fma (o : OpF3) : Statement (.fma o) := of_word rfl <| by
  simp [decode, decodeFloat, OpF3.word, FmtR.word_op, FmtR.read_word, FmtR.round, FmtR.f3]
theorem fdiv (o : OpF3) : Statement (.fdiv o) := of_word rfl <| by
  simp [decode, decodeFloat, OpF3.word, FmtR.word_op, FmtR.read_word, FmtR.round, FmtR.f3]
theorem fsqrt (o : OpF2) : Statement (.fsqrt o) := of_word rfl <| by
  simp [decode, decodeFloat, FmtR.word_op, FmtR.read_word, FmtR.round, withReserved]
theorem fmin (o : OpFm) : Statement (.fmin o) := of_word rfl <| by
  simp [decode, decodeFloat, OpFm.word, FmtR.word_op, FmtR.read_word, FmtR.noRound]
theorem fmax (o : OpFm) : Statement (.fmax o) := of_word rfl <| by
  simp [decode, decodeFloat, OpFm.word, FmtR.word_op, FmtR.read_word, FmtR.noRound]
theorem fcmp (o : OpFc) : Statement (.fcmp o) := of_word rfl <| by
  simp [decode, decodeFloat, FmtR.word_op, FmtR.read_word]
theorem fcvt (o : OpCvt) : Statement (.fcvt o) := of_word rfl <| by
  simp [decode, decodeFloat, FmtR.word_op, FmtR.read_word, FmtR.round, withReserved]
theorem fclass (o : OpFk) : Statement (.fclass o) := of_word rfl <| by
  simp [decode, decodeFloat, FmtR.word_op, FmtR.read_word, FmtR.noRound, withReserved]
theorem vadd (o : OpV3) : Statement (.vadd o) := of_word rfl <| by
  simp [decode, decodeVector, OpV3.word, Ty.fn, FmtV.word_op, FmtV.read_word, FmtV.v3, FmtV.typed]
theorem vsub (o : OpV3) : Statement (.vsub o) := of_word rfl <| by
  simp [decode, decodeVector, OpV3.word, Ty.fn, FmtV.word_op, FmtV.read_word, FmtV.v3, FmtV.typed]
theorem vmul (o : OpV3) : Statement (.vmul o) := of_word rfl <| by
  simp [decode, decodeVector, OpV3.word, Ty.fn, FmtV.word_op, FmtV.read_word, FmtV.v3, FmtV.typed]
theorem vmulh (o : OpV3) : Statement (.vmulh o) := of_word rfl <| by
  simp [decode, decodeVector, OpV3.word, Ty.fn, FmtV.word_op, FmtV.read_word, FmtV.v3, FmtV.typed]
theorem vmad (o : OpV3) : Statement (.vmad o) := of_word rfl <| by
  simp [decode, decodeVector, OpV3.word, Ty.fn, FmtV.word_op, FmtV.read_word, FmtV.v3, FmtV.typed]
theorem vand (o : OpV3) : Statement (.vand o) := of_word rfl <| by
  simp [decode, decodeVector, OpV3.word, Ty.fn, FmtV.word_op, FmtV.read_word, FmtV.v3, FmtV.typed]
theorem vor (o : OpV3) : Statement (.vor o) := of_word rfl <| by
  simp [decode, decodeVector, OpV3.word, Ty.fn, FmtV.word_op, FmtV.read_word, FmtV.v3, FmtV.typed]
theorem vxor (o : OpV3) : Statement (.vxor o) := of_word rfl <| by
  simp [decode, decodeVector, OpV3.word, Ty.fn, FmtV.word_op, FmtV.read_word, FmtV.v3, FmtV.typed]
theorem vshl (o : OpV3) : Statement (.vshl o) := of_word rfl <| by
  simp [decode, decodeVector, OpV3.word, Ty.fn, FmtV.word_op, FmtV.read_word, FmtV.v3, FmtV.typed]
theorem vshr (o : OpV3) : Statement (.vshr o) := of_word rfl <| by
  simp [decode, decodeVector, OpV3.word, Ty.fn, FmtV.word_op, FmtV.read_word, FmtV.v3, FmtV.typed]
theorem vsha (o : OpV3) : Statement (.vsha o) := of_word rfl <| by
  simp [decode, decodeVector, OpV3.word, Ty.fn, FmtV.word_op, FmtV.read_word, FmtV.v3, FmtV.typed]
theorem vmin (o : OpV3) : Statement (.vmin o) := of_word rfl <| by
  simp [decode, decodeVector, OpV3.word, Ty.fn, FmtV.word_op, FmtV.read_word, FmtV.v3, FmtV.typed]
theorem vmax (o : OpV3) : Statement (.vmax o) := of_word rfl <| by
  simp [decode, decodeVector, OpV3.word, Ty.fn, FmtV.word_op, FmtV.read_word, FmtV.v3, FmtV.typed]
theorem vabs (o : OpV2) : Statement (.vabs o) := of_word rfl <| by
  simp [decode, decodeVector, OpV2.word, Ty.fn, FmtV.word_op, FmtV.read_word, FmtV.v2, FmtV.typed, withReserved]
theorem vneg (o : OpV2) : Statement (.vneg o) := of_word rfl <| by
  simp [decode, decodeVector, OpV2.word, Ty.fn, FmtV.word_op, FmtV.read_word, FmtV.v2, FmtV.typed, withReserved]
theorem vcmp (o : OpVCmp) : Statement (.vcmp o) := of_word rfl <| by
  simp [decode, decodeVector, Ty.fn, FmtV.word_op, FmtV.read_word, FmtV.typed, maskOf]
theorem vsel (o : OpV3) : Statement (.vsel o) := of_word rfl <| by
  simp [decode, decodeVector, OpV3.word, Ty.fn, FmtV.word_op, FmtV.read_word, FmtV.v3, FmtV.typed]
theorem vfadd (o : OpV3) : Statement (.vfadd o) := of_word rfl <| by
  simp [decode, decodeVector, OpV3.word, Ty.fn, FmtV.word_op, FmtV.read_word, FmtV.v3, FmtV.typed]
theorem vfsub (o : OpV3) : Statement (.vfsub o) := of_word rfl <| by
  simp [decode, decodeVector, OpV3.word, Ty.fn, FmtV.word_op, FmtV.read_word, FmtV.v3, FmtV.typed]
theorem vfmul (o : OpV3) : Statement (.vfmul o) := of_word rfl <| by
  simp [decode, decodeVector, OpV3.word, Ty.fn, FmtV.word_op, FmtV.read_word, FmtV.v3, FmtV.typed]
theorem vfma (o : OpV3) : Statement (.vfma o) := of_word rfl <| by
  simp [decode, decodeVector, OpV3.word, Ty.fn, FmtV.word_op, FmtV.read_word, FmtV.v3, FmtV.typed]
theorem vfms (o : OpV3) : Statement (.vfms o) := of_word rfl <| by
  simp [decode, decodeVector, OpV3.word, Ty.fn, FmtV.word_op, FmtV.read_word, FmtV.v3, FmtV.typed]
theorem vfnma (o : OpV3) : Statement (.vfnma o) := of_word rfl <| by
  simp [decode, decodeVector, OpV3.word, Ty.fn, FmtV.word_op, FmtV.read_word, FmtV.v3, FmtV.typed]
theorem vfdiv (o : OpV3) : Statement (.vfdiv o) := of_word rfl <| by
  simp [decode, decodeVector, OpV3.word, Ty.fn, FmtV.word_op, FmtV.read_word, FmtV.v3, FmtV.typed]
theorem vfsqrt (o : OpV2) : Statement (.vfsqrt o) := of_word rfl <| by
  simp [decode, decodeVector, OpV2.word, Ty.fn, FmtV.word_op, FmtV.read_word, FmtV.v2, FmtV.typed, withReserved]
theorem vfrcp (o : OpV2) : Statement (.vfrcp o) := of_word rfl <| by
  simp [decode, decodeVector, OpV2.word, Ty.fn, FmtV.word_op, FmtV.read_word, FmtV.v2, FmtV.typed, withReserved]
theorem vfrsq (o : OpV2) : Statement (.vfrsq o) := of_word rfl <| by
  simp [decode, decodeVector, OpV2.word, Ty.fn, FmtV.word_op, FmtV.read_word, FmtV.v2, FmtV.typed, withReserved]
theorem vfexp2 (o : OpV2) : Statement (.vfexp2 o) := of_word rfl <| by
  simp [decode, decodeVector, OpV2.word, Ty.fn, FmtV.word_op, FmtV.read_word, FmtV.v2, FmtV.typed, withReserved]
theorem vflog2 (o : OpV2) : Statement (.vflog2 o) := of_word rfl <| by
  simp [decode, decodeVector, OpV2.word, Ty.fn, FmtV.word_op, FmtV.read_word, FmtV.v2, FmtV.typed, withReserved]
theorem vfmin (o : OpV3) : Statement (.vfmin o) := of_word rfl <| by
  simp [decode, decodeVector, OpV3.word, Ty.fn, FmtV.word_op, FmtV.read_word, FmtV.v3, FmtV.typed]
theorem vfmax (o : OpV3) : Statement (.vfmax o) := of_word rfl <| by
  simp [decode, decodeVector, OpV3.word, Ty.fn, FmtV.word_op, FmtV.read_word, FmtV.v3, FmtV.typed]
theorem vfcmp (o : OpVFCmp) : Statement (.vfcmp o) := of_word rfl <| by
  simp [decode, decodeVector, Ty.fn, FmtV.word_op, FmtV.read_word, FmtV.typed, maskOf]
theorem vfclass (o : OpV2) : Statement (.vfclass o) := of_word rfl <| by
  simp [decode, decodeVector, OpV2.word, Ty.fn, FmtV.word_op, FmtV.read_word, FmtV.v2, FmtV.typed, withReserved]
theorem vcvt (o : OpVCvt) : Statement (.vcvt o) := of_word rfl <| by
  simp [decode, decodeVector, OpVCvt.word, Ty.fn, FmtV.word_op, FmtV.read_word, FmtV.cvt, FmtV.typed, withReserved]
theorem vquant (o : OpVCvt) : Statement (.vquant o) := of_word rfl <| by
  simp [decode, decodeVector, OpVCvt.word, Ty.fn, FmtV.word_op, FmtV.read_word, FmtV.cvt, FmtV.typed, withReserved]
theorem vdeq (o : OpVCvt) : Statement (.vdeq o) := of_word rfl <| by
  simp [decode, decodeVector, OpVCvt.word, Ty.fn, FmtV.word_op, FmtV.read_word, FmtV.cvt, FmtV.typed, withReserved]
theorem vdot (o : OpV3) : Statement (.vdot o) := of_word rfl <| by
  simp [decode, decodeVector, OpV3.word, Ty.fn, FmtV.word_op, FmtV.read_word, FmtV.v3, FmtV.typed]
theorem vbdot (o : OpV3) : Statement (.vbdot o) := of_word rfl <| by
  simp [decode, decodeVector, OpV3.word, Ty.fn, FmtV.word_op, FmtV.read_word, FmtV.v3, FmtV.typed]
theorem vredadd (o : OpV2) : Statement (.vredadd o) := of_word rfl <| by
  simp [decode, decodeVector, OpV2.word, Ty.fn, FmtV.word_op, FmtV.read_word, FmtV.v2, FmtV.typed, withReserved]
theorem vredmax (o : OpV2) : Statement (.vredmax o) := of_word rfl <| by
  simp [decode, decodeVector, OpV2.word, Ty.fn, FmtV.word_op, FmtV.read_word, FmtV.v2, FmtV.typed, withReserved]
theorem vredmin (o : OpV2) : Statement (.vredmin o) := of_word rfl <| by
  simp [decode, decodeVector, OpV2.word, Ty.fn, FmtV.word_op, FmtV.read_word, FmtV.v2, FmtV.typed, withReserved]
theorem vscan (o : OpV2) : Statement (.vscan o) := of_word rfl <| by
  simp [decode, decodeVector, OpV2.word, Ty.fn, FmtV.word_op, FmtV.read_word, FmtV.v2, FmtV.typed, withReserved]
theorem vperm (o : OpV3) : Statement (.vperm o) := of_word rfl <| by
  simp [decode, decodeVector, OpV3.word, Ty.fn, FmtV.word_op, FmtV.read_word, FmtV.v3, FmtV.typed]
theorem vshuf (o : OpShuf) : Statement (.vshuf o) := of_word rfl <| by
  simp [decode, decodeVector, FmtV.word_op, FmtV.read_word]
theorem vrot (o : OpV3) : Statement (.vrot o) := of_word rfl <| by
  simp [decode, decodeVector, OpV3.word, Ty.fn, FmtV.word_op, FmtV.read_word, FmtV.v3, FmtV.typed]
theorem vbcast (o : OpV2) : Statement (.vbcast o) := of_word rfl <| by
  simp [decode, decodeVector, OpV2.word, Ty.fn, FmtV.word_op, FmtV.read_word, FmtV.v2, FmtV.typed, withReserved]
theorem vextr (o : OpVX) : Statement (.vextr o) := of_word rfl <| by
  simp [decode, decodeVector, OpVX.word, Ty.fn, FmtV.word_op, FmtV.read_word, FmtV.vx, FmtV.typed, withReserved]
theorem vins (o : OpVX) : Statement (.vins o) := of_word rfl <| by
  simp [decode, decodeVector, OpVX.word, Ty.fn, FmtV.word_op, FmtV.read_word, FmtV.vx, FmtV.typed, withReserved]
theorem mand (o : OpM3) : Statement (.mand o) := of_word rfl <| by
  simp [decode, decodeVector, OpM3.word, FmtV.word_op, FmtV.read_word, FmtV.maskGroup, withReserved, maskField, maskOf, maskHi]
theorem mor (o : OpM3) : Statement (.mor o) := of_word rfl <| by
  simp [decode, decodeVector, OpM3.word, FmtV.word_op, FmtV.read_word, FmtV.maskGroup, withReserved, maskField, maskOf, maskHi]
theorem mxor (o : OpM3) : Statement (.mxor o) := of_word rfl <| by
  simp [decode, decodeVector, OpM3.word, FmtV.word_op, FmtV.read_word, FmtV.maskGroup, withReserved, maskField, maskOf, maskHi]
theorem mnot (d a : BitVec 3) : Statement (.mnot d a) := of_word rfl <| by
  simp [decode, decodeVector, FmtV.word_op, FmtV.read_word, FmtV.maskGroup, withReserved, maskField, maskOf, maskHi]
theorem mpop (d : VReg) (a : BitVec 3) : Statement (.mpop d a) := of_word rfl <| by
  simp [decode, decodeVector, FmtV.word_op, FmtV.read_word, FmtV.maskGroup, withReserved, maskField, maskOf, maskHi]
theorem mfirst (d : VReg) (a : BitVec 3) : Statement (.mfirst d a) := of_word rfl <| by
  simp [decode, decodeVector, FmtV.word_op, FmtV.read_word, FmtV.maskGroup, withReserved, maskField, maskOf, maskHi]
theorem vwidth (d : VReg) (ea : Bool) : Statement (.vwidth d ea) := of_word rfl <| by
  simp [decode, decodeVector, FmtV.word_op, FmtV.read_word, FmtV.maskGroup, withReserved]
theorem ldB (o : OpMem) : Statement (.ldB o) := of_word rfl <| by
  simp [decode, decodeMemory, OpMem.word, FmtM.word_op, FmtM.read_word, FmtM.mem]
theorem ldH (o : OpMem) : Statement (.ldH o) := of_word rfl <| by
  simp [decode, decodeMemory, OpMem.word, FmtM.word_op, FmtM.read_word, FmtM.mem]
theorem ldW (o : OpMem) : Statement (.ldW o) := of_word rfl <| by
  simp [decode, decodeMemory, OpMem.word, FmtM.word_op, FmtM.read_word, FmtM.mem]
theorem ldD (o : OpMem) : Statement (.ldD o) := of_word rfl <| by
  simp [decode, decodeMemory, OpMem.word, FmtM.word_op, FmtM.read_word, FmtM.mem]
theorem stB (o : OpMem) : Statement (.stB o) := of_word rfl <| by
  simp [decode, decodeMemory, OpMem.word, FmtM.word_op, FmtM.read_word, FmtM.mem]
theorem stH (o : OpMem) : Statement (.stH o) := of_word rfl <| by
  simp [decode, decodeMemory, OpMem.word, FmtM.word_op, FmtM.read_word, FmtM.mem]
theorem stW (o : OpMem) : Statement (.stW o) := of_word rfl <| by
  simp [decode, decodeMemory, OpMem.word, FmtM.word_op, FmtM.read_word, FmtM.mem]
theorem stD (o : OpMem) : Statement (.stD o) := of_word rfl <| by
  simp [decode, decodeMemory, OpMem.word, FmtM.word_op, FmtM.read_word, FmtM.mem]
theorem ldv (o : OpMem) : Statement (.ldv o) := of_word rfl <| by
  simp [decode, decodeMemory, OpMem.word, FmtM.word_op, FmtM.read_word, FmtM.mem]
theorem stv (o : OpMem) : Statement (.stv o) := of_word rfl <| by
  simp [decode, decodeMemory, OpMem.word, FmtM.word_op, FmtM.read_word, FmtM.mem]
theorem ldg (o : OpGath) : Statement (.ldg o) := of_word rfl <| by
  simp [decode, decodeMemory, OpGath.word, FmtM.word_op, FmtM.read_word, FmtM.gath]
theorem stg (o : OpGath) : Statement (.stg o) := of_word rfl <| by
  simp [decode, decodeMemory, OpGath.word, FmtM.word_op, FmtM.read_word, FmtM.gath]
theorem ldf (o : OpMem) : Statement (.ldf o) := of_word rfl <| by
  simp [decode, decodeMemory, OpMem.word, FmtM.word_op, FmtM.read_word, FmtM.mem]
theorem ldp (o : OpMem) : Statement (.ldp o) := of_word rfl <| by
  simp [decode, decodeMemory, OpMem.word, FmtM.word_op, FmtM.read_word, FmtM.mem]
theorem ste (o : OpMem) : Statement (.ste o) := of_word rfl <| by
  simp [decode, decodeMemory, OpMem.word, FmtM.word_op, FmtM.read_word, FmtM.mem]
theorem stx (o : OpStx) : Statement (.stx o) := of_word rfl <| by
  simp [decode, decodeMemory, FmtM.word_op, FmtM.read_word]
theorem xbar (rect : Bool) : Statement (.xbar rect) := of_word rfl <| by
  simp [decode, decodeMemory, modeWord, fnBit, FmtR.word_op, FmtR.read_word, FmtR.bit, withReserved]
theorem amo (o : OpAmo) : Statement (.amo o) := of_word rfl <| by
  simp [decode, decodeMemory, OpAmo.word, FmtR.word_op, FmtR.read_word, FmtR.amoFn]
theorem amoC (o : OpAmo) : Statement (.amoC o) := of_word rfl <| by
  simp [decode, decodeMemory, OpAmo.word, FmtR.word_op, FmtR.read_word, FmtR.amoFn]
theorem stOp (o : OpSt) : Statement (.stOp o) := of_word rfl <| by
  simp [decode, decodeMemory, OpSt.word, FmtR.word_op, FmtR.read_word, FmtR.amoFn, withReserved]
theorem stOpC (o : OpSt) : Statement (.stOpC o) := of_word rfl <| by
  simp [decode, decodeMemory, OpSt.word, FmtR.word_op, FmtR.read_word, FmtR.amoFn, withReserved]
theorem dqpush (o : OpPush) : Statement (.dqpush o) := of_word rfl <| by
  simp [decode, decodeMemory, FmtR.word_op, FmtR.read_word, withReserved]
theorem dqpop (o : OpPop) : Statement (.dqpop o) := of_word rfl <| by
  simp [decode, decodeMemory, OpPop.word, FmtR.word_op, FmtR.read_word, withReserved]
theorem dqsteal (o : OpPop) : Statement (.dqsteal o) := of_word rfl <| by
  simp [decode, decodeMemory, OpPop.word, FmtR.word_op, FmtR.read_word, withReserved]
theorem chget (o : OpGet) : Statement (.chget o) := of_word rfl <| by
  simp [decode, decodeMemory, chImm, FmtI.word_op, FmtI.read_word, FmtI.chan, FmtI.ch, FmtI.chv, withReserved]
theorem chpeek (o : OpPeek) : Statement (.chpeek o) := of_word rfl <| by
  simp [decode, decodeMemory, chImm, FmtI.word_op, FmtI.read_word, FmtI.chan, FmtI.ch, FmtI.chv, withReserved]
theorem chput (o : OpPut) : Statement (.chput o) := of_word rfl <| by
  simp [decode, decodeMemory, chImm, FmtI.word_op, FmtI.read_word, FmtI.chan, FmtI.ch, FmtI.chv, withReserved]
theorem chstat (o : OpStat) : Statement (.chstat o) := of_word rfl <| by
  simp [decode, decodeMemory, chImm, FmtI.word_op, FmtI.read_word, FmtI.chan, FmtI.ch, FmtI.chv, withReserved]
theorem acq (o : OpSync) : Statement (.acq o) := of_word rfl <| by
  simp [decode, decodeSystem, OpSync.word, FmtR.word_op, FmtR.read_word, FmtR.zeroFn, withReserved]
theorem acqs (o : OpSync) : Statement (.acqs o) := of_word rfl <| by
  simp [decode, decodeSystem, OpSync.word, FmtR.word_op, FmtR.read_word, FmtR.zeroFn, withReserved]
theorem rel (o : OpSync) : Statement (.rel o) := of_word rfl <| by
  simp [decode, decodeSystem, OpSync.word, FmtR.word_op, FmtR.read_word, FmtR.zeroFn, withReserved]
theorem fence (e : Bool) (kind : FenceKind) (scope : Scope) : Statement (.fence e kind scope) := of_word rfl <| by
  simp [decode, decodeSystem, FmtI.word_op, FmtI.read_word, withReserved]
theorem waita (o : OpWaita) : Statement (.waita o) := of_word rfl <| by
  simp [decode, decodeSystem, FmtR.word_op, FmtR.read_word, withReserved]
theorem bar (rect : Bool) : Statement (.bar rect) := of_word rfl <| by
  simp [decode, decodeSystem, modeWord, fnBit, FmtR.word_op, FmtR.read_word, FmtR.bit, withReserved]
theorem scmd (o : OpCmd) : Statement (.scmd o) := of_word rfl <| by
  simp [decode, decodeSystem, OpCmd.word, FmtR.word_op, FmtR.read_word]
theorem scmdw (o : OpCmd) : Statement (.scmdw o) := of_word rfl <| by
  simp [decode, decodeSystem, OpCmd.word, FmtR.word_op, FmtR.read_word]
theorem trap (code : BitVec 8) : Statement (.trap code) := of_word rfl <| by
  simp [decode, decodeSystem, jCode, FmtJ.word_op, FmtJ.read_word, FmtJ.coded, withReserved]
theorem eret : Statement .eret := of_word rfl rfl
theorem rply : Statement .rply := of_word rfl rfl
theorem rplys : Statement .rplys := of_word rfl rfl
theorem sysc (code : BitVec 8) : Statement (.sysc code) := of_word rfl <| by
  simp [decode, decodeSystem, jCode, FmtJ.word_op, FmtJ.read_word, FmtJ.coded, withReserved]
theorem halt : Statement .halt := of_word rfl rfl
theorem bkpt (code : BitVec 8) : Statement (.bkpt code) := of_word rfl <| by
  simp [decode, decodeSystem, jCode, FmtJ.word_op, FmtJ.read_word, FmtJ.coded, withReserved]
theorem cntrd (d : SReg) (n : BitVec 3) : Statement (.cntrd d n) := of_word rfl <| by
  simp [decode, decodeSystem, FmtI.word_op, FmtI.read_word, withReserved]
theorem cntcfg (a : SReg) (ea : Bool) (n : BitVec 3) : Statement (.cntcfg a ea n) := of_word rfl <| by
  simp [decode, decodeSystem, FmtI.word_op, FmtI.read_word, withReserved]
theorem carve (o : OpR2) : Statement (.carve o) := of_word rfl <| by
  simp [decode, decodeSystem, OpR2.word, FmtR.word_op, FmtR.read_word, FmtR.zeroFn, FmtR.r2, withReserved]
theorem idle : Statement .idle := of_word rfl rfl
theorem cCopy (src : CtxId) (w : CWord) : Statement (.cCopy src w) := of_none rfl
theorem cCopyr (src : CtxId) (w : CWord) : Statement (.cCopyr src w) := of_none rfl
theorem cGath (src : CtxId) (w : CWord) : Statement (.cGath src w) := of_none rfl
theorem cScat (src : CtxId) (w : CWord) : Statement (.cScat src w) := of_none rfl
theorem cFill (src : CtxId) (w : CWord) : Statement (.cFill src w) := of_none rfl
theorem cConv (src : CtxId) (w : CWord) : Statement (.cConv src w) := of_none rfl
theorem cBind (src : CtxId) (w : CWord) : Statement (.cBind src w) := of_none rfl
theorem cUnbind (src : CtxId) (w : CWord) : Statement (.cUnbind src w) := of_none rfl
theorem cStream (src : CtxId) (w : CWord) : Statement (.cStream src w) := of_none rfl
theorem cTtask (src : CtxId) (w : CWord) : Statement (.cTtask src w) := of_none rfl
theorem cMma (src : CtxId) (w : CWord) : Statement (.cMma src w) := of_none rfl
theorem cAccsv (src : CtxId) (w : CWord) : Statement (.cAccsv src w) := of_none rfl
theorem cAccld (src : CtxId) (w : CWord) : Statement (.cAccld src w) := of_none rfl
theorem cPref (src : CtxId) (w : CWord) : Statement (.cPref src w) := of_none rfl
theorem cFlush (src : CtxId) (w : CWord) : Statement (.cFlush src w) := of_none rfl
theorem cLaunch (src : CtxId) (w : CWord) : Statement (.cLaunch src w) := of_none rfl
theorem cJoin (src : CtxId) (w : CWord) : Statement (.cJoin src w) := of_none rfl
theorem cFree (src : CtxId) (w : CWord) : Statement (.cFree src w) := of_none rfl
theorem engineCommandStart : Statement .engineCommandStart := of_none rfl
theorem copyChunkLand : Statement .copyChunkLand := of_none rfl
theorem engineCommandComplete : Statement .engineCommandComplete := of_none rfl
theorem engineCommandError : Statement .engineCommandError := of_none rfl
theorem nodeSourceDeliver : Statement .nodeSourceDeliver := of_none rfl
theorem nodeReadResponse : Statement .nodeReadResponse := of_none rfl
theorem nodeSinkWrite : Statement .nodeSinkWrite := of_none rfl
theorem nodeRequestElement : Statement .nodeRequestElement := of_none rfl
theorem nodeStreamEnd : Statement .nodeStreamEnd := of_none rfl
theorem carveRepartition : Statement .carveRepartition := of_none rfl
theorem firingStart : Statement .firingStart := of_none rfl
theorem firingOverrun : Statement .firingOverrun := of_none rfl
theorem channelTokenArrival : Statement .channelTokenArrival := of_none rfl
theorem commitMarkArrival : Statement .commitMarkArrival := of_none rfl
theorem creditArrival : Statement .creditArrival := of_none rfl
theorem eosConsume : Statement .eosConsume := of_none rfl
theorem cellWake : Statement .cellWake := of_none rfl
theorem borderTokenRefuse : Statement .borderTokenRefuse := of_none rfl
theorem ctlStartPulse : Statement .ctlStartPulse := of_none rfl
theorem ctlDonePulse : Statement .ctlDonePulse := of_none rfl
theorem replyArrival : Statement .replyArrival := of_none rfl
theorem ackArrival : Statement .ackArrival := of_none rfl
theorem retryResend : Statement .retryResend := of_none rfl
theorem homeReadWrite : Statement .homeReadWrite := of_none rfl
theorem homeAtomic : Statement .homeAtomic := of_none rfl
theorem homeDequeOp : Statement .homeDequeOp := of_none rfl
theorem homeAcquireRequest : Statement .homeAcquireRequest := of_none rfl
theorem homeRelease : Statement .homeRelease := of_none rfl
theorem homeWaitaRequest : Statement .homeWaitaRequest := of_none rfl
theorem waitaHostPoll : Statement .waitaHostPoll := of_none rfl
theorem scratchpadPortAccess : Statement .scratchpadPortAccess := of_none rfl
theorem presencePortRequest : Statement .presencePortRequest := of_none rfl
theorem xbarArrival : Statement .xbarArrival := of_none rfl
theorem barArrival : Statement .barArrival := of_none rfl
theorem withdrawalArrival : Statement .withdrawalArrival := of_none rfl
theorem purgeArrival : Statement .purgeArrival := of_none rfl
theorem combineAtSwitch : Statement .combineAtSwitch := of_none rfl
theorem combineWaitExpiry : Statement .combineWaitExpiry := of_none rfl
theorem combinedReplySplit : Statement .combinedReplySplit := of_none rfl
theorem urgentPacketEvict : Statement .urgentPacketEvict := of_none rfl
theorem evictionResend : Statement .evictionResend := of_none rfl
theorem packetPromotion : Statement .packetPromotion := of_none rfl
theorem shareWindowRoll : Statement .shareWindowRoll := of_none rfl
theorem pageWalkDone : Statement .pageWalkDone := of_none rfl
theorem configWritten : Statement .configWritten := of_none rfl
theorem armCheck : Statement .armCheck := of_none rfl
theorem rectSinksDone : Statement .rectSinksDone := of_none rfl
theorem completionSignalWrite : Statement .completionSignalWrite := of_none rfl
theorem rectOverrun : Statement .rectOverrun := of_none rfl
theorem cutRequest : Statement .cutRequest := of_none rfl
theorem cutTokenArrival : Statement .cutTokenArrival := of_none rfl
theorem stopAckArrival : Statement .stopAckArrival := of_none rfl
theorem reelWrite : Statement .reelWrite := of_none rfl
theorem faultEvent : Statement .faultEvent := of_none rfl
theorem freezeArrival : Statement .freezeArrival := of_none rfl
theorem drainLimitExpiry : Statement .drainLimitExpiry := of_none rfl
theorem moveStart : Statement .moveStart := of_none rfl
theorem autoRestore : Statement .autoRestore := of_none rfl
theorem slateIssueTask : Statement .slateIssueTask := of_none rfl
theorem rowHalfKstep : Statement .rowHalfKstep := of_none rfl
theorem tileTaskEnd : Statement .tileTaskEnd := of_none rfl
theorem tileTaskOverrun : Statement .tileTaskOverrun := of_none rfl
theorem slatePreempt : Statement .slatePreempt := of_none rfl
theorem hostCxlRead : Statement .hostCxlRead := of_none rfl
theorem hostCxlWrite : Statement .hostCxlWrite := of_none rfl
theorem hostAtomic : Statement .hostAtomic := of_none rfl
theorem lqTailDoorbell : Statement .lqTailDoorbell := of_none rfl
theorem lqHeadWrite : Statement .lqHeadWrite := of_none rfl
theorem lqCtlWrite : Statement .lqCtlWrite := of_none rfl
theorem launchRecordRead : Statement .launchRecordRead := of_none rfl
theorem fqHeadDoorbell : Statement .fqHeadDoorbell := of_none rfl
theorem fqCtlWrite : Statement .fqCtlWrite := of_none rfl
theorem fqResumeWrite : Statement .fqResumeWrite := of_none rfl
theorem fqInvcntWrite : Statement .fqInvcntWrite := of_none rfl
theorem invalidationDone : Statement .invalidationDone := of_none rfl
theorem cntWrite : Statement .cntWrite := of_none rfl
theorem cntselWrite : Statement .cntselWrite := of_none rfl
theorem writeRegionEntry : Statement .writeRegionEntry := of_none rfl
theorem writeFormatWindow : Statement .writeFormatWindow := of_none rfl
theorem resumeContext : Statement .resumeContext := of_none rfl
theorem attestReport : Statement .attestReport := of_none rfl
theorem keyCertificate : Statement .keyCertificate := of_none rfl
theorem cinderReading : Statement .cinderReading := of_none rfl
theorem cinderReadingPf : Statement .cinderReadingPf := of_none rfl
theorem firmwareStage : Statement .firmwareStage := of_none rfl
theorem leaseCreate : Statement .leaseCreate := of_none rfl
theorem leaseDestroy : Statement .leaseDestroy := of_none rfl
theorem grantRow : Statement .grantRow := of_none rfl
theorem revokeRow : Statement .revokeRow := of_none rfl
theorem preempt : Statement .preempt := of_none rfl
theorem restore : Statement .restore := of_none rfl
theorem leaseFree : Statement .leaseFree := of_none rfl
theorem dump : Statement .dump := of_none rfl
theorem leaseSchedWrite : Statement .leaseSchedWrite := of_none rfl
theorem leasePtWrite : Statement .leasePtWrite := of_none rfl
theorem devPwrWrite : Statement .devPwrWrite := of_none rfl
theorem registerWrite : Statement .registerWrite := of_none rfl
theorem mctpStatusQuery : Statement .mctpStatusQuery := of_none rfl
theorem coldPowerUp : Statement .coldPowerUp := of_none rfl
theorem warmReset : Statement .warmReset := of_none rfl
theorem bringupStageComplete : Statement .bringupStageComplete := of_none rfl
theorem bringupStageTimeout : Statement .bringupStageTimeout := of_none rfl
theorem cinderSample : Statement .cinderSample := of_none rfl
theorem powerPacingTick : Statement .powerPacingTick := of_none rfl
theorem junctionTrip : Statement .junctionTrip := of_none rfl
theorem coolantFlowLow : Statement .coolantFlowLow := of_none rfl
theorem softErrorDetected : Statement .softErrorDetected := of_none rfl
theorem linkRetransmission : Statement .linkRetransmission := of_none rfl

end Sys2Proof.Laws.RoundTrip
end

