-- ==== Sys2Proof/Tests/Slice0.lean ====
section
/-! SUPPORT. Tests: the well-formedness checks, words written out from the spec's encodings, single steps, and a witness for the hypotheses of
each statement. -/

namespace Sys2Proof.Tests

set_option Elab.async false

open Sys2Proof Sys2Proof.Machine

/-! ### Words of the seven formats, field by field at the bit positions of R91 -/

def fmtR (op d a b ea eb fn : Nat) : BitVec 32 := BitVec.ofNat 32 (op * 2 ^ 24 + d * 2 ^ 18 + a * 2 ^ 12 + b * 2 ^ 6 + ea * 2 ^ 5 + eb * 2 ^ 4 + fn)
def fmtI (op d a ea imm : Nat) : BitVec 32 := BitVec.ofNat 32 (op * 2 ^ 24 + d * 2 ^ 18 + a * 2 ^ 12 + ea * 2 ^ 11 + imm)
def fmtU (op d imm : Nat) : BitVec 32 := BitVec.ofNat 32 (op * 2 ^ 24 + d * 2 ^ 18 + imm)
def fmtB (op a b off : Nat) : BitVec 32 := BitVec.ofNat 32 (op * 2 ^ 24 + a * 2 ^ 18 + b * 2 ^ 12 + off)
def fmtJ (op off : Nat) : BitVec 32 := BitVec.ofNat 32 (op * 2 ^ 24 + off)
def fmtV (op vd va vb m ea fn : Nat) : BitVec 32 :=
  BitVec.ofNat 32 (op * 2 ^ 24 + vd * 2 ^ 19 + va * 2 ^ 14 + vb * 2 ^ 9 + m * 2 ^ 6 + ea * 2 ^ 5 + fn)
def fmtM (op d base ea sp imm : Nat) : BitVec 32 :=
  BitVec.ofNat 32 (op * 2 ^ 24 + d * 2 ^ 18 + base * 2 ^ 12 + ea * 2 ^ 11 + sp * 2 ^ 9 + imm)

/-- A word decodes to an instruction. -/
def decodes (w : BitVec 32) (i : Instr) : Bool :=
  match decode w with
  | .ok j => j == i
  | .error _ => false
/-- A word is refused by a check. -/
def refuses (w : BitVec 32) (e : Illegal) : Bool :=
  match decode w with
  | .ok i => defect i == some e
  | .error f => f == e

/-! ### Well-formedness: one ill-formed instruction for each check (R58, R97, R98, R104 to R108, R148, R164) -/

/-- Each of these breaks one check on a task instruction. -/
def illFormed : List Instr :=
  [.add ⟨61, 1, 2, false, false⟩, .lui 63 0, .extImm ⟨1, 2, false, 31, 33⟩, .extImm ⟨61, 2, false, 0, 0⟩, .loop ⟨1, false, 0⟩,
   .loopx ⟨1, false, 1024⟩, .marke ⟨0, false, false, false⟩, .markf ⟨60, false, false, false⟩, .marke ⟨30, true, false, false⟩,
   .testf ⟨5, 32, 0, true, false, false⟩, .testf ⟨61, 1, 0, false, false, false⟩, .waitf ⟨32, true, false, false⟩,
   .waitm ⟨0, 48, 1, false, false, false⟩, .mfs 5 false 0x004, .mfs 61 false 0x001, .mts 5 false 0x001,
   .fcvt ⟨5, 6, .s32, .z64, false, .rne⟩, .fcvt ⟨5, 6, .f32, .f32, false, .rne⟩, .vadd ⟨1, 2, 3, 0, false, .f32⟩,
   .vadd ⟨31, 2, 3, 0, false, .s32⟩, .vabs ⟨1, 2, 0, false, .z8⟩, .vcmp ⟨.eq, 1, 2, 3, 0, false, .s16⟩,
   .vfcmp ⟨.eq, 1, 2, 3, 0, false, .f16⟩, .vfadd ⟨1, 2, 3, 0, false, .e4m3⟩, .vfrcp ⟨1, 2, 0, false, .f64⟩,
   .vcvt ⟨1, 2, 0, false, .f32, .f32⟩, .vcvt ⟨1, 2, 0, false, .fp4b, .f32⟩, .vquant ⟨1, 2, 0, false, .fp4b, .f64⟩,
   .vdeq ⟨1, 2, 0, false, .f64, .fp4b⟩, .vdot ⟨1, 2, 3, 0, false, .f32⟩, .vbdot ⟨1, 2, 3, 0, false, .e2m1⟩,
   .vredadd ⟨1, 2, 0, false, .e5m2⟩, .vscan ⟨1, 2, 0, false, .bf16⟩, .vshuf ⟨1, 2, 3, 0, false, .rev⟩,
   .vins ⟨31, 1, 2, false, .s32⟩, .ldB ⟨5, 6, false, .x, 0⟩, .ldD ⟨60, 6, false, .g, 0⟩, .stW ⟨5, 6, false, .x, 0⟩,
   .ldv ⟨30, 6, false, .g, 0⟩, .ldv ⟨31, 6, false, .p, 0⟩, .ldv ⟨1, 6, false, .x, 0⟩, .stv ⟨32, 6, false, .p, 0⟩,
   .ldg ⟨30, 6, false, false, 0, 1⟩, .stg ⟨32, 6, false, false, 0, 1⟩, .ldf ⟨5, 6, false, .g, 0⟩, .ldp ⟨60, 6, false, .p, 0⟩,
   .ste ⟨5, 6, false, .x, 0⟩, .amo ⟨60, 1, 2, false, false, .add⟩, .amoC ⟨5, 1, 2, false, false, .swap⟩, .stOp ⟨1, 2, false, false, .cas⟩,
   .dqpop ⟨60, 1, false, false, 0⟩, .chget ⟨60, false, false, 0⟩, .chget ⟨30, false, true, 0⟩, .chput ⟨32, false, true, 0⟩,
   .scmd ⟨60, 1, 2, false, false, 0⟩, .scmdw ⟨0, 1, 2, false, false, 0⟩, .cntrd 62 0, .carve ⟨61, 1, false⟩]

theorem test_wf_refuses : ∀ i ∈ illFormed, Instr.wf i = false := by decide
/-- A command that stands under another CMDOP than its word's, or that no context can have issued. -/
theorem test_wf_refuses_commands :
    Instr.wf (.cCopy ⟨0, 0, 0, 0⟩ (0x02#128 <<< 120)) = false ∧ Instr.wf (.cFree ⟨1024, 0, 0, 0⟩ (0x22#128 <<< 120)) = false ∧
    Instr.wf (.cFree ⟨0, 128, 0, 0⟩ (0x22#128 <<< 120)) = false ∧ Instr.wf (.cFree ⟨0, 0, 64, 0⟩ (0x22#128 <<< 120)) = false ∧
    Instr.wf (.cFree ⟨0, 0, 0, 4⟩ (0x22#128 <<< 120)) = false ∧ Instr.wf (.cFree ⟨1023, 127, 63, 3⟩ (0x22#128 <<< 120)) = true := by decide

/-! ### Decoding: words written out from the tables of R96 to R113 -/

/-- Opcode 0x01 (R96). -/
theorem test_decode_scalar_arithmetic : ∀ p ∈ ([
    (fmtR 0x01 5 6 48 0 0 0x0, .add ⟨5, 6, 48, false, false⟩),
    (fmtR 0x01 6 6 48 1 0 0x1, .sub ⟨6, 6, 48, true, false⟩),
    (fmtR 0x01 7 6 48 0 1 0x2, .and ⟨7, 6, 48, false, true⟩),
    (fmtR 0x01 8 6 48 1 1 0x3, .or ⟨8, 6, 48, true, true⟩),
    (fmtR 0x01 9 6 48 0 0 0x4, .xor ⟨9, 6, 48, false, false⟩),
    (fmtR 0x01 10 6 48 1 0 0x5, .andn ⟨10, 6, 48, true, false⟩),
    (fmtR 0x01 11 6 48 0 1 0x6, .shl ⟨11, 6, 48, false, true⟩),
    (fmtR 0x01 12 6 48 1 1 0x7, .shr ⟨12, 6, 48, true, true⟩),
    (fmtR 0x01 13 6 48 0 0 0x8, .sha ⟨13, 6, 48, false, false⟩),
    (fmtR 0x01 14 6 48 1 0 0x9, .rot ⟨14, 6, 48, true, false⟩),
    (fmtR 0x01 15 6 48 0 1 0xa, .min ⟨15, 6, 48, false, true⟩),
    (fmtR 0x01 16 6 48 1 1 0xb, .max ⟨16, 6, 48, true, true⟩),
    (fmtR 0x01 17 6 48 0 0 0xc, .minz ⟨17, 6, 48, false, false⟩),
    (fmtR 0x01 18 6 48 1 0 0xd, .maxz ⟨18, 6, 48, true, false⟩),
    (fmtR 0x01 19 6 48 0 1 0xe, .sel ⟨19, 6, 48, false, true⟩)
    ] : List (BitVec 32 × Instr)), decodes p.1 p.2 = true := by decide

/-- Opcodes 0x02 and 0x03 (R96). -/
theorem test_decode_multiply_and_unary : ∀ p ∈ ([
    (fmtR 0x02 47 60 59 1 0 0x0, .mul ⟨47, 60, 59, true, false⟩),
    (fmtR 0x02 47 60 59 1 0 0x1, .mulh ⟨47, 60, 59, true, false⟩),
    (fmtR 0x02 47 60 59 1 0 0x2, .mulhz ⟨47, 60, 59, true, false⟩),
    (fmtR 0x02 47 60 59 1 0 0x3, .div ⟨47, 60, 59, true, false⟩),
    (fmtR 0x02 47 60 59 1 0 0x4, .divz ⟨47, 60, 59, true, false⟩),
    (fmtR 0x02 47 60 59 1 0 0x5, .rem ⟨47, 60, 59, true, false⟩),
    (fmtR 0x02 47 60 59 1 0 0x6, .remz ⟨47, 60, 59, true, false⟩),
    (fmtR 0x02 47 60 59 1 0 0x7, .mads ⟨47, 60, 59, true, false⟩),
    (fmtR 0x03 60 63 0 1 0 0x0, .clz ⟨60, 63, true⟩),
    (fmtR 0x03 60 63 0 1 0 0x1, .ctz ⟨60, 63, true⟩),
    (fmtR 0x03 60 63 0 1 0 0x2, .pop ⟨60, 63, true⟩),
    (fmtR 0x03 60 63 0 1 0 0x3, .brev ⟨60, 63, true⟩),
    (fmtR 0x03 60 63 0 1 0 0x4, .bswap ⟨60, 63, true⟩),
    (fmtR 0x03 1 2 3 0 1 0x5, .ext ⟨1, 2, 3, false, true⟩),
    (fmtR 0x03 1 2 3 0 1 0x6, .ins ⟨1, 2, 3, false, true⟩)
    ] : List (BitVec 32 × Instr)), decodes p.1 p.2 = true := by decide

/-- Opcodes 0x04 and 0x05 (R96). -/
theorem test_decode_compare_and_address : ∀ p ∈ ([
    (fmtR 0x04 9 10 11 1 1 0x0, .cmpEq ⟨9, 10, 11, true, true⟩),
    (fmtR 0x04 9 10 11 1 1 0x1, .cmpNe ⟨9, 10, 11, true, true⟩),
    (fmtR 0x04 9 10 11 1 1 0x2, .cmpLt ⟨9, 10, 11, true, true⟩),
    (fmtR 0x04 9 10 11 1 1 0x3, .cmpGe ⟨9, 10, 11, true, true⟩),
    (fmtR 0x04 9 10 11 1 1 0x4, .cmpLtz ⟨9, 10, 11, true, true⟩),
    (fmtR 0x04 9 10 11 1 1 0x5, .cmpGez ⟨9, 10, 11, true, true⟩),
    (fmtR 0x05 9 10 11 0 0 0x2, .lea ⟨9, 10, 11, false, false⟩ 2),
    (fmtR 0x05 9 10 11 0 0 0x7, .agen2 ⟨9, 10, 11, false, false⟩ 3),
    (fmtR 0x05 9 10 11 0 0 0x8, .bound ⟨9, 10, 11, false, false⟩)
    ] : List (BitVec 32 × Instr)), decodes p.1 p.2 = true := by decide

/-- Opcodes 0x10 to 0x30 (R97). -/
theorem test_decode_immediates : ∀ p ∈ ([
    (fmtI 0x10 5 6 1 0x7fe, .addImm ⟨5, 6, true, 0x7FE⟩),
    (fmtI 0x11 5 6 1 0x7fe, .andImm ⟨5, 6, true, 0x7FE⟩),
    (fmtI 0x12 5 6 1 0x7fe, .orImm ⟨5, 6, true, 0x7FE⟩),
    (fmtI 0x13 5 6 1 0x7fe, .xorImm ⟨5, 6, true, 0x7FE⟩),
    (fmtI 0x14 5 6 0 0x3f, .shlImm ⟨5, 6, false, 63⟩),
    (fmtI 0x15 5 6 0 0x3f, .shrImm ⟨5, 6, false, 63⟩),
    (fmtI 0x16 5 6 0 0x3f, .shaImm ⟨5, 6, false, 63⟩),
    (fmtI 0x17 5 6 0 0x3f, .rotImm ⟨5, 6, false, 63⟩),
    (fmtI 0x18 5 6 0 0x401, .mulImm ⟨5, 6, false, 0x401⟩),
    (fmtI 0x19 5 6 0 0x401, .minImm ⟨5, 6, false, 0x401⟩),
    (fmtI 0x1a 5 6 0 0x401, .maxImm ⟨5, 6, false, 0x401⟩),
    (fmtI 0x1b 5 6 0 0x401, .cmpEqImm ⟨5, 6, false, 0x401⟩),
    (fmtI 0x1c 5 6 0 0x401, .cmpNeImm ⟨5, 6, false, 0x401⟩),
    (fmtI 0x1d 5 6 0 0x401, .cmpLtImm ⟨5, 6, false, 0x401⟩),
    (fmtI 0x1e 5 6 0 0x401, .cmpGeImm ⟨5, 6, false, 0x401⟩),
    (fmtI 0x1f 5 6 0 0x401, .cmpLtzImm ⟨5, 6, false, 0x401⟩),
    (fmtI 0x20 5 6 0 0x401, .cmpGezImm ⟨5, 6, false, 0x401⟩),
    (fmtI 0x21 5 6 0 0x1f8, .extImm ⟨5, 6, false, 7, 56⟩),
    (fmtI 0x22 5 6 0 0x1f8, .insImm ⟨5, 6, false, 7, 56⟩),
    (fmtU 0x30 5 0x20001, .lui 5 0x20001)
    ] : List (BitVec 32 × Instr)), decodes p.1 p.2 = true := by decide

/-- Opcodes 0x40 to 0x54 (R98). -/
theorem test_decode_control : ∀ p ∈ ([
    (fmtB 0x40 5 48 0xffe, .bccEq ⟨5, 48, 0xFFE⟩),
    (fmtB 0x41 5 48 0xffe, .bccNe ⟨5, 48, 0xFFE⟩),
    (fmtB 0x42 5 48 0xffe, .bccLt ⟨5, 48, 0xFFE⟩),
    (fmtB 0x43 5 48 0xffe, .bccGe ⟨5, 48, 0xFFE⟩),
    (fmtB 0x44 5 48 0xffe, .bccLtz ⟨5, 48, 0xFFE⟩),
    (fmtB 0x45 5 48 0xffe, .bccGez ⟨5, 48, 0xFFE⟩),
    (fmtJ 0x46 0xfffffe, .j 0xFFE),
    (fmtJ 0x47 0x7fe, .jal 0x7FE),
    (fmtI 0x48 0 47 0 0x3, .jalr ⟨0, 47, false, 3⟩),
    (fmtI 0x49 0 6 1 0x3ff, .loop ⟨6, true, 1023⟩),
    (fmtI 0x4a 0 6 0 0x1, .loopx ⟨6, false, 1⟩),
    (fmtJ 0x4b 0x0, .done),
    (fmtJ 0x4c 0x0, .yield),
    (fmtR 0x4d 48 6 0 1 0 0x0, .movq ⟨48, 6, true, false⟩),
    (fmtR 0x4e 48 0 0 0 0 0x0, .marke ⟨48, false, false, false⟩),
    (fmtR 0x4f 24 0 0 0 0 0x1, .markf ⟨24, true, false, false⟩),
    (fmtR 0x50 5 48 0 0 0 0x0, .testf ⟨5, 48, 0, false, false, false⟩),
    (fmtR 0x51 0 24 0 1 0 0x1, .waitf ⟨24, true, true, false⟩),
    (fmtR 0x52 0 5 6 0 1 0x1, .waitm ⟨0, 5, 6, false, true, true⟩),
    (fmtI 0x53 5 0 0 0x28, .mfs 5 false 0x28),
    (fmtI 0x54 0 6 1 0x18, .mts 6 true 0x18)
    ] : List (BitVec 32 × Instr)), decodes p.1 p.2 = true := by decide

/-- Opcodes 0x60 to 0x6A (R99, R100). -/
theorem test_decode_scalar_floating_point : ∀ p ∈ ([
    (fmtR 0x60 5 6 7 1 0 0xc, .fadd ⟨5, 6, 7, true, false, true, .sr⟩),
    (fmtR 0x61 5 6 7 1 0 0xc, .fsub ⟨5, 6, 7, true, false, true, .sr⟩),
    (fmtR 0x62 5 6 7 1 0 0xc, .fmul ⟨5, 6, 7, true, false, true, .sr⟩),
    (fmtR 0x63 5 6 7 1 0 0xc, .fma ⟨5, 6, 7, true, false, true, .sr⟩),
    (fmtR 0x64 5 6 7 1 0 0xc, .fdiv ⟨5, 6, 7, true, false, true, .sr⟩),
    (fmtR 0x65 5 6 0 0 0 0x7, .fsqrt ⟨5, 6, false, false, false, .dyn⟩),
    (fmtR 0x66 5 6 7 0 0 0x8, .fmin ⟨5, 6, 7, false, false, true⟩),
    (fmtR 0x67 5 6 7 0 0 0x8, .fmax ⟨5, 6, 7, false, false, true⟩),
    (fmtR 0x68 5 6 7 0 0 0x2, .fcmp ⟨5, 6, 7, false, false, false, .le⟩),
    (fmtR 0x69 5 6 38 0 0 0x1, .fcvt ⟨5, 6, .f32, .bf16, false, .rtz⟩),
    (fmtR 0x6a 5 6 0 0 0 0x8, .fclass ⟨5, 6, false, false, true⟩)
    ] : List (BitVec 32 × Instr)), decodes p.1 p.2 = true := by decide

/-- Opcodes 0x80 to 0x90 (R101 to R103). -/
theorem test_decode_vector_integer : ∀ p ∈ ([
    (fmtV 0x80 1 24 3 5 1 0x4, .vadd ⟨1, 24, 3, 5, true, .s8⟩),
    (fmtV 0x81 1 24 3 5 1 0x4, .vsub ⟨1, 24, 3, 5, true, .s8⟩),
    (fmtV 0x82 1 24 3 5 1 0x4, .vmul ⟨1, 24, 3, 5, true, .s8⟩),
    (fmtV 0x83 1 24 3 5 1 0x4, .vmulh ⟨1, 24, 3, 5, true, .s8⟩),
    (fmtV 0x84 1 24 3 5 1 0x4, .vmad ⟨1, 24, 3, 5, true, .s8⟩),
    (fmtV 0x85 1 24 3 5 1 0x4, .vand ⟨1, 24, 3, 5, true, .s8⟩),
    (fmtV 0x86 1 24 3 5 1 0x4, .vor ⟨1, 24, 3, 5, true, .s8⟩),
    (fmtV 0x87 1 24 3 5 1 0x4, .vxor ⟨1, 24, 3, 5, true, .s8⟩),
    (fmtV 0x88 1 24 3 5 1 0x4, .vshl ⟨1, 24, 3, 5, true, .s8⟩),
    (fmtV 0x89 1 24 3 5 1 0x4, .vshr ⟨1, 24, 3, 5, true, .s8⟩),
    (fmtV 0x8a 1 24 3 5 1 0x4, .vsha ⟨1, 24, 3, 5, true, .s8⟩),
    (fmtV 0x8b 1 24 3 5 1 0x4, .vmin ⟨1, 24, 3, 5, true, .s8⟩),
    (fmtV 0x8c 1 24 3 5 1 0x4, .vmax ⟨1, 24, 3, 5, true, .s8⟩),
    (fmtV 0x8d 1 2 0 0 0 0x6, .vabs ⟨1, 2, 0, false, .s64⟩),
    (fmtV 0x8e 1 2 0 0 0 0x6, .vneg ⟨1, 2, 0, false, .s64⟩),
    (fmtV 0x8f 23 2 3 1 0 0x1, .vcmp ⟨.lt, 7, 2, 3, 1, false, .z32⟩),
    (fmtV 0x90 1 2 3 4 0 0xf, .vsel ⟨1, 2, 3, 4, false, .fp4b⟩)
    ] : List (BitVec 32 × Instr)), decodes p.1 p.2 = true := by decide

/-- Opcodes 0x91 to 0xA0 and 0xA9 (R101 to R103). -/
theorem test_decode_vector_floating_point : ∀ p ∈ ([
    (fmtV 0x91 1 2 3 5 1 0xb, .vfadd ⟨1, 2, 3, 5, true, .f16⟩),
    (fmtV 0x92 1 2 3 5 1 0xb, .vfsub ⟨1, 2, 3, 5, true, .f16⟩),
    (fmtV 0x93 1 2 3 5 1 0xb, .vfmul ⟨1, 2, 3, 5, true, .f16⟩),
    (fmtV 0x94 1 2 3 5 1 0xb, .vfma ⟨1, 2, 3, 5, true, .f16⟩),
    (fmtV 0x95 1 2 3 5 1 0xb, .vfms ⟨1, 2, 3, 5, true, .f16⟩),
    (fmtV 0x96 1 2 3 5 1 0xb, .vfnma ⟨1, 2, 3, 5, true, .f16⟩),
    (fmtV 0x97 1 2 3 5 1 0xb, .vfdiv ⟨1, 2, 3, 5, true, .f16⟩),
    (fmtV 0x9d 1 2 3 5 1 0xb, .vfmin ⟨1, 2, 3, 5, true, .f16⟩),
    (fmtV 0x9e 1 2 3 5 1 0xb, .vfmax ⟨1, 2, 3, 5, true, .f16⟩),
    (fmtV 0x98 1 2 0 5 1 0x8, .vfsqrt ⟨1, 2, 5, true, .f32⟩),
    (fmtV 0x99 1 2 0 5 1 0x8, .vfrcp ⟨1, 2, 5, true, .f32⟩),
    (fmtV 0x9a 1 2 0 5 1 0x8, .vfrsq ⟨1, 2, 5, true, .f32⟩),
    (fmtV 0x9b 1 2 0 5 1 0x8, .vfexp2 ⟨1, 2, 5, true, .f32⟩),
    (fmtV 0x9c 1 2 0 5 1 0x8, .vflog2 ⟨1, 2, 5, true, .f32⟩),
    (fmtV 0xa0 1 2 0 5 1 0x8, .vfclass ⟨1, 2, 5, true, .f32⟩),
    (fmtV 0xa9 1 2 0 5 1 0x8, .vscan ⟨1, 2, 5, true, .f32⟩),
    (fmtV 0x9f 26 2 3 1 0 0x9, .vfcmp ⟨.un, 2, 2, 3, 1, false, .f64⟩)
    ] : List (BitVec 32 × Instr)), decodes p.1 p.2 = true := by decide

/-- Opcodes 0xA1 to 0xB6 (R101 to R103). -/
theorem test_decode_vector_rest : ∀ p ∈ ([
    (fmtV 0xa1 1 2 11 5 1 0x0, .vcvt ⟨1, 2, 5, true, .f16, .s32⟩),
    (fmtV 0xa2 1 2 15 5 1 0x8, .vquant ⟨1, 2, 5, true, .fp4b, .f32⟩),
    (fmtV 0xa3 1 2 10 5 1 0xf, .vdeq ⟨1, 2, 5, true, .bf16, .fp4b⟩),
    (fmtV 0xa4 1 2 3 0 0 0xe, .vdot ⟨1, 2, 3, 0, false, .e2m1⟩),
    (fmtV 0xa5 1 2 3 0 0 0xf, .vbdot ⟨1, 2, 3, 0, false, .fp4b⟩),
    (fmtV 0xa6 31 2 0 3 1 0x8, .vredadd ⟨31, 2, 3, true, .f32⟩),
    (fmtV 0xa7 31 2 0 3 1 0x7, .vredmax ⟨31, 2, 3, true, .z64⟩),
    (fmtV 0xa8 31 2 0 3 1 0x5, .vredmin ⟨31, 2, 3, true, .z8⟩),
    (fmtV 0xaa 1 2 3 5 0 0x2, .vperm ⟨1, 2, 3, 5, false, .s16⟩),
    (fmtV 0xab 1 2 3 5 0 0x5, .vshuf ⟨1, 2, 3, 5, false, .cathi⟩),
    (fmtV 0xac 1 2 31 5 0 0x9, .vrot ⟨1, 2, 31, 5, false, .f64⟩),
    (fmtV 0xad 1 31 0 5 0 0xc, .vbcast ⟨1, 31, 5, false, .e4m3⟩),
    (fmtV 0xae 31 2 30 0 1 0xd, .vextr ⟨31, 2, 30, true, .e5m2⟩),
    (fmtV 0xaf 1 31 30 0 1 0x3, .vins ⟨1, 31, 30, true, .z16⟩),
    (fmtV 0xb0 1 2 3 0 0 0x0, .mand ⟨1, 2, 3⟩),
    (fmtV 0xb1 1 2 3 0 0 0x0, .mor ⟨1, 2, 3⟩),
    (fmtV 0xb2 1 2 3 0 0 0x0, .mxor ⟨1, 2, 3⟩),
    (fmtV 0xb3 1 2 0 0 0 0x0, .mnot 1 2),
    (fmtV 0xb4 31 2 0 0 0 0x0, .mpop 31 2),
    (fmtV 0xb5 31 2 0 0 0 0x0, .mfirst 31 2),
    (fmtV 0xb6 31 0 0 0 0 0x0, .vwidth 31 false)
    ] : List (BitVec 32 × Instr)), decodes p.1 p.2 = true := by decide

/-- Opcodes 0xC0 to 0xD0 (R104, R105). -/
theorem test_decode_memory : ∀ p ∈ ([
    (fmtM 0xc0 5 6 1 2 0x1ff, .ldB ⟨5, 6, true, .c, 0x1FF⟩),
    (fmtM 0xc1 5 6 1 2 0x1ff, .ldH ⟨5, 6, true, .c, 0x1FF⟩),
    (fmtM 0xc2 5 6 1 2 0x1ff, .ldW ⟨5, 6, true, .c, 0x1FF⟩),
    (fmtM 0xc3 5 6 1 2 0x1ff, .ldD ⟨5, 6, true, .c, 0x1FF⟩),
    (fmtM 0xc4 5 6 1 2 0x1ff, .stB ⟨5, 6, true, .c, 0x1FF⟩),
    (fmtM 0xc5 5 6 1 2 0x1ff, .stH ⟨5, 6, true, .c, 0x1FF⟩),
    (fmtM 0xc6 5 6 1 2 0x1ff, .stW ⟨5, 6, true, .c, 0x1FF⟩),
    (fmtM 0xc7 5 6 1 2 0x1ff, .stD ⟨5, 6, true, .c, 0x1FF⟩),
    (fmtM 0xc8 5 6 0 1 0x3, .ldv ⟨5, 6, false, .p, 3⟩),
    (fmtM 0xc9 5 6 0 0 0x3, .stv ⟨5, 6, false, .g, 3⟩),
    (fmtM 0xca 5 6 0 0 0x167, .ldg ⟨5, 6, false, true, 3, 7⟩),
    (fmtM 0xcb 5 6 0 0 0x67, .stg ⟨5, 6, false, false, 3, 7⟩),
    (fmtM 0xcc 5 6 0 1 0x3, .ldf ⟨5, 6, false, .p, 3⟩),
    (fmtM 0xcd 5 6 0 2 0x3, .ldp ⟨5, 6, false, .c, 3⟩),
    (fmtM 0xce 5 6 0 1 0x3, .ste ⟨5, 6, false, .p, 3⟩),
    (fmtM 0xcf 5 6 0 3 0x3, .stx ⟨5, 6, false, 3⟩),
    (fmtR 0xd0 0 0 0 0 0 0x1, .xbar true)
    ] : List (BitVec 32 × Instr)), decodes p.1 p.2 = true := by decide

/-- Opcodes 0xD1 to 0xE7 (R104, R106, R107). -/
theorem test_decode_atomics_and_synchronisation : ∀ p ∈ ([
    (fmtR 0xd1 5 6 7 1 0 0x9, .amo ⟨5, 6, 7, true, false, .cas⟩),
    (fmtR 0xd2 5 6 7 0 1 0xa, .amoC ⟨5, 6, 7, false, true, .fadd⟩),
    (fmtR 0xd3 0 6 7 0 0 0x7, .stOp ⟨6, 7, false, false, .maxz⟩),
    (fmtR 0xd4 0 6 7 0 0 0x0, .stOpC ⟨6, 7, false, false, .add⟩),
    (fmtR 0xd5 0 6 7 0 1 0x0, .dqpush ⟨6, 7, false, true, 0⟩),
    (fmtR 0xd6 5 6 0 1 0 0x0, .dqpop ⟨5, 6, true, false, 0⟩),
    (fmtR 0xd7 5 6 0 1 0 0x0, .dqsteal ⟨5, 6, true, false, 0⟩),
    (fmtI 0xd8 5 0 0 0xa, .chget ⟨5, false, true, 2⟩),
    (fmtI 0xd9 5 6 1 0x7, .chpeek ⟨5, 6, true, false, 7⟩),
    (fmtI 0xda 0 6 1 0x8, .chput ⟨6, true, true, 0⟩),
    (fmtI 0xdb 5 0 0 0xd, .chstat ⟨5, false, true, 5⟩),
    (fmtR 0xe0 0 6 0 1 0 0x0, .acq ⟨6, true⟩),
    (fmtR 0xe1 0 6 0 1 0 0x0, .acqs ⟨6, true⟩),
    (fmtR 0xe2 0 6 0 1 0 0x0, .rel ⟨6, true⟩),
    (fmtI 0xe3 0 0 0 0x13, .fence false .full .dev),
    (fmtR 0xe4 0 6 7 0 0 0xb, .waita ⟨6, 7, false, false, true, .slt⟩),
    (fmtR 0xe5 0 0 0 0 0 0x0, .bar false),
    (fmtR 0xe6 5 6 7 1 1 0xf, .scmd ⟨5, 6, 7, true, true, 15⟩),
    (fmtR 0xe7 5 6 7 0 0 0x1, .scmdw ⟨5, 6, 7, false, false, 1⟩)
    ] : List (BitVec 32 × Instr)), decodes p.1 p.2 = true := by decide

/-- Opcodes 0xF0 to 0xFA (R107). -/
theorem test_decode_system : ∀ p ∈ ([
    (fmtJ 0xf0 0x12, .trap 0x12),
    (fmtJ 0xf1 0x0, .eret),
    (fmtJ 0xf2 0x0, .rply),
    (fmtJ 0xf3 0x0, .rplys),
    (fmtJ 0xf4 0xff, .sysc 0xFF),
    (fmtJ 0xf5 0x0, .halt),
    (fmtJ 0xf6 0x1, .bkpt 1),
    (fmtI 0xf7 5 0 0 0x7, .cntrd 5 7),
    (fmtI 0xf8 0 6 1 0x3, .cntcfg 6 true 3),
    (fmtR 0xf9 5 6 0 1 0 0x0, .carve ⟨5, 6, true⟩),
    (fmtJ 0xfa 0x0, .idle)
    ] : List (BitVec 32 × Instr)), decodes p.1 p.2 = true := by decide

/-- The CMDOP of bits 127 to 120 of a command word names the command (R111, R113). -/
theorem test_decode_commands : ∀ p ∈ ([
    (0x01, .cCopy),
    (0x02, .cCopyr),
    (0x03, .cGath),
    (0x04, .cScat),
    (0x05, .cFill),
    (0x06, .cConv),
    (0x08, .cBind),
    (0x09, .cUnbind),
    (0x0a, .cStream),
    (0x10, .cTtask),
    (0x11, .cMma),
    (0x12, .cAccsv),
    (0x13, .cAccld),
    (0x18, .cPref),
    (0x19, .cFlush),
    (0x20, .cLaunch),
    (0x21, .cJoin),
    (0x22, .cFree)
    ] : List (Nat × (CtxId → CWord → Instr))),
    decodeTableWord 128 (p.1 * 2 ^ 120) = some (p.2 ⟨0, 0, 0, 0⟩ (BitVec.ofNat 128 (p.1 * 2 ^ 120))) := by decide

/-- Words that R108 refuses, with the check that refuses them. -/
theorem test_decode_refuses : ∀ p ∈ ([
    (0x00000000#32, .opcode),
    (0xFC000000#32, .opcode),
    (fmtR 0x01 5 6 7 0 0 0xf, .code),
    (fmtR 0x60 5 6 7 0 0 0x5, .code),
    (fmtV 0x91 1 2 3 0 0 0x0, .code),
    (fmtV 0x80 1 2 3 0 0 0x10, .code),
    (fmtR 0x69 5 6 0 0 0 0x0, .code),
    (fmtI 0xe3 0 0 0 0x5, .code),
    (fmtR 0xd2 5 6 7 0 0 0x8, .code),
    (fmtR 0x03 5 6 1 0 0 0x0, .reserved),
    (fmtI 0x49 1 6 0 0x1, .reserved),
    (fmtJ 0x4b 0x1, .reserved),
    (fmtV 0xa1 1 2 27 5 1 0x0, .reserved),
    (fmtV 0xb0 9 2 3 0 0 0x0, .reserved),
    (fmtJ 0x46 0xffe, .operand),
    (fmtI 0x14 5 6 0 0x40, .operand)
    ] : List (BitVec 32 × Illegal)), refuses p.1 p.2 = true := by decide

/-! ### Single steps, with results worked out from the rules -/

/-- The context after a step that runs word `w` in the context `setup` makes of a fresh one. -/
def after (w : BitVec 32) (setup : Ctx → Ctx) : Option Ctx :=
  match step ((State.reset.withFetchWord 32 w.toNat).modCtx benchCtx setup) with
  | .next t => t.ctx? benchCtx
  | .fault _ | .refused _ => none

/-- Registers s1 and s2 with values. -/
def with12 (a b : BitVec 64) (x : Ctx) : Ctx := { x with sreg := (x.sreg.set 1 a).set 2 b }

/-- R134: b[63:6] of a shift amount is ignored, and SHA fills with the sign bit. -/
theorem test_sha : (after (fmtR 0x01 5 1 2 0 0 8) (with12 0x8000000000000000 0x44)).map (fun x => x.s 5) =
    some 0xF800000000000000 := by decide
/-- R134: a rotation by 0 leaves the value; l0 takes the result (R127). -/
theorem test_rot_zero : (after (fmtR 0x01 5 1 2 0 0 9) (with12 0x123 64)).map (fun x => (x.s 5, x.s 60)) = some (0x123, 0x123) := by decide
/-- R135: −2^63 divided by −1 gives −2^63 and no trap. -/
theorem test_div_corner : (after (fmtR 0x02 5 1 2 0 0 3) (with12 0x8000000000000000 0xFFFFFFFFFFFFFFFF)).map (fun x => (x.s 5, x.rq)) =
    some (0x8000000000000000, []) := by decide
/-- R135: the remainder has the sign of the dividend: −7 = −3 · 2 − 1. -/
theorem test_rem_sign : (after (fmtR 0x02 5 1 2 0 0 5) (with12 0xFFFFFFFFFFFFFFF9 2)).map (fun x => x.s 5) = some 0xFFFFFFFFFFFFFFFF := by
  decide
/-- R135, R84: division by zero raises DIVZERO, cause 0x08, and a context without a handler stops with ACT clear. -/
theorem test_divzero : (after (fmtR 0x02 5 1 2 0 0 4) (with12 1 0)).map (fun x => (x.cause, x.sub, x.act, x.stopped, x.s 5)) =
    some (0x08, 0, false, true, 0) := by decide
/-- The same in a context with a handler at word 3: ACT is set and fetch goes on there. -/
theorem test_divzero_handler : (after (fmtR 0x02 5 1 2 0 0 4) fun x => { with12 1 0 x with trapEn := true, trapBase := 3 }).map
    (fun x => (x.cause, x.act, x.pc, x.trapPc)) = some (0x08, true, 3, 1) := by decide
/-- R135: MADS saturates its exact sum once. -/
theorem test_mads : (after (fmtR 0x02 5 1 2 0 0 7) fun x => let y := with12 0x7FFFFFFFFFFFFFFF 2 x; { y with sreg := y.sreg.set 5 1 }).map
    (fun x => x.s 5) = some 0x7FFFFFFFFFFFFFFF := by decide
/-- R135: the high half of −1 times −1 is 0. -/
theorem test_mulh : (after (fmtR 0x02 5 1 2 0 0 1) (with12 0xFFFFFFFFFFFFFFFF 0xFFFFFFFFFFFFFFFF)).map (fun x => x.s 5) = some 0 := by
  decide
/-- R136: the last bit of a becomes the first; CLZ of 1 is 63. -/
theorem test_brev : (after (fmtR 0x03 5 1 0 0 0 3) (with12 1 0)).map (fun x => x.s 5) = some 0x8000000000000000 := by decide
theorem test_clz : (after (fmtR 0x03 5 1 0 0 0 0) (with12 1 0)).map (fun x => x.s 5) = some 63 := by decide
/-- R138: AGEN2.x8 of base 0x1000, row 2, stride 16, column 3: 0x1000 + (2 · 16 + 3) · 8. -/
theorem test_agen2 : (after (fmtR 0x05 5 1 2 0 0 7) (with12 0x1000 (2#64 <<< 44 ||| 16#64 <<< 24 ||| 3))).map (fun x => x.s 5) =
    some 0x1118 := by decide
/-- R138: BOUND at the bound traps ACCESS with SUB 0x20 and the address. -/
theorem test_bound : (after (fmtR 0x05 5 1 2 0 0 8) (with12 9 9)).map (fun x => (x.cause, x.sub, x.trapAddr)) = some (0x05, 0x20, 9) := by
  decide
/-- The two examples of R140. -/
theorem test_lui : (after (fmtU 0x30 1 0x3FFFF) id).map (fun x => x.s 1) = some 0xFFFFFFFFFFFFC000 ∧
    (after (fmtU 0x30 1 1) id).map (fun x => x.s 1) = some 0x4000 := by decide
/-- R97: ORI zero-extends, ADDI sign-extends imm11. -/
theorem test_imm : (after (fmtI 0x12 5 0 0 0x7FF) id).map (fun x => x.s 5) = some 0x7FF ∧
    (after (fmtI 0x10 5 0 0 0x7FF) id).map (fun x => x.s 5) = some 0xFFFFFFFFFFFFFFFF := by decide
/-- R141: a taken branch wraps round the 4,096 words; an untaken one falls through. -/
theorem test_bcc : (after (fmtB 0x40 1 2 0xFFF) (with12 4 4)).map (fun x => x.pc) = some 0xFFF ∧
    (after (fmtB 0x41 1 2 0xFFF) (with12 4 4)).map (fun x => x.pc) = some 1 := by decide
/-- R142: JALR reads a before it writes d. -/
theorem test_jalr : (after (fmtI 0x48 1 1 0 2) (with12 0x10 0)).map (fun x => (x.pc, x.s 1)) = some (0x12, 1) := by decide
/-- R143: a count of 0 skips the body; a count of 3 opens the loop. -/
theorem test_loop : (after (fmtI 0x49 0 1 0 5) (with12 0 0)).map (fun x => (x.pc, x.loop1.count)) = some (6, 0) ∧
    (after (fmtI 0x49 0 1 0 5) (with12 3 0)).map (fun x => (x.pc, x.loop1.count, x.loop1.first, x.loop1.last)) = some (1, 3, 1, 5) := by decide
/-- R148, R80: MARKF fills q0, whose bit stands at place 48 of FEMAP. -/
theorem test_markf : (after (fmtR 0x4F 48 0 0 0 0 0) id).map (fun x => (x.sFull 48, x.sFull 49)) = some (true, false) := by decide
/-- R64: an empty source read under policy 1 raises EMPTYREAD with SUB 0x00. -/
theorem test_emptyread : (after (fmtR 0x01 5 48 2 1 0 0) id).map (fun x => (x.cause, x.sub)) = some (0x02, 0) := by decide
/-- R59: a read consumes an operand register. -/
theorem test_consume : (after (fmtR 0x01 5 48 48 0 0 0) fun x => { x with sreg := x.sreg.set 48 21, sfe := x.sfe ||| (1#64 <<< 48) }).map
    (fun x => (x.s 5, x.sFull 48)) = some (42, false) := by decide
/-- R154, R155: 1.0 plus 2^−24 in f32 is halfway between two numbers and rounds to the even one, inexact; RUP takes the greater. -/
theorem test_fadd : (after (fmtR 0x60 5 1 2 0 0 0) (with12 0x3F800000 0x33800000)).map (fun x => (x.s 5, x.fstat)) = some (0x3F800000, 0x08) ∧
    (after (fmtR 0x60 5 1 2 0 0 2) (with12 0x3F800000 0x33800000)).map (fun x => x.s 5) = some 0x3F800001 := by decide
/-- R88, R256: ERET outside a handler is ILLEGAL with SUB 0x05. -/
theorem test_eret : (after (fmtJ 0xF1 0) id).map (fun x => (x.cause, x.sub)) = some (0x01, 0x05) := by decide
/-- R192, R71: a byte stored in the scratchpad stands at its offset. -/
theorem test_store : (match step ((State.reset.withFetchWord 32 (fmtM 0xC4 2 1 0 1 3).toNat).modCtx benchCtx (with12 0x20 0xAB)) with
    | .next t => (t.cell? benchCtx.cell).map fun k => (k.pad.read 0x23, k.pad.read 0x22)
    | .fault _ | .refused _ => none) = some (0xAB, 0) := by decide
/-- R191: an 8-byte load at an address that is no multiple of 8 raises ALIGN, cause 0x06. -/
theorem test_align : (after (fmtM 0xC3 5 1 0 1 0) (with12 4 0)).map (fun x => (x.cause, x.trapAddr)) = some (0x06, 4) := by decide
/-- R108: a word of opcode 0x00 raises ILLEGAL with SUB 0x00. -/
theorem test_illegal : (after 0 id).map (fun x => (x.cause, x.sub, x.rq.length)) = some (0x01, 0x00, 1) := by decide
/-- R255: HALT stops its context. -/
theorem test_halt : (after (fmtJ 0xF5 0) id).map (fun x => x.halted) = some true := by decide
/-- R68, R115: a command whose rectangle has no streamer ends with BADCMD in its token register s5. -/
theorem test_badcmd : (match step (State.reset.withFetchWord 128 (0x01 * 2 ^ 120 + 2 ^ 108 + 5 * 2 ^ 96)) with
    | .next t => (t.ctx? benchCtx).map fun x => (x.s 5, x.sFull 5)
    | .fault _ | .refused _ => none) = some (0x8000000000000700, true) := by decide

/-! ### Witnesses: a state and operands that meet the hypotheses of each statement, for each of its clauses -/

/-- The context of the one-cell rectangle of `withFetchWord`, its firing under way. -/
def fresh : Ctx := ((benchTask (encodeWord .done)).context benchHandle 1 false).beginFiring 0
/-- The state with that context as `f` makes it, its turn granted. -/
def running (f : Ctx → Ctx) : State :=
  let s := (State.reset.withTaskWord (encodeWord .done)).modCtx benchCtx f
  { s with cur := benchCtx, net := { s.net with turn := none } }

/-- What `Presented` asks of the context and the instruction, as a Boolean. -/
def ready (x : Ctx) (i : Instr) (d : Dest) : Bool := decide (x.unfinished < 16) && defect i == none && !x.hazard d

theorem Presented.of {s : State} {x : Ctx} {i : Instr} {d : Dest} (here : s.ctx? s.cur = some x) (h : ready x i d = true) :
    Presented s x i d := by
  simp only [ready, Bool.and_eq_true, beq_iff_eq, decide_eq_true_eq, Bool.not_eq_true'] at h
  exact ⟨here, h.1.1, h.1.2, h.2⟩

theorem running_ctx (f : Ctx → Ctx) : (running f).ctx? (running f).cur = some (f fresh) := rfl

theorem shown {f : Ctx → Ctx} {i : Instr} {d : Dest} (h : ready (f fresh) i d = true) : Presented (running f) (f fresh) i d :=
  Presented.of (running_ctx f) h

/-- Register specifiers at the ends of the ranges of R57 that a destination may have. -/
def dests : List SReg := [0, 1, 47, 48, 59]

theorem witness_scalar_forms : ∀ d ∈ dests, ∀ p ∈ scalarForms, let o : OpR3 := ⟨d, 1, 2, false, false⟩
    Presented (running (with12 5 64)) (with12 5 64 fresh) (p.1 o) (.sreg d) :=
  fun d hd p hp => shown (by revert p d; decide +kernel)

/-- Nonzero and zero divisors, and the corner of R135. -/
theorem witness_division : ∀ p ∈ ([.div, .divz, .rem, .remz] : List (OpR3 → Instr)), ∀ n ∈ [0, 1, 2 ^ 64 - 1], let b := BitVec.ofNat 64 n
    let o : OpR3 := ⟨5, 1, 2, false, false⟩; let x := with12 0x8000000000000000 b fresh
    Presented (running (with12 0x8000000000000000 b)) x (p o) (.sreg 5) :=
  fun p hp n hn => shown (by revert n p; decide +kernel)

/-- A field that ends at bit 63, and one that ends one bit later. -/
theorem witness_bit_fields : ∀ n ∈ [0x1F20, 0x1F21], ∀ p ∈ ([.mads, .ext, .ins] : List (OpR3 → Instr)),
    let b := BitVec.ofNat 64 n; let o : OpR3 := ⟨5, 1, 2, false, false⟩; let x := with12 7 b fresh
    x.sFull 5 = true ∧ Presented (running (with12 7 b)) x (p o) (.sreg 5) :=
  fun n hn p hp => ⟨by revert n; decide +kernel, shown (by revert n p; decide +kernel)⟩
theorem witness_bit_field_ends : (0x1F20#64).toNat % 64 + ((0x1F20#64).toNat / 256 % 64 + 1) = 64 ∧
    64 < (0x1F21#64).toNat % 64 + ((0x1F21#64).toNat / 256 % 64 + 1) := by decide +kernel

theorem witness_scalar_operands : (with12 5 64 fresh).readA false 1 = .ok 5 ∧ (with12 5 64 fresh).readB false 2 = .ok 64 := ⟨rfl, rfl⟩
theorem witness_address_forms : ∀ d ∈ dests, ∀ k : BitVec 2, ∀ i ∈ ([.sel ⟨d, 1, 2, false, false⟩, .lea ⟨d, 1, 2, false, false⟩ k,
      .agen2 ⟨d, 1, 2, false, false⟩ k, .bound ⟨d, 1, 2, false, false⟩] : List Instr),
    Presented (running (with12 5 64)) (with12 5 64 fresh) i (.sreg d) :=
  fun d hd k i hi => shown (by revert i d k; decide +kernel)

theorem witness_unary_and_immediate : ∀ d ∈ dests,
    (∀ p ∈ unaryForms, Presented (running (with12 5 64)) (with12 5 64 fresh) (p.1 ⟨d, 1, false⟩) (.sreg d)) ∧
    (∀ p ∈ immediateForms, Presented (running (with12 5 64)) (with12 5 64 fresh) (p.1 ⟨d, 1, false, 0x7FF⟩) (.sreg d)) ∧
    (∀ i ∈ ([.shlImm ⟨d, 1, false, 63⟩, .shrImm ⟨d, 1, false, 63⟩, .shaImm ⟨d, 1, false, 63⟩, .rotImm ⟨d, 1, false, 63⟩,
        .extImm ⟨d, 1, false, 31, 32⟩, .insImm ⟨d, 1, false, 31, 32⟩, .lui d 0x3FFFF] : List Instr),
      Presented (running (with12 5 64)) (with12 5 64 fresh) i (.sreg d)) :=
  fun d hd => ⟨fun p hp => shown (by revert p d; decide +kernel), fun p hp => shown (by revert p d; decide +kernel),
    fun i hi => shown (by revert i d; decide +kernel)⟩

theorem witness_branches : (∀ p ∈ branchForms, Presented (running (with12 4 4)) (with12 4 4 fresh) (p.1 ⟨1, 2, 0xFFF⟩) .none) ∧
    Presented (running id) (id fresh) (.j 0xFFF) .none ∧ Presented (running id) (id fresh) (.jal 0xFFF) (.sreg 47) ∧
    Presented (running (with12 4 4)) (with12 4 4 fresh) (.jalr ⟨1, 1, false, 2⟩) (.sreg 1) :=
  ⟨fun p hp => shown (by revert p; decide +kernel), shown (by decide +kernel), shown (by decide +kernel), shown (by decide +kernel)⟩

/-- An outer loop over words 0 to 9 is under way. -/
def outer (x : Ctx) : Ctx := { with12 3 0 x with loop0 := ⟨2, 9, 0⟩ }
/-- LOOP1 with one iteration left and LOOP0 with `n` end at word 0. -/
def closing (m n : BitVec 32) (x : Ctx) : Ctx := { x with loop1 := ⟨m, 0, 0⟩, loop0 := ⟨n, 0, 0⟩ }
theorem witness_loops : (outer fresh).readA false 1 = .ok 3 ∧ (outer fresh).readA false 2 = .ok 0 ∧
    (∀ r ∈ ([1, 2] : List SReg), Presented (running outer) (outer fresh) (.loop ⟨r, false, 9⟩) .none ∧
      Presented (running (with12 3 0)) (with12 3 0 fresh) (.loopx ⟨r, false, 1023⟩) .none) ∧
    (outer fresh).loop1.count = 0 ∧ (outer fresh).loop0.last ≠ (outer fresh).at ∧ (outer fresh).loop0.first ≤ (outer fresh).at + 1 ∧
    (outer fresh).at + (9 : BitVec 10).zeroExtend 12 ≤ (outer fresh).loop0.last ∧ (with12 3 0 fresh).loop0.count = 0 :=
  ⟨rfl, rfl, fun r hr => ⟨shown (by revert r; decide +kernel), shown (by revert r; decide +kernel)⟩, by decide +kernel⟩
theorem witness_loop_back : ∀ m ∈ [0, 1, 2], ∀ n ∈ [0, 1, 2], let x := closing (.ofNat 32 m) (.ofNat 32 n) fresh
    x.injecting = none ∧ x.act = false ∧ x.loop1.last = x.pc ∧ x.loop0.last = x.pc ∧ x.loop1.count.toNat = m ∧ x.loop0.count.toNat = n := by decide +kernel

theorem witness_done_and_yield : Presented (running id) (id fresh) .done .none ∧ fresh.act = false ∧ fresh.pend = [] ∧
    (∀ p ∈ (running id).outs (running id).cur.slot fresh.node, p.2.prate ≤ p.2.pused) ∧ Presented (running id) (id fresh) .yield .none :=
  ⟨shown (by decide +kernel), by decide +kernel, by decide +kernel, by decide +kernel, shown (by decide +kernel)⟩
/-- A firing with one output channel. -/
def oneOut (used : Nat) : State :=
  let s := running id
  { s with edges := [((0, 0), ⟨0, 0, 1, 0, false, 4, 0xFF, 0xFF, 1, 1, 3, 1, used, false, [], 0, 0⟩)] }
theorem witness_done_with_an_output : (oneOut 1).ctx? (oneOut 1).cur = some fresh ∧
    ((oneOut 1).outs (oneOut 1).cur.slot fresh.node).length = 1 ∧
    ∀ p ∈ (oneOut 1).outs (oneOut 1).cur.slot fresh.node, p.2.prate ≤ p.2.pused := by decide +kernel

/-- Operand registers q0 and vq0 are full. -/
def filled (x : Ctx) : Ctx := { x with sfe := x.sfe ||| 1#64 <<< 48, vfe := x.vfe ||| 1#32 <<< 24 }
theorem witness_hierarchy : fresh.readA false 1 = .ok 0 ∧ Presented (running id) (id fresh) (.movq ⟨48, 1, false, false⟩) (.sreg 48) ∧
    (∀ v : Bool, Presented (running id) (id fresh) (.testf ⟨5, 24, 0, v, false, false⟩) (.sreg 5) ∧
      Presented (running id) (id fresh) (.marke ⟨24, v, false, false⟩) (if v then .vreg 24 else .sreg 24) ∧
      Presented (running id) (id fresh) (.markf ⟨24, v, false, false⟩) (if v then .vreg 24 else .sreg 24)) ∧
    (∀ f ∈ [id, filled], Presented (running f) (f fresh) (.waitf ⟨48, false, true, false⟩) .none ∧
      Presented (running f) (f fresh) (.waitf ⟨24, true, true, false⟩) .none) ∧
    fresh.sFull 48 = false ∧ fresh.vFull 24 = false ∧ (filled fresh).sFull 48 = true ∧ (filled fresh).vFull 24 = true :=
  ⟨rfl, shown (by decide +kernel), fun v => by cases v <;> exact ⟨shown (by decide +kernel), shown (by decide +kernel), shown (by decide +kernel)⟩,
    fun f hf => by
      simp only [List.mem_cons, List.not_mem_nil, or_false] at hf
      obtain rfl | rfl := hf <;> exact ⟨shown (by decide +kernel), shown (by decide +kernel)⟩, by decide +kernel⟩
/-- A token word with every chunk bit of the mask, one with a bit missing, and an error word. -/
theorem witness_waitm : (with12 7 7 fresh).readB false 2 = .ok 7 ∧
    ∀ n ∈ [7, 3, 0x8000000000000700], let f := with12 (.ofNat 64 n) 7
      Presented (running f) (f fresh) (.waitm ⟨0, 1, 2, false, false, true⟩) .none :=
  ⟨rfl, fun n hn => shown (by revert n; decide +kernel)⟩

/-- A trap's queue of one entry to execute. -/
def queued (x : Ctx) : Ctx := { x with rq := [⟨3, 0, 5, 3, false, false, encodeWord .done, 7, 9, [], 0, 0, [], none, none⟩], act := true }
theorem witness_special_registers : (∀ n ∈ (specialValues (running id) fresh).map Prod.fst, Presented (running id) (id fresh)
      (.mfs 5 false (BitVec.ofNat 11 n)) (.sreg 5)) ∧
    (queued fresh).rq[(queued fresh).rqsel.toNat]?.isSome = true ∧ fresh.rq.length ≤ fresh.rqsel.toNat ∧
    ∀ n ∈ [0x1E, 0x1F, 0x20], Presented (running queued) (queued fresh) (.mfs 5 false (BitVec.ofNat 11 n)) (.sreg 5) ∧
      Presented (running id) (id fresh) (.mfs 5 false (BitVec.ofNat 11 n)) (.sreg 5) :=
  ⟨fun n hn => shown (by revert n; decide +kernel), by decide +kernel, by decide +kernel,
    fun n hn => ⟨shown (by revert n; decide +kernel), shown (by revert n; decide +kernel)⟩⟩
/-- Values at the ends of the ranges of R153. -/
theorem witness_special_register_writes : fresh.readA false 1 = .ok 0 ∧
    (∀ n ∈ [0x008, 0x009, 0x010, 0x011, 0x012, 0x018, 0x01A, 0x01D, 0x01E, 0x01F, 0x020],
      Presented (running id) (id fresh) (.mts 1 false (BitVec.ofNat 11 n)) .none) ∧
    (4#64).toNat % 8 ≤ 4 ∧ 5 ≤ (5#64).toNat % 8 ∧ (4096#64).toNat / 4 % 2048 ≤ 1024 ∧ 1024 < (4100#64).toNat / 4 % 2048 ∧
    (0xFFFFFF#64).extractLsb' 32 32 = 0 ∧ ((0xFFFFFF#64).extractLsb' 0 12).toNat ≤ ((0xFFFFFF#64).extractLsb' 12 12).toNat ∧
    ((0xFFEFFF#64).extractLsb' 12 12).toNat < ((0xFFEFFF#64).extractLsb' 0 12).toNat :=
  ⟨rfl, fun n hn => shown (by revert n; decide +kernel), by decide +kernel⟩

/-- The largest finite f32, a subnormal and a zero are numbers of their format. -/
theorem witness_rounding : ∀ w ∈ [0x7F7FFFFF, 1, 0x80000000], w < 2 ^ FF.f32.width ∧ (∀ g, FF.f32.decode w ≠ .nan g) ∧
    ∀ g, FF.f32.decode w ≠ .inf g := by
  intro w hw
  refine ⟨by revert w; decide +kernel, fun g => ?_, fun g => ?_⟩ <;> revert g w <;> decide +kernel

/-- The formats of R99. -/
theorem witness_scalar_floating_point : fresh.readA false 1 = .ok 0 ∧ fresh.readB false 2 = .ok 0 ∧ fresh.sFull 5 = true ∧
    ∀ wide : Bool, (∀ p ∈ roundingForms, Presented (running id) (id fresh) (p.1 ⟨5, 1, 2, false, false, wide, .rne⟩) (.sreg 5)) ∧
      ∀ i ∈ ([.fma ⟨5, 1, 2, false, false, wide, .sr⟩, .fsqrt ⟨5, 1, false, false, wide, .rne⟩, .fmin ⟨5, 1, 2, false, false, wide⟩,
          .fmax ⟨5, 1, 2, false, false, wide⟩, .fcmp ⟨5, 1, 2, false, false, wide, .lt⟩, .fclass ⟨5, 1, false, false, wide⟩] : List Instr),
        Presented (running id) (id fresh) i (.sreg 5) :=
  ⟨rfl, rfl, by decide +kernel, fun wide => ⟨fun p hp => shown (by revert wide p; decide +kernel), fun i hi => shown (by revert wide i; decide +kernel)⟩⟩
theorem witness_fcvt : ∀ o ∈ ([⟨5, 1, .f32, .z64, false, .sr⟩, ⟨5, 1, .s32, .f64, false, .rne⟩, ⟨5, 1, .z32, .bf16, false, .rne⟩,
      ⟨5, 1, .s64, .f16, false, .rne⟩, ⟨5, 1, .z64, .f32, false, .rne⟩, ⟨5, 1, .f16, .s32, false, .rne⟩] : List OpCvt),
    Presented (running id) (id fresh) (.fcvt o) (.sreg 5) :=
  fun o ho => shown (by revert o; decide +kernel)

/-- The two sources of a vector instruction in the crew of one cell. -/
theorem witness_vector_operands : (∃ a, fresh.readV .a false 2 = .ok a) ∧ (∃ b, fresh.readV .b false 3 = .ok b) ∧ fresh.vFull 1 = true ∧
    fresh.width ≤ 128 := ⟨⟨_, rfl⟩, ⟨_, rfl⟩, by decide +kernel, by decide +kernel⟩
theorem witness_vector_elements : (lanesOf .s8 2 [1, 2, 3, 4, 5, 6, 7, 8]).length = 2 ∧ Ty.s8.count 2 = 8 ∧ Ty.f64.count 2 = 1 := by decide +kernel
theorem witness_vector_integer : (∀ p ∈ vectorIntForms, Presented (running id) (id fresh) (p.1 ⟨1, 2, 3, 0, false, .s8⟩) (.vreg 1)) ∧
    ∀ i ∈ ([.vmad ⟨1, 2, 3, 0, false, .z16⟩, .vabs ⟨1, 2, 0, false, .s32⟩, .vneg ⟨1, 2, 0, false, .f32⟩] : List Instr),
      Presented (running id) (id fresh) i (.vreg 1) :=
  ⟨fun p hp => shown (by revert p; decide +kernel), fun i hi => shown (by revert i; decide +kernel)⟩
theorem witness_masks : (∀ i ∈ ([.vcmp ⟨.lt, 1, 2, 3, 0, false, .s32⟩, .vfcmp ⟨.lt, 1, 2, 3, 0, false, .f64⟩, .mand ⟨0, 1, 2⟩, .mor ⟨7, 1, 2⟩,
      .mxor ⟨7, 1, 2⟩, .mnot 7 1] : List Instr), Presented (running id) (id fresh) i .none) ∧
    (∀ i ∈ ([.mpop 7 1, .mfirst 7 1, .vwidth 7 false] : List Instr), Presented (running id) (id fresh) i (.sreg 7)) ∧
    Presented (running id) (id fresh) (.vsel ⟨1, 2, 3, 1, false, .f64⟩) (.vreg 1) :=
  ⟨fun i hi => shown (by revert i; decide +kernel), fun i hi => shown (by revert i; decide +kernel), shown (by decide +kernel)⟩
theorem witness_vector_floating_point : ∀ i ∈ ([.vfadd ⟨1, 2, 3, 0, false, .f32⟩, .vfsub ⟨1, 2, 3, 0, false, .f64⟩, .vfmul ⟨1, 2, 3, 0, false, .bf16⟩,
      .vfdiv ⟨1, 2, 3, 0, false, .f16⟩, .vfma ⟨1, 2, 3, 0, false, .f32⟩, .vfms ⟨1, 2, 3, 0, false, .f32⟩, .vfnma ⟨1, 2, 3, 0, false, .f32⟩,
      .vfmin ⟨1, 2, 3, 0, false, .f32⟩, .vfmax ⟨1, 2, 3, 0, false, .f32⟩, .vfsqrt ⟨1, 2, 0, false, .f64⟩, .vfrcp ⟨1, 2, 0, false, .f32⟩,
      .vfrsq ⟨1, 2, 0, false, .bf16⟩, .vfexp2 ⟨1, 2, 0, false, .f16⟩, .vflog2 ⟨1, 2, 0, false, .f32⟩, .vfclass ⟨1, 2, 0, false, .f32⟩] : List Instr),
    Presented (running id) (id fresh) i (.vreg 1) := fun i hi => shown (by revert i; decide +kernel)
theorem witness_vector_conversions : ∀ i ∈ ([.vcvt ⟨1, 2, 0, false, .s8, .f32⟩, .vquant ⟨1, 2, 0, false, .fp4b, .f32⟩,
      .vdeq ⟨1, 2, 0, false, .f32, .fp4b⟩, .vdot ⟨1, 2, 3, 0, false, .s8⟩, .vdot ⟨1, 2, 3, 0, false, .bf16⟩,
      .vbdot ⟨1, 2, 3, 0, false, .fp4b⟩, .vscan ⟨1, 2, 0, false, .s32⟩, .vscan ⟨1, 2, 0, false, .f32⟩] : List Instr),
    Presented (running id) (id fresh) i (.vreg 1) := fun i hi => shown (by revert i; decide +kernel)
theorem witness_reductions : ∀ i ∈ ([.vredadd ⟨1, 2, 0, false, .s32⟩, .vredadd ⟨1, 2, 0, false, .f32⟩, .vredmax ⟨1, 2, 0, false, .z8⟩,
      .vredmax ⟨1, 2, 0, false, .f64⟩, .vredmin ⟨1, 2, 0, false, .s16⟩, .vredmin ⟨1, 2, 0, false, .f32⟩] : List Instr),
    Presented (running id) (id fresh) i (.sreg 1) := fun i hi => shown (by revert i; decide +kernel)
/-- The last element of a lane file and the index past it. -/
theorem witness_lane_movement : fresh.read .a false 2 = .ok 0 ∧ (with12 0 7 fresh).read .b false 2 = .ok 7 ∧ (with12 0 8 fresh).read .b false 2 = .ok 8 ∧
    Ty.f32.count fresh.width = 8 ∧
    (∀ i ∈ ([.vperm ⟨1, 2, 3, 0, false, .f64⟩, .vperm ⟨1, 2, 3, 0, false, .f32⟩, .vshuf ⟨1, 2, 3, 0, false, .ziplo⟩, .vshuf ⟨1, 2, 0, 0, false, .rev⟩,
        .vrot ⟨1, 2, 3, 0, false, .f32⟩, .vbcast ⟨1, 2, 0, false, .fp4b⟩, .vbcast ⟨1, 2, 0, false, .s16⟩, .vins ⟨1, 3, 2, false, .f32⟩] : List Instr),
      Presented (running id) (id fresh) i (.vreg 1) ∧ Presented (running (with12 0 8)) (with12 0 8 fresh) i (.vreg 1)) ∧
    Presented (running (with12 0 7)) (with12 0 7 fresh) (.vextr ⟨1, 3, 2, false, .f32⟩) (.sreg 1) ∧
    Presented (running (with12 0 8)) (with12 0 8 fresh) (.vextr ⟨1, 3, 2, false, .f32⟩) (.sreg 1) :=
  ⟨rfl, rfl, rfl, by decide +kernel, fun i hi => ⟨shown (by revert i; decide +kernel), shown (by revert i; decide +kernel)⟩,
    shown (by decide +kernel), shown (by decide +kernel)⟩

theorem MayDepart.of {s : State} {x : Ctx} {k : Kind} {outs : List Out}
    (h : (!x.overlapsTag (outs.map Out.place) && !x.takeLeft && (!k.atomic || decide (x.atomics < 16)) && (!k.remote || decide (x.remoteReads < 16)) &&
      s.permitsFree s.cur.cell (outs.map Out.slice)) = true) : MayDepart s x k outs := by
  simp only [Bool.and_eq_true, Bool.not_eq_true', Bool.or_eq_true, decide_eq_true_eq] at h
  exact ⟨h.1.1.1.1, h.1.1.1.2, fun q => h.1.1.2.resolve_left (by simp [q]), fun q => h.1.2.resolve_left (by simp [q]), h.2⟩
theorem MayPost.of {s : State} {x : Ctx} {seq : Option (BitVec 16)} {outs : List Out}
    (h : (decide (x.tags.length < 64) && decide (x.atomics < 16) && s.permitsFree s.cur.cell (outs.map Out.slice)) = true) :
    MayPost s x seq outs := by
  simp only [Bool.and_eq_true, decide_eq_true_eq] at h
  exact ⟨h.1.1, fun _ => h.1.2, h.2⟩

/-- The first 64 KiB of the lease's addresses are its first page of memory; s1 and s2 hold an address and a value. -/
def mapped (a b : BitVec 64) (x : Ctx) : Ctx := { with12 a b x with tcache := [⟨1, 0, 65536, .dev 0, true⟩] }
/-- The place of an address of that page. -/
def home (a : Nat) : Loc := .dev 1 a
/-- The cell of the rectangle, as `running` places it. -/
def oneCell : Cell :=
  { pad := [], empties := [], xch := false, front := false, parked := [], rr := 1, holder := some 0, permits := [], gated := false, port := (0, 0) }
def padEnd : BitVec 64 := 0x1FFF8

/-- Loads and stores of the scratchpad at its last word, one past it, and at an odd address. -/
theorem witness_scratchpad_accesses : ∀ a ∈ [0x1FFF8, 0x20000, 4],
    (∀ p ∈ ([(.ldB, 1), (.ldH, 2), (.ldW, 4), (.ldD, 8)] : List ((OpMem → Instr) × Nat)),
      Presented (running (mapped (.ofNat 64 a) 9)) (mapped (.ofNat 64 a) 9 fresh) (p.1 ⟨5, 1, false, .p, 0⟩) (.sreg 5)) ∧
    ∀ p ∈ ([(.stB, 1), (.stH, 2), (.stW, 4), (.stD, 8)] : List ((OpMem → Instr) × Nat)),
      Presented (running (mapped (.ofNat 64 a) 9)) (mapped (.ofNat 64 a) 9 fresh) (p.1 ⟨2, 1, false, .p, 0⟩) .none :=
  fun a ha => ⟨fun p hp => shown (by revert a p; decide +kernel), fun p hp => shown (by revert a p; decide +kernel)⟩
theorem witness_scratchpad_places : (running id).cell? benchCtx.cell = some oneCell ∧ oneCell.limit = 0x20000 ∧ (0x1FFF8 % 8 = 0 ∧ 0x1FFF8 + 8 ≤ oneCell.limit) ∧
    oneCell.limit < 0x20000 + 8 ∧ 4 % 8 ≠ 0 ∧ fresh.overlapsTag [.pad benchCtx.cell 0x1FFF8 8 false] = false ∧
    (running id).onItsWay benchCtx [.pad benchCtx.cell 0x1FFF8 8 false] = false := by decide +kernel
/-- The same loads and stores of another cell's space (here its own cell's, by name) and of global memory at the page's last word. -/
theorem witness_remote_and_global_accesses : let s := running (mapped 0xFFF8 9); let x := mapped 0xFFF8 9 fresh
    x.readA false 1 = .ok 0xFFF8 ∧ x.readB false 2 = .ok 9 ∧ (∀ w, s.padReach x 0xFFF8 0 8 0 0 false w = .ok (benchCtx.cell, 0xFFF8)) ∧
    (∀ w, s.reach x 0xFFF8 8 w none = .ok (home 0xFFF8)) ∧
    MayDepart s x ⟨false, false, true⟩ [s.padOut x benchCtx.cell 0xFFF8 8 false [] false false 0] ∧
    MayDepart s x ⟨false, false, false⟩ [s.rwOut x (home 0xFFF8) 8 false [] false 0 false] ∧
    MayPost s x none [s.padOut x benchCtx.cell 0xFFF8 8 true (leBytes 8 9) false false 0] ∧
    MayPost s x none [s.rwOut x (home 0xFFF8) 8 true (leBytes 8 9) false 0 false] ∧
    ∀ sp ∈ [Space.c, .g], Presented s x (.ldD ⟨5, 1, false, sp, 0⟩) (.sreg 5) ∧ Presented s x (.stD ⟨2, 1, false, sp, 0⟩) .none :=
  ⟨rfl, rfl, fun w => by cases w <;> rfl, fun w => by cases w <;> rfl, MayDepart.of (by decide +kernel), MayDepart.of (by decide +kernel),
    MayPost.of (by decide +kernel), MayPost.of (by decide +kernel), fun sp h => ⟨shown (by revert sp; decide +kernel), shown (by revert sp; decide +kernel)⟩⟩
/-- A debugger of the lease watches the first 8 bytes of a scratchpad's last 64, for reading or for writing. -/
def watched (pad write : Bool) : State := (running (mapped padEnd 9)).modLease 1 fun l =>
  { l with watches := [⟨pad, if pad then padWord benchCtx.cell 0x1FFF8 else 0x1FFF8, 8, !write, write⟩] }
theorem witness_watches : ∀ w : Bool, let s := watched true w; let x := mapped padEnd 9 fresh
    (∀ v : Bool, ((s.lease x.lease).watches.any fun q => q.hits true (padWord s.cur.cell 0x1FFF8) 8 v) = (v == w)) ∧
    x.readA false 1 = .ok padEnd ∧ Presented s x (.ldD ⟨5, 1, false, .p, 0⟩) (.sreg 5) ∧ Presented s x (.stD ⟨2, 1, false, .p, 0⟩) .none ∧
    ((running (mapped padEnd 9)).lease x.lease).watches = [] :=
  fun w => ⟨by revert w; decide +kernel, rfl, Presented.of rfl (by decide +kernel), Presented.of rfl (by decide +kernel), rfl⟩
theorem witness_scratchpad_write : (running id).cell? benchCtx.cell = some oneCell ∧ oneCell.parked = [] ∧ Mem.wf oneCell.pad = true ∧
    ([1, 2] : List Byte) ≠ [] := by decide +kernel

/-- Base words of R73 that pass every check and that fail each of them in turn. -/
theorem witness_remote_words : (running id).rect? 0 = some (benchRect (encodeWord .done)) ∧
    (let ok : BitVec 64 := 0x1FFF8; ok.toNat % 2 ^ 17 % 8 = 0 ∧ ok.toNat / 2 ^ 56 % 128 < 1 ∧ ok.toNat % 2 ^ 17 < 2 ^ 17) ∧
    (0x4#64).toNat % 2 ^ 17 % 8 ≠ 0 ∧ 1 ≤ (0x0100000000000000#64).toNat / 2 ^ 56 % 128 ∧ (0x20000#64).extractLsb' 17 31 ≠ 0 ∧ (0x800000000000#64).extractLsb' 17 31 ≠ 0 ∧
    2 ^ 17 ≤ (0x1FFF8#64).toNat % 2 ^ 17 + (1#9).toNat * 8 ∧ oneCell.xch = false ∧ { oneCell with xch := true }.xch = true := by decide +kernel

theorem witness_vector_accesses : let s := running (mapped 0x60 9); let x := mapped 0x60 9 fresh
    x.readA false 1 = .ok 0x60 ∧ (∃ ls, x.readV .b false 2 = .ok ls) ∧ (∀ w, s.crewOffset x 0x60 0 w = .ok (0x60, [benchCtx.cell])) ∧
    s.padReady x [.pad benchCtx.cell 0x60 32 false] = .ok () ∧ (∀ w, s.memberTargets x 0x60 0 w = .ok [(0, benchCtx.cell, 0x60)]) ∧
    globalVa 0x60 0 32 = .ok 0x60 ∧ (∀ w, s.vectorPieces x 0x60 w = .ok [(0, home 0x60, 32)]) ∧
    MayDepart s x ⟨false, false, true⟩ [s.padOut x benchCtx.cell 0x60 32 false [] false true 0] ∧
    MayDepart s x ⟨false, false, false⟩ [s.rwOut x (home 0x60) 32 false [] true 0 true] ∧
    MayPost s x none [s.padOut x benchCtx.cell 0x60 32 true (List.replicate 32 0) false true 0] ∧
    MayPost s x none [s.rwOut x (home 0x60) 32 true (List.replicate 32 0) true 0 false] ∧
    ∀ sp ∈ [Space.p, .c, .g], Presented s x (.ldv ⟨5, 1, false, sp, 0⟩) (.vreg 5) ∧ Presented s x (.stv ⟨2, 1, false, sp, 0⟩) .none :=
  ⟨rfl, ⟨_, rfl⟩, fun w => by cases w <;> rfl, rfl, fun w => by cases w <;> rfl, rfl, fun w => by cases w <;> rfl, MayDepart.of (by decide +kernel), MayDepart.of (by decide +kernel),
    MayPost.of (by decide +kernel), MayPost.of (by decide +kernel),
    fun sp h => ⟨shown (by revert sp; decide +kernel), shown (by revert sp; decide +kernel)⟩⟩
/-- Mask m1 governs lane 7 alone, m2 none. -/
def gathering (x : Ctx) : Ctx := { mapped 0x40 9 x with mreg := (x.mreg.set 1 0x80).set 2 0 }
theorem witness_gathers : let s := running gathering; let x := gathering fresh
    x.readA false 1 = .ok 0x40 ∧ (∃ i, x.readIndex false 3 = .ok i) ∧ (∃ ls, x.readV .b false 2 = .ok ls) ∧
    s.gatherPlaces x ⟨5, 1, false, true, 1, 3⟩ 0x40 (x.v 3) false = .ok [(7, home 0x40)] ∧
    s.gatherPlaces x ⟨5, 1, false, true, 2, 3⟩ 0x40 (x.v 3) false = .ok [] ∧
    s.gatherPlaces x ⟨2, 1, false, true, 1, 3⟩ 0x40 (x.v 3) true = .ok [(7, home 0x40)] ∧
    MayDepart s x ⟨false, false, false⟩ [s.rwOut x (home 0x40) 4 false [] true 7 false] ∧
    MayPost s x none [s.rwOut x (home 0x40) 4 true [0, 0, 0, 0] true 7 false] ∧
    (∀ m ∈ [1, 2], Presented s x (.ldg ⟨5, 1, false, true, .ofNat 3 m, 3⟩) (.vreg 5)) ∧ Presented s x (.stg ⟨2, 1, false, true, 1, 3⟩) .none :=
  ⟨rfl, ⟨_, rfl⟩, ⟨_, rfl⟩, rfl, rfl, rfl, MayDepart.of (by decide +kernel), MayPost.of (by decide +kernel),
    fun m h => shown (by revert m; decide +kernel), shown (by decide +kernel)⟩

theorem witness_presence : let s := running (mapped 8 9); let x := mapped 8 9 fresh
    (∀ sp ∈ [Space.p, .c], ∀ d ∈ [5, 2], ∀ w, s.presTarget x ⟨.ofNat 6 d, 1, false, sp, 0⟩ 8 w = .ok (benchCtx.cell, 8)) ∧
    x.readA false 1 = .ok 8 ∧ x.readB false 2 = .ok 9 ∧
    (∀ op ∈ [PresOp.ldf, .ldp, .ste 9], ∀ r : Bool, MayDepart s x ⟨false, false, r⟩ [s.presOut x benchCtx.cell 8 op] ∧
      MayDepart s x ⟨true, false, false⟩ [s.presOut x benchCtx.cell 8 op]) ∧
    ∀ sp ∈ [Space.p, .c], Presented s x (.ldf ⟨5, 1, false, sp, 0⟩) (.sreg 5) ∧ Presented s x (.ldp ⟨5, 1, false, sp, 0⟩) (.sreg 5) ∧
      Presented s x (.ste ⟨2, 1, false, sp, 0⟩) .none :=
  ⟨fun sp h d hd w => by
      simp only [List.mem_cons, List.not_mem_nil, or_false] at h hd
      obtain rfl | rfl := h <;> obtain rfl | rfl := hd <;> cases w <;> rfl,
    rfl, rfl, fun op h r => ⟨MayDepart.of (by revert op r; decide +kernel), MayDepart.of (by revert op r; decide +kernel)⟩,
    fun sp h => ⟨shown (by revert sp; decide +kernel), shown (by revert sp; decide +kernel), shown (by revert sp; decide +kernel)⟩⟩
/-- The cell's scratchpad is in exchange mode. -/
def exchanging (f : Ctx → Ctx) : State := (running f).modCell benchCtx.cell fun k => { k with xch := true }
theorem witness_stx : let s := exchanging (mapped 8 9); let x := mapped 8 9 fresh
    s.padReach x 8 0 8 0 0 true true = .ok (benchCtx.cell, 8) ∧ Presented s x (.stx ⟨2, 1, false, 0⟩) .none ∧
    MayPost s x none [s.padOut x benchCtx.cell 8 8 true (leBytes 8 9) true false 0] ∧ s.exchanges s.cur x false ≠ [] ∧
    s.exchanges s.cur x true ≠ [] ∧ Presented s x (.xbar false) .none ∧ Presented s x (.xbar true) .none :=
  ⟨rfl, Presented.of rfl (by decide +kernel), MayPost.of (by decide +kernel), by decide +kernel, by decide +kernel, Presented.of rfl (by decide +kernel),
    Presented.of rfl (by decide +kernel)⟩

theorem witness_atomics : let s := running (mapped 64 9); let x := mapped 64 9 fresh
    x.readA false 1 = .ok 64 ∧ x.readB false 2 = .ok 9 ∧ x.read .d false 5 = .ok 0 ∧
    (∀ fn ∈ [AmoFn.add, .cas], s.rPlace x 64 8 true (some fn) = .ok (home 64) ∧
      MayDepart s x ⟨false, true, false⟩ [s.amoOut x (home 64) fn 9 0 true false] ∧
      MayPost s x (some x.seq) [s.amoOut x (home 64) fn 9 0 false true] ∧
      Presented s x (.amo ⟨5, 1, 2, false, false, fn⟩) (.sreg 5)) ∧
    Presented s x (.amoC ⟨5, 1, 2, false, false, .add⟩) (.sreg 5) ∧ Presented s x (.stOp ⟨1, 2, false, false, .add⟩) .none ∧
    Presented s x (.stOpC ⟨1, 2, false, false, .fadd⟩) .none :=
  ⟨rfl, rfl, rfl, fun fn h => ⟨by
      simp only [List.mem_cons, List.not_mem_nil, or_false] at h
      obtain rfl | rfl := h <;> rfl, MayDepart.of (by revert fn; decide +kernel), MayPost.of (by revert fn; decide +kernel),
      shown (by revert fn; decide +kernel)⟩, shown (by decide +kernel), shown (by decide +kernel), shown (by decide +kernel)⟩
theorem witness_nothing_left : (∀ q ∈ (mapped 64 9 fresh).rq, q.inflight isUpdate = false) ∧ ∀ q ∈ (mapped 64 9 fresh).rq, q.inflight isRead = false := by
  decide +kernel
theorem witness_deques : let s := running (mapped 64 9); let x := mapped 64 9 fresh
    s.rPlace x 64 64 true none = .ok (home 64) ∧ x.tags = [] ∧ (∀ p ∈ x.pend, p.atomic = false) ∧ (9 : BitVec 64) ≠ -1#64 ∧
    (mapped 64 (-1#64) fresh).readB false 2 = .ok (-1#64) ∧ Presented (running (mapped 64 (-1#64))) (mapped 64 (-1#64) fresh) (.dqpush ⟨1, 2, false, false, 0⟩) .none ∧
    MayDepart s x ⟨true, true, false⟩ [s.dqOut x (home 64) 64 (.push 9)] ∧ MayDepart s x ⟨false, true, false⟩ [s.dqOut x (home 64) 64 .pop] ∧
    Presented s x (.dqpush ⟨1, 2, false, false, 0⟩) .none ∧ Presented s x (.dqpop ⟨5, 1, false, false, 0⟩) (.sreg 5) ∧
    Presented s x (.dqsteal ⟨5, 1, false, false, 0⟩) (.sreg 5) :=
  ⟨rfl, by decide +kernel, by decide +kernel, by decide +kernel, rfl, shown (by decide +kernel), MayDepart.of (by decide +kernel),
    MayDepart.of (by decide +kernel), shown (by decide +kernel), shown (by decide +kernel), shown (by decide +kernel)⟩

theorem witness_synchronisation : let s := running (mapped 64 9); let x := mapped 64 9 fresh
    (∀ w, s.syncPlace x 64 w = .ok (home 64)) ∧ (∀ n ∈ [4, 8], s.rPlace x 64 n false none = .ok (home 64)) ∧
    MayDepart s x ⟨true, false, false⟩ [⟨s.sliceNo (home 64), .mem (home 64) 8, fun dst => .waita ⟨x.src s.cur, 1, home 64, false, .eq, 9, dst, s.ctxClass x⟩⟩] ∧
    s.permitsFree s.cur.cell [s.sliceNo (home 64)] = true ∧
    (∀ i ∈ ([.acq ⟨1, false⟩, .acqs ⟨1, false⟩, .rel ⟨1, false⟩, .waita ⟨1, 2, false, false, true, .eq⟩, .waita ⟨1, 2, false, false, false, .eq⟩,
        .bar false, .bar true] : List Instr), Presented s x i .none) ∧
    (∀ p ∈ x.pend, p.hold = true ∧ p.atomic = false) ∧ x.tags = [] :=
  ⟨fun w => by cases w <;> rfl, fun n h => by
      simp only [List.mem_cons, List.not_mem_nil, or_false] at h
      obtain rfl | rfl := h <;> rfl, MayDepart.of (by decide +kernel), by decide +kernel, fun i hi => shown (by revert i; decide +kernel),
    by decide +kernel, by decide +kernel⟩
/-- A posted write is unacknowledged. -/
def posting (x : Ctx) : Ctx := { x with tags := [⟨0, 1, [], 1, false, false, [], none⟩] }
theorem witness_fences : ∀ k ∈ [FenceKind.acq, .rel, .full, .ack], ∀ c ∈ [Scope.cell, .crew, .rect, .dev],
    Presented (running id) (id fresh) (.fence false k c) .none ∧ Presented (running posting) (posting fresh) (.fence false k c) .none ∧
    (∀ p ∈ fresh.pend, p.hold = true) ∧ fresh.tags = [] ∧ (posting fresh).tags ≠ [] ∧ ∃ w ∈ (posting fresh).tags, w.taken ≠ 0 :=
  fun k hk c hc => ⟨shown (by revert k c; decide +kernel), shown (by revert k c; decide +kernel), by decide +kernel, by decide +kernel, by decide +kernel,
    by decide +kernel⟩

/-- The one task has an input and an output channel with one token of each claimed, `used` of them used. -/
def channels (vec : Bool) (used : Nat) (f : Ctx → Ctx) : State :=
  let s := running f
  { s with edges := [((0, 0), ⟨1, 0, 0, 0, vec, 4, 0xFF, 0xFF, 1, 1, 3, 0, 0, false, [⟨.data [⟨7, 0, 0⟩], true, 2⟩], 1, used⟩),
      ((0, 1), ⟨0, 0, 1, 0, vec, 4, 0xFF, 0xFF, 1, 1, 3, 1, used, false, [], 0, 0⟩)] }
theorem witness_channels : ∀ v : Bool, ∀ u ∈ [0, 1], let s := channels v u (with12 0 9); let x := with12 0 9 fresh
    x.readA false 1 = .ok 0 ∧ (∃ ls, x.readV .a false 1 = .ok ls) ∧
    ((s.inChan s.cur.slot x.node 0).any fun p => p.1 == 0 && p.2.vec == v && p.2.cused == u && p.2.cclaim == 1) = true ∧
    ((s.outChan s.cur.slot x.node 0).any fun p => p.1 == 1 && p.2.vec == v && p.2.pused == u && p.2.pclaim == 1) = true ∧
    (if v then x.width / 8 else 1) = 1 ∧
    Presented s x (.chget ⟨5, false, v, 0⟩) (if v then .vreg 5 else .sreg 5) ∧
    Presented s x (.chpeek ⟨5, 1, false, v, 0⟩) (if v then .vreg 5 else .sreg 5) ∧ Presented s x (.chput ⟨1, false, v, 0⟩) .none ∧
    Presented s x (.chstat ⟨5, false, true, 0⟩) (.sreg 5) :=
  fun v u h => ⟨rfl, ⟨_, rfl⟩, by revert v u; decide +kernel, by revert v u; decide +kernel, by revert v; decide +kernel,
    Presented.of rfl (by revert v; decide +kernel), Presented.of rfl (by revert v; decide +kernel),
    Presented.of rfl (by revert v; decide +kernel), Presented.of rfl (by decide +kernel)⟩

/-- A command table of one word for streamer 0, with the operands of SCMD in place of AB and C. -/
def tabled (x : Ctx) : Ctx := { with12 0x40 9 x with window := [0, 0, 0, 0x01031000#32], cmdbase := 0 }
theorem witness_command_issue : let s := running tabled; let x := tabled fresh
    x.readA false 1 = .ok 0x40 ∧ x.readB false 2 = .ok 9 ∧
    (x.tableWord 0).any (fun e => e.extractLsb' 96 6 == 0 && e.getLsbD 112 && e.getLsbD 113) = true ∧
    (∀ n ∈ [1, 2, 3, 4, 5], s.portLoad s.cur.slot (BitVec.ofNat 128 (n * 2 ^ 108)) = 0) ∧
    (∀ d ∈ [0, 5], Presented s x (.scmd ⟨.ofNat 6 d, 1, 2, false, false, 0⟩) (.sreg (.ofNat 6 d))) ∧
    Presented s x (.scmdw ⟨5, 1, 2, false, false, 0⟩) (.sreg 5) :=
  ⟨rfl, rfl, by decide +kernel, by decide +kernel, fun d h => shown (by revert d; decide +kernel), shown (by decide +kernel)⟩

/-- A handler is installed at word 3. -/
def handled (x : Ctx) : Ctx := { x with trapEn := true, trapBase := 3 }
theorem witness_traps : ∀ f ∈ [id, handled], (running f).ctx? (running f).cur = some (f fresh) ∧ (f fresh).injecting = none ∧
    (f fresh).act = false ∧ (f fresh).pend = [] ∧ ∀ i ∈ ([.trap 9, .sysc 9, .bkpt 9] : List Instr), Presented (running f) (f fresh) i .none := by
  intro f hf
  simp only [List.mem_cons, List.not_mem_nil, or_false] at hf
  obtain rfl | rfl := hf <;> exact ⟨rfl, by decide +kernel, by decide +kernel, by decide +kernel, fun i hi => shown (by revert i; decide +kernel)⟩
theorem witness_trap_in_a_handler : (running queued).ctx? (running queued).cur = some (queued fresh) ∧ (queued fresh).injecting = none ∧
    (queued fresh).act = true ∧ (queued fresh).pend = [] ∧ (queued fresh).rq ≠ [] := ⟨rfl, by decide +kernel, by decide +kernel, by decide +kernel, by decide +kernel⟩
/-- A handler of which 16 instructions are unfinished, and 15. -/
def crowded (n : Nat) (x : Ctx) : Ctx :=
  let p : Pend := ⟨7, .ldD ⟨5, 1, false, .g, 0⟩, 0, .sreg 5, false, false, 0, 0, 1, 0, [], [], false, false, false, none⟩
  { queued x with pend := List.replicate n p }
theorem witness_eret_bound : (crowded 15 fresh).pend.length + (crowded 15 fresh).rq.length = 16 ∧
    Presented (running (crowded 15)) (crowded 15 fresh) .eret .none ∧
    (let f := fun x => { crowded 15 x with rq := (queued x).rq ++ (queued x).rq };
      16 < (f fresh).pend.length + (f fresh).rq.length ∧ Presented (running f) (f fresh) .eret .none) :=
  ⟨by decide +kernel, shown (by decide +kernel), by decide +kernel, shown (by decide +kernel)⟩
/-- A handler runs; its trap left an entry of the given STATUS, and the last results. -/
def handling (status : BitVec 4) (x : Ctx) : Ctx :=
  { queued x with rq := [⟨3, 0, 5, status, false, false, encodeWord (.add ⟨5, 1, 2, false, false⟩), 7, 9, [], 0, 0, [], none, none⟩], snapL := [1, 2, 3, 4], snapV := [[], []] }
theorem witness_handlers : ∀ n ∈ [0, 2, 3, 4], let f := handling (.ofNat 4 n); (f fresh).act = true ∧ (f fresh).rq ≠ [] ∧
    ((f fresh).rq.any fun e => e.decoded.any noReplay) = false ∧ (f fresh).snapL = [1, 2, 3, 4] ∧ (f fresh).snapV.length = 2 ∧
    Presented (running f) (f fresh) .eret .none ∧ Presented (running f) (f fresh) .rply .none ∧ Presented (running f) (f fresh) .rplys .none :=
  fun n h => ⟨by revert n; decide +kernel, by revert n; decide +kernel, by revert n; decide +kernel, by revert n; decide +kernel,
    by revert n; decide +kernel, shown (by revert n; decide +kernel), shown (by revert n; decide +kernel), shown (by revert n; decide +kernel)⟩
theorem witness_no_handler : fresh.act = false ∧ fresh.rq = [] ∧
    ∀ i ∈ ([.eret, .rply, .rplys] : List Instr), Presented (running id) (id fresh) i .none :=
  ⟨by decide +kernel, by decide +kernel, fun i hi => shown (by revert i; decide +kernel)⟩
/-- The configurations on both sides of each check of R259, the operands at CARVE's bound, and IDLE before and after its event. -/
theorem witness_system : fresh.readA false 1 = .ok 0 ∧ Presented (running id) (id fresh) .halt .none ∧ fresh.pend = [] ∧
    Presented (running id) (id fresh) (.cntrd 5 7) (.sreg 5) ∧ Presented (running id) (id fresh) (.cntcfg 1 false 7) .none ∧
    (let ok : BitVec 64 := 0x800001; ok.extractLsb' 24 40 = 0 ∧ ok.extractLsb' 16 5 = 0 ∧ ok.extractLsb' 12 3 = 0 ∧ (ok.extractLsb' 0 12).toNat ∈ eventCodes) ∧
    (fresh.tags = [] ∧ (∀ q ∈ fresh.rq, q.status ≠ 1) ∧ (posting fresh).tags ≠ [] ∧ (posting fresh).readA false 1 = .ok 0 ∧
      Presented (running posting) (posting fresh) (.cntcfg 1 false 7) .none) ∧
    (0xFFF#64).toNat ∉ eventCodes ∧ (0x1000001#64).extractLsb' 24 40 ≠ 0 ∧ Presented (running id) (id fresh) (.carve ⟨5, 1, false⟩) (.sreg 5) ∧
    (0xFFFFFFFF#64).toNat < 2 ^ 32 ∧ 2 ^ 32 ≤ (0x100000000#64).toNat ∧ Presented (running id) (id fresh) .idle .none ∧ fresh.hold ≠ .woken ∧
    (let f := fun x : Ctx => { x with hold := .woken }; Presented (running f) (f fresh) .idle .none ∧ (f fresh).hold = .woken) :=
  ⟨rfl, shown (by decide +kernel), by decide +kernel, shown (by decide +kernel), shown (by decide +kernel), by decide +kernel,
    ⟨by decide +kernel, by decide +kernel, by decide +kernel, rfl, shown (by decide +kernel)⟩, by decide +kernel, by decide +kernel, shown (by decide +kernel), by decide +kernel, by decide +kernel, shown (by decide +kernel), by decide +kernel,
    shown (by decide +kernel), by decide +kernel⟩

/-! ### Witnesses of commands and engines -/

/-- The state when event `ev` reaches its unit. -/
def delivered (ev : Event) (s : State) : State := { s with net := { s.net with hand := some ev } }
/-- Lease 1's page tables at lease address 0 map its 2 MiB of memory, writable, at virtual address 0. -/
def paged (s : State) : State :=
  ((s.store (.dev 1 0) (leBytes 8 0x1003)).store (.dev 1 0x1000) (leBytes 8 0x2003)).store (.dev 1 0x2000) (leBytes 8 0xF)
/-- An unbound streaming memory node. -/
def idleNode (kind : Nat) (sink : Bool) : MemNode :=
  { node := 1, kind := kind, sink := sink, stride := 0, fn := 0, context := 0, rowLen := 0, rowStride := 0, binding := none, tags := [],
    nextTag := 0, seq := 0, status := 0, queue := [], eosSeen := false, spent := false, faulted := false, held := false }
/-- The rectangle has streamer 0, memory node 0 and matrix node 0 on row half 3. -/
def equipped : State :=
  let s := paged (running id)
  { s with strms := [((0, 0), ⟨0, [], false⟩)], nodes := [((0, 0), idleNode 0 false)],
           rows := [(3, { RowHalf.idle 1 with bound := some (0, 0) })] }

/-- A command word: CMDOP, class, token, C and AB. -/
def cmd (op cls tok c ab : Nat) : CWord := BitVec.ofNat 128 (op * 2 ^ 120 + cls * 2 ^ 108 + tok * 2 ^ 96 + c * 2 ^ 64 + ab)

/-- Another class, an engine that is not bound, a CFLAGS bit that C.COPY does not define, a nonzero reserved field. -/
theorem witness_badcmd : (∀ p ∈ [(2, 5, 0), (1, 5, 2 ^ 104), (1, 0, 2 ^ 115), (1, 5, 2 ^ 103)], let w := cmd 1 p.1 p.2.1 0 p.2.2
      (commandOf (.cCopy benchCtx w)).isSome = true ∧
      (cmdClass w ≠ 1 ∨ equipped.bound 0 1 (cmdIndex w) = false ∨ cmdRsv w = true ∨ cmdFlags w &&& ~~~1#6 ≠ 0#6)) ∧
    equipped.ctx? benchCtx = some fresh ∧ State.reset.ctx? benchCtx = none ∧ 0 < (cmdToken (cmd 1 2 5 0 0)).toNat ∧
    (cmdToken (cmd 1 2 5 0 0)).toNat < 60 ∧ cmdToken (cmd 1 1 0 0 0) = 0#6 := by decide +kernel

/-- What `AtPort` asks for, as a Boolean. -/
def atTheirPort (s : State) (w : CWord) (cls : Nat) (flags : BitVec 6) : Bool :=
  cmdClass w == cls && s.bound 0 cls (cmdIndex w) && !cmdRsv w && cmdFlags w &&& ~~~flags == 0#6
theorem AtPort.of {s : State} {w : CWord} {x : Ctx} {cls : Nat} {flags : BitVec 6} (h : s.ctx? benchCtx = some x)
    (g : atTheirPort s w cls flags = true) : AtPort s benchCtx w x cls flags := by
  simp only [atTheirPort, Bool.and_eq_true, beq_iff_eq, Bool.not_eq_true'] at g
  exact ⟨h, g.1.1.1, g.1.1.2, g.1.2, g.2⟩

/-- The last 8 bytes of the scratchpad, LEN 0 (one word) in C[31:20] of the word. -/
theorem witness_streamer_commands : (∀ op ∈ [1, 2, 3, 4, 5], let w := cmd op 1 5 0x1FFF8 0x10000
      AtPort equipped benchCtx w fresh 1 (if cmdOp w = 0x02 then 7 else 1)) ∧
    (∀ op ∈ [1, 2, 3, 4, 5], let w := cmd op 1 5 0x1FFF8 0x10000
      (equipped.cell? benchCtx.cell).any (fun k => decide ((w.extractLsb' 64 17).toNat + 8 ≤ k.limit)) = true ∧ (commandBytes w).any (· ≤ 8) = true ∧
      w.extractLsb' 81 3 = 0 ∧ (w.extractLsb' 64 17).toNat % 8 = 0 ∧ w.extractLsb' 57 7 = 0 ∧ (w.extractLsb' 0 57).toNat % 8 = 0 ∧
      (cmdOp w).toNat = op) :=
  ⟨fun op h => AtPort.of rfl (by revert op; decide +kernel), by decide +kernel⟩
theorem witness_row_commands : (∀ op ∈ [0x11, 0x12, 0x13], AtPort equipped benchCtx (cmd op 3 5 1 0x10000) fresh 3 0) ∧
    (cmdC (cmd 0x11 3 5 3 0x10000)).toNat < 4 ∧ cmdC (cmd 0x12 3 5 0xF1 0x10000) &&& ~~~0xF1#32 = 0 ∧ 0x10000 % 128 = 0 ∧
    (cmd 0x11 3 5 3 0x10000).extractLsb' 57 7 = 0 :=
  ⟨fun op h => AtPort.of rfl (by revert op; decide +kernel), by decide +kernel⟩
theorem witness_node_commands : (∀ op ∈ [0x06, 0x08, 0x09, 0x0A, 0x18, 0x19], ∀ c ∈ [1, 0x100000], AtPort equipped benchCtx (cmd op 2 5 c 0x10000) fresh 2 0) ∧
    equipped.node? benchCtx.slot (cmdIndex (cmd 0x08 2 5 1 0x10000)) = some (idleNode 0 false) ∧ (idleNode 0 false).binding = none ∧
    (∀ st ∈ [RectState.armed, .running], let s := equipped.modRect 0 fun r => { r with state := st }; (s.rect? 0).any (fun r => r.state == st) = true) ∧
    equipped.tokenBytes benchCtx.slot (idleNode 0 false) = 4 ∧ (∀ c ∈ (idleNode 0 false).queue, cmdOp c.word ≠ 0x06) ∧
    cmdAB (cmd 0x09 2 5 0 0) = 0 ∧ cmdC (cmd 0x09 2 5 0 0) = 0 ∧ (cmdB (cmd 0x0A 2 5 0 0)).toNat % 4 = 0 ∧
    (cmdC (cmd 0x18 2 5 0x100000 0)).toNat = 2 ^ 20 ∧ (cmd 0x18 2 5 1 0x10000).extractLsb' 57 7 = 0 :=
  ⟨fun op h c g => AtPort.of rfl (by revert op c; decide +kernel), by decide +kernel⟩

/-- `equipped` with eight words at virtual address 0x10000. -/
def recorded (ws : List Nat) : State := equipped.store (.dev 1 0x10000) (ws.flatMap (leBytes 8))
/-- The read of a record of eight words at 0x10000, as `ok` finds it. -/
def reads (s : State) (die : Option Nat) (ok : State → List Nat → Bool) : Bool :=
  match s.span die 1 0x10000 64 false with
  | .ok ps => let p := s.readWords ⟨1, benchHandle⟩ ps; ok p.1 p.2
  | .absent _ | .refused _ _ _ _ => false
theorem reads.spec {s : State} {die : Option Nat} {ok : State → List Nat → Bool} (h : reads s die ok = true) :
    ∃ ps, s.span die 1 0x10000 64 false = .ok ps ∧
      ok (s.readWords ⟨1, benchHandle⟩ ps).1 (s.readWords ⟨1, benchHandle⟩ ps).2 = true := by
  unfold reads at h
  split at h
  · exact ⟨_, ‹_›, h⟩
  · cases h
  · cases h

/-- A convolution of one 1 by 1 patch of one channel: eight pixels of a tile. -/
def convRecord : List Nat := [0, 1 + 2 ^ 16 + 2 ^ 32 + 2 ^ 48, 0x01010101, 2 ^ 32, 0, 0, 0, 0]
theorem witness_convolution : (recorded convRecord).ctx? benchCtx = some fresh ∧
    atTheirPort (recorded convRecord) (cmd 0x06 2 5 0x1FFE0 0x10000) 2 0 = true ∧ (cmd 0x06 2 5 0x1FFE0 0x10000).extractLsb' 57 7 = 0 ∧
    (idleNode 0 false).binding = none ∧
    ∃ ps, ((recorded convRecord).engineFill 0 1 0x10000).span (some 0) 1 0x10000 64 false = .ok ps ∧
      convBad (((recorded convRecord).engineFill 0 1 0x10000).readWords ⟨1, benchHandle⟩ ps).2 (cmd 0x06 2 5 0x1FFE0 0x10000) 0x20000 = false := by
  refine ⟨rfl, by decide +kernel, by decide +kernel, rfl, ?_⟩
  obtain ⟨ps, h, g⟩ := reads.spec (s := (recorded convRecord).engineFill 0 1 0x10000) (die := some 0)
    (ok := fun _ ws => !convBad ws (cmd 0x06 2 5 0x1FFE0 0x10000) 0x20000) (by decide +kernel)
  exact ⟨ps, h, by simpa using g⟩

/-- A tile task of FP32 operands, 16 by 16 by 16, budget and deadline far off; and one past its deadline. -/
def tileRecord (deadline : Nat) : List Nat :=
  [8 * 2 ^ 60 + 0x20000, 8 * 2 ^ 60 + 0x21000, 8 * 2 ^ 60 + 0x22000, 64 + 64 * 2 ^ 32, 64 + 100000 * 2 ^ 32, 1 + 2 ^ 12 + 2 ^ 24 + 2 ^ 37 + 7 * 2 ^ 48, 0,
   deadline]
/-- Lease 1 with a quarter of the row halves' cycles. -/
def shared (s : State) : State := s.modLease 1 fun l => { l with sched := 0x010001000100 }
theorem witness_tile_task : let w := cmd 0x10 4 5 0 0x10000
    (∀ d ∈ [0, 100000], atTheirPort (shared (recorded (tileRecord d))) w 4 1 = true) ∧ w.extractLsb' 57 7 = 0 ∧ cmdC w = 0 ∧
    ∀ d ∈ [0, 100000], reads (shared (recorded (tileRecord d))) none (fun t ws => !taskBad ws && ((parseTile ws).fa == .f32) &&
      (tileFmt (parseTile ws).fa (parseTile ws).fb (parseTile ws).fc).isSome && t.fp4Windows none 1 (parseTile ws) == .yes &&
      (t.taskCheck 1 ws false true).isNone == (d == 100000)) = true := by decide +kernel

/-- A command in a queue: word, started, chunks landed. -/
def entry (w : CWord) (started : Bool) (sent : List Nat) : Cmd := ⟨7, benchCtx, benchHandle, 1, w, started, sent, []⟩
/-- `equipped` with `c` in the queue of the streamer, of the memory node and of the row half. -/
def working (c : Cmd) (ev : Event) : State :=
  delivered ev { equipped with
    strms := [((0, 0), ⟨0, [c], false⟩)], nodes := [((0, 0), { idleNode 0 false with queue := [c] })],
    rows := [(3, { RowHalf.idle 1 with bound := some (0, 0), queue := [c] })] }
/-- A C.COPY of 1,024 bytes from 0x10000, into (0) or out of (1) the scratchpad at 0x100. -/
def copying (out : Nat) : CWord := cmd 1 1 5 (0x100 + 127 * 2 ^ 20) 0x10000 + BitVec.ofNat 128 (out * 2 ^ 114)

/-- `InHand`, as a Boolean. -/
def inHand (s : State) (p : Port) (c : Cmd) : Bool := s.portWorks p && s.cmd? p c.id == some c
theorem InHand.of {s : State} {p : Port} {c : Cmd} (h : inHand s p c = true) : InHand s p c := by
  simp only [inHand, Bool.and_eq_true, beq_iff_eq] at h
  exact ⟨h.1, h.2⟩

theorem witness_command_start : let c := entry (copying 0) false []; let s := working c (.engineCommandStart (.strm 0 0))
    s.startDue (.strm 0 0) = true ∧ s.nextCmd (.strm 0 0) = some c ∧ commandBytes c.word = some 1024 := by decide +kernel
theorem witness_chunks : ∀ out ∈ [0, 1], ∀ k ∈ [0, 1], let c := entry (copying out) true []
    let s := working c (.copyChunkLand (.strm 0 0) 7 k)
    inHand s (.strm 0 0) c = true ∧ s.copyrBefore c k = false ∧ s.chunkPermit (.strm 0 0) c k = true ∧ cmdOp c.word = 0x01 ∧ c.word.getLsbD 114 = (out == 1) ∧
    (match s.access (some (s.strmDie 0 0)) c.lease (c.word.getLsbD 114) (pieces (0x10000 + 512 * k) 512) with
     | .ok _ => true | .absent _ | .refused _ _ _ _ => false) = true := by decide +kernel
theorem witness_command_end : (let c := entry (copying 0) true [1, 0]; inHand (working c (.engineCommandComplete (.strm 0 0) 7)) (.strm 0 0) c = true ∧
      c.started = true ∧ (c.bytes + 511) / 512 ≤ c.sent.length) ∧
    (let c := entry (cmd 0x19 2 5 0 0x10000) true []; let s := working c (.engineCommandComplete (.memn 0 0) 7);
      inHand s (.memn 0 0) c = true ∧ cmdOp c.word = 0x19 ∧ (s.node? 0 0).isSome = true) ∧
    (let c := entry (cmd 0x12 3 5 0 0x10000) true []; inHand (working c (.engineCommandComplete (.mrow 0 0) 7)) (.mrow 0 0) c = true ∧
      cmdOp c.word ≠ 0x11) ∧
    (let c := entry (copying 0) true []; inHand (working c (.engineCommandError (.strm 0 0) 7 4)) (.strm 0 0) c = true) ∧
    (delivered (.carveRepartition 1) equipped).net.hand = some (.carveRepartition 1) := by decide +kernel

/-- An edge from or to node 1 with credit and the tokens `buf`. -/
def nodeEdge (toNode : Bool) (vec : Bool) (buf : List BufTok) : Edge :=
  if toNode then ⟨0, 0, 1, 0, vec, 4, 0xFF, 0xFF, 1, 1, 1, 0, 0, false, buf, 0, 0⟩ else ⟨1, 0, 0, 0, vec, 4, 0xFF, 0xFF, 1, 1, 1, 0, 0, false, buf, 0, 0⟩
/-- A binding of 4 tokens at 0x10000, of which `n` have moved. -/
def bindingOf (n : Nat) : Binding := ⟨0x10000, 4, some (entry (cmd 8 2 5 4 0x10000) true []), n, n, n, 0, none, false⟩
/-- `equipped` with node `n` bound and one edge. -/
def streaming (n : MemNode) (e : Edge) (ev : Event) : State := delivered ev { equipped with nodes := [((0, 0), n)], edges := [((0, 0), e)] }

theorem witness_source_node : (let n := { idleNode 0 false with binding := some (bindingOf 3), tags := [⟨0, 3, some [⟨9, 0, 0⟩], none⟩] }
      let s := streaming n (nodeEdge false false []) (.nodeSourceDeliver 0 0);
      s.node? 0 0 = some n ∧ s.works 0 n.node = true ∧ s.outChan 0 n.node 0 = some (0, nodeEdge false false []) ∧ 0 < (nodeEdge false false []).free) ∧
    (let n := { idleNode 0 false with binding := some (bindingOf 3), tags := [⟨0, 3, none, none⟩] }
      let s := streaming n (nodeEdge false false []) (.nodeReadResponse 0 0 0);
      s.drains 0 = true ∧ (n.tags.find? fun q => q.tag == 0 && q.val.isNone) = some ⟨0, 3, none, none⟩ ∧
      s.engineLoc (some n.die) 1 (n.elemAt (bindingOf 3) 4 3) false = .found (.dev 1 0x1000C)) := by decide +kernel
/-- The input that a node takes. -/
def takes (s : State) (n : MemNode) (b : Binding) (e : Edge) (tok : Tok) : Bool :=
  match s.nodeInput 0 0 with
  | some (n', b', k, e', tok') => n' == n && b' == b && k == 0 && e' == e && tok' == tok
  | none => false
/-- The last token of a sink. -/
theorem witness_sink : let n := { idleNode 0 true with binding := some (bindingOf 3) }; let e := nodeEdge true false [⟨.data [⟨9, 0, 0⟩], true, 2⟩]
    let s := streaming n e (.nodeSinkWrite 0 0)
    takes s n (bindingOf 3) e (.data [⟨9, 0, 0⟩]) = true ∧ (bindingOf 3).moved < (bindingOf 3).count ∧
    s.engineLoc (some n.die) 1 (n.tokenAt (bindingOf 3) 4 3) true = .found (.dev 1 0x1000C) := by decide +kernel
/-- The last element of a RANDOM node. -/
theorem witness_random : let n := { idleNode 1 false with binding := some (bindingOf 0) }; let e := nodeEdge true false [⟨.data [⟨3, 0, 0⟩], true, 2⟩]
    takes (streaming n e (.nodeRequestElement 0 0)) n (bindingOf 0) e (.data [⟨3, 0, 0⟩]) = true ∧ n.tags.length < Config.nodeTags ∧
    tokWord [⟨3, 0, 0⟩] 0 < (bindingOf 0).count := by decide +kernel
/-- An update of the last element. -/
def updateToken : List Lane := ⟨3, 0, 0⟩ :: List.replicate 7 (.plain 0)
theorem witness_update : let n := { idleNode 2 false with binding := some (bindingOf 0) }; let e := nodeEdge true true [⟨.data updateToken, true, 2⟩]
    let s := streaming n e (.nodeRequestElement 0 0)
    takes s n (bindingOf 0) e (.data updateToken) = true ∧ badUpdate updateToken 4 = false ∧
    s.engineLoc (some n.die) 1 (0x10000 + 8 * tokWord updateToken 0) true = .found (.dev 1 0x10018) := by decide +kernel
theorem witness_stream_end : let b := { bindingOf 4 with last := true }; let n := { idleNode 0 false with binding := some b, spent := true }
    let s := streaming n (nodeEdge false false []) (.nodeStreamEnd 0 0)
    s.works 0 n.node = true ∧ s.node? 0 0 = some n := by decide +kernel

/-- The task's edge 0 with two tokens, the second uncommitted; and its context without a firing. -/
def tokensOf (buf : List BufTok) (f : Ctx → Ctx) (ev : Event) : State :=
  delivered ev { running f with edges := [((0, 0), ⟨1, 0, 0, 0, false, 4, 0xFF, 0xFF, 1, 1, 2, 0, 0, false, buf, 0, 0⟩)] }
def tokens : Event → State := tokensOf [⟨.data [⟨7, 0, 0⟩], true, 2⟩, ⟨.data [⟨8, 0, 0⟩], false, 2⟩] id
/-- The context between two firings, its input ended. -/
def between (x : Ctx) : Ctx := { x with firing := false, sourceDue := true, lastStart := none }
theorem witness_tokens : (∀ ev ∈ ([.channelTokenArrival 0 0 (.data [⟨1, 0, 0⟩]), .channelTokenArrival 0 0 .eos, .commitMarkArrival 0 0 1,
      .commitMarkArrival 0 0 9, .creditArrival 0 0 1] : List Event), ((tokens ev).edge? 0 0).isSome = true ∧ (tokens ev).net.hand = some ev) ∧
    (∀ p ∈ (tokens (.creditArrival 0 0 1)).ctxs, p.2.eosOwed = []) ∧
    (let s := tokensOf [⟨.eos, true, 2⟩] between (.eosConsume benchCtx);
      s.live benchCtx (between fresh) = true ∧ (between fresh).ended = false ∧ (s.ins 0 (between fresh).node).length = 1 ∧
      (s.cell? benchCtx.cell).any (fun k => !k.gated) = true ∧
      ∀ p ∈ s.ins 0 (between fresh).node, p.2.eosNext = true) ∧
    (let s := (delivered (.cellWake benchCtx.cell) (running id)).modCell benchCtx.cell (fun k => { k with gated := true });
      (s.cell? benchCtx.cell).any Cell.gated = true) ∧
    (let s := (delivered (.firingStart benchCtx.cell) (running between)).modCell benchCtx.cell (fun k => { k with holder := none });
      s.firingDue benchCtx.cell = true ∧ s.nextFiring benchCtx.cell = some (benchCtx, between fresh)) := by decide +kernel

/-- A rectangle whose control is one controller over leaf 0 and controller 1. -/
def controlled (ev : Event) : State :=
  delivered ev ((running id).modRect 0 fun r => { r with
    image := { r.image with ctls := [⟨0, [.leaf 0, .ctl 1], 1, true, 0, 0⟩, ⟨0, [.leaf 0], 2, false, 3, 0⟩], root := some 0 },
    ctls := [⟨true, 1, [0, 0], [0, 0]⟩, ⟨true, 1, [0], [0]⟩] })
theorem witness_pulses : (∀ ev ∈ ([.ctlStartPulse 0 (.leaf 0), .ctlStartPulse 0 (.ctl 0), .ctlStartPulse 0 (.ctl 1), .ctlDonePulse 0 0 0,
      .ctlDonePulse 0 0 1, .borderTokenRefuse 0 1 2 3] : List Event), (controlled ev).net.hand = some ev ∧ ((controlled ev).rect? 0).isSome = true) ∧
    ((controlled .mctpStatusQuery).rect? 0).all (fun r => (r.image.ctls[0]?).isSome && (r.image.ctls[1]?).isSome &&
      r.image.leafOf fresh.node == some 0) = true ∧
    (let s := (controlled (.ctlDonePulse 0 0 0)).modCtx benchCtx (fun x => { x with firing := false, ended := true });
      s.leafDone 0 0 = true) ∧
    (∀ d : Bool, let s := (delivered (.firingOverrun benchCtx) (running fun x => { x with fireCnt := 1000001 })).modRect 0 (fun r =>
        { r with item := { r.item with demotePolicy := d } });
      s.overrunDue benchCtx = true) := by decide +kernel

/-! ### Witnesses of answers, homes and the network -/

/-- The task as a source, and where its answers go. -/
def asker : Src := .task 1 benchHandle 0 0
def answerTo : ReplyTo := .ctxReply benchCtx benchHandle 7 1 none
/-- An instruction that waits for `left` more answers, with destination s5. -/
def waitingFor (left : Nat) : Pend :=
  ⟨7, .ldD ⟨5, 1, false, .g, 0⟩, 0, .sreg 5, false, false, 0, 0, left, 0, [], [], false, false, false, none⟩
/-- A write tag that waits for `left` acknowledgements. -/
def writing (left : Nat) : WriteTag := ⟨3, left, [], left, false, false, [], none⟩
theorem witness_answers : ∀ left ∈ [1, 2], let f := fun x : Ctx => { x with pend := [waitingFor left], tags := [writing left] }
    let s := running f
    s.ctx? benchCtx = some (f fresh) ∧ ((f fresh).pend.find? fun q => q.id == 7) = some (waitingFor left) ∧
    ((f fresh).tags.find? fun v => v.tag == 3) = some (writing left) ∧ benchHandle + 1 ≠ (f fresh).handle := by decide +kernel

/-- Requests of the task: of memory at 0x10040, with one operation. -/
def rwReq (write : Bool) (reply : ReplyTo) : RwReq := ⟨asker, 1, .dev 1 0x10040, 8, write, leBytes 8 9, false, 0, false, false, 0, reply, 2⟩
def amoReq (fn : AmoFn) (b cmp : BitVec 64) : AmoReq := ⟨asker, 1, 3, fn, .dev 1 0x10040, b, cmp, true, true, false, some 4, answerTo, 1⟩
def dqReq (op : DqOp) : DqReq := ⟨asker, 1, 0, 3, op, .dev 1 0x10040, 0x10040, false, false, answerTo, 2⟩
def syncReqOf (shared : Bool) : SyncReq := ⟨asker, benchCtx, 1, .dev 1 0x10040, 0x10040, shared, answerTo, 2⟩
def waitaReq (b : BitVec 64) (l : Loc) : WaitaReq := ⟨asker, 1, l, false, .eq, b, answerTo, 2⟩

/-- The packet of an event in switch buffer 6, sent at cycle `since` with class `cls`. -/
def packet (ev : Event) (cls since : Nat) : Flight := ⟨0, cls, 6, since, ev⟩
/-- A state with packets on their way. -/
def sending (fs : List Flight) (ev : Event) : State :=
  let s := delivered ev (running id)
  { s with net := { s.net with agenda := fs }, clock := { s.clock with cycles := 2048 } }
theorem witness_network : (∀ ev ∈ ([.retryResend (.rw (rwReq false answerTo)), .evictionResend (.amo (amoReq .add 1 0)),
      .evictionResend (.rw (rwReq false answerTo)), .linkRetransmission (.amo (amoReq .add 1 0)), .linkRetransmission (.dq (dqReq .pop))] : List Event),
      (sending [] ev).net.hand = some ev) ∧
    (∀ cls ∈ [0, 1], let f := packet (.homeReadWrite (rwReq false answerTo)) cls 10
      f ∈ (sending [f, packet (.homeAtomic (amoReq .add 1 0)) 1 9] (.urgentPacketEvict 6)).net.agenda ∧ f.buf = 6 ∧
        f.ev.req? = some (.rw (rwReq false answerTo)) ∧ isRequest f = true ∧ f.cls ≤ 1) ∧
    (let f := packet (.homeReadWrite (rwReq false answerTo)) 1 0; (sending [f] (.packetPromotion 0)).net.agenda[0]? = some f ∧ f.cls < 2 ∧
      f.since + 2048 ≤ (sending [f] (.packetPromotion 0)).clock.cycles) := by decide +kernel
/-- The evicted packet is the youngest one of class 0, or of class 1 where there is none. -/
theorem witness_eviction : let f := packet (.homeReadWrite (rwReq false answerTo)) 1 10
    ∀ g ∈ (sending [f, packet (.homeAtomic (amoReq .add 1 0)) 1 9] (.urgentPacketEvict 6)).net.agenda, g ≠ f → isRequest g = true → g.buf = 6 →
      (g.cls = 0 → f.cls = 0 ∧ g.since < f.since) ∧ (g.cls = 1 → f.cls = 0 ∨ g.since < f.since) := by decide +kernel
/-- Two requests that combine, and the reply of the combined one. -/
theorem witness_combining : let a := amoReq .add 1 0; let b := { amoReq .add 2 0 with seq := 4 }
    let s := sending [packet (.homeAtomic a) 2 0, packet (.homeAtomic b) 2 0] (.combineAtSwitch 4 a b)
    .homeAtomic a ∈ s.sent ∧ .homeAtomic b ∈ s.sent ∧ a ≠ b ∧ a.loc = b.loc ∧ a.fn = b.fn ∧ a.lease = b.lease ∧ a.comb = true ∧ b.comb = true ∧
    a.retrans = false ∧ b.retrans = false ∧ a.queue = some 4 ∧ b.queue = some 4 ∧ (s.net.waits.filter fun p => p.2.switch == 4).length < 32 ∧
    a.reply = answerTo ∧ b.reply = answerTo ∧ a.returning = true ∧ b.returning = true := by decide +kernel

/-- A source whose rectangle stands, at a home that has not answered its sequence number and one that has. -/
theorem witness_home_requests : (running id).sourceGone asker = false ∧ (running id).covers 1 (.dev 1 0x10040) = true ∧
    (∀ w : Bool, (rwReq w answerTo).write = w) ∧ (rwReq false answerTo).vec = false ∧ (running id).homes.copies = [] ∧
    (∀ fn ∈ [AmoFn.add, .cas], (amoReq fn 1 1).returning = true ∧ (amoReq fn 1 1).fn = fn) ∧
    (running id).heldReply ((running id).sliceNo (.dev 1 0x10040)) asker 3 = none ∧
    BitVec.ofNat 64 (leNat ((running id).load (.dev 1 0x10040) 8)) ≠ (amoReq .cas 1 1).cmp ∧
    (let s := { running id with homes := { (running id).homes with replies := [⟨(running id).sliceNo (.dev 1 0x10040), asker, 3, .word 9⟩] } }
     s.heldReply (s.sliceNo (.dev 1 0x10040)) asker 3 = some (.word 9)) := by decide +kernel

/-- A deque of capacity 2 at 0x10040 with `n` items, its items at 0x10080. -/
def dequed (n : Nat) : State :=
  (((paged (running id)).store (.dev 1 0x10040) (leBytes 8 0x10080)).store (.dev 1 0x10048) [1]).store (.dev 1 0x10058) (leBytes 8 n)
theorem witness_deque_home : ∀ n ∈ [0, 1, 2], let s := dequed n; let d := s.deque (.dev 1 0x10040)
    s.sourceGone asker = false ∧ s.covers 1 (.dev 1 0x10040) = true ∧ s.homes.waiters = [] ∧ s.heldReply (s.sliceNo (.dev 1 0x10040)) asker 3 = none ∧
    d.malformed = false ∧ d.count = n ∧ 2 ^ d.capl = 2 ∧
    s.engineLoc none 1 ((d.base + 8 * (d.bottom % 2 ^ d.capl)) % 2 ^ 64) true = .found (.dev 1 (0x10080 + 8 * (n % 2))) ∧
    s.engineLoc none 1 ((d.base + 8 * (d.top % 2 ^ d.capl)) % 2 ^ 64) false = .found (.dev 1 0x10080) := by decide +kernel

/-- A free object, one that another source holds, one that the task holds. -/
theorem witness_sync_home : (running id).ctx? benchCtx = some fresh ∧ fresh.handle = benchHandle ∧ (running id).sourceGone asker = false ∧
    (running id).homes.waiters = [] ∧ ((running id).objectsAt ((running id).sliceNo (.dev 1 0x10040))).length < Config.syncObjects ∧
    (running id).homes.holds = [] ∧ (running id).syncWaitsAt ((running id).sliceNo (.dev 1 0x10040)) < Config.syncWaiters ∧
    (let h : SyncHold := ⟨1, .dev 1 0x10040, asker, false⟩; let s := { running id with homes := { (running id).homes with holds := [h] } }
     (s.homes.holds.find? fun k => k.loc == (syncReqOf false).loc && k.src == asker) = some h ∧
     (.dev 1 0x10040) ∈ s.objectsAt (s.sliceNo (.dev 1 0x10040)) ∧ ¬ ∀ k ∈ s.homes.holds, k.loc = (syncReqOf false).loc → k.shared = true) ∧
    (∀ b ∈ [0, 1], let r := waitaReq (.ofNat 64 b) (.dev 1 0x10040)
      waitaHolds r (leNat ((running id).load r.loc 8)) = (b == 0) ∧ (running id).covers r.lease r.loc = true) ∧
    (waitaReq 1 (.host 0x10040)).loc.isHost = true ∧ (running id).covers 1 (.host 0x10040) = true ∧
    waitaHolds (waitaReq 1 (.host 0x10040)) (leNat ((running id).load (.host 0x10040) 8)) = false ∧
    (running id).watchesAt ((running id).sliceNo (.dev 1 0x10040)) < Config.watches := by decide +kernel

/-- The port of the task's own scratchpad: word 1 full, and empty; its table with room, and full. -/
def ported (empty : Bool) (n : Nat) : State :=
  (running id).modCell benchCtx.cell fun k => { k with
    empties := if empty then [1] else [], parked := List.replicate n ⟨benchCtx.cell, 16, .ldf, answerTo, 2⟩ }
theorem witness_ports : (∀ e : Bool, ((ported e 0).cell? benchCtx.cell).any (fun k => k.isFull 1 == !e && k.parked.isEmpty) = true) ∧
    (∀ e : Bool, ∀ n ∈ [31, 32], ((ported e n).cell? benchCtx.cell).any (fun k => k.isFull 1 == !e && k.parked.length == n) = true) ∧
    oneCell.phys 8 false / 8 = 1 ∧ (leBytes 8 9 : List Byte) ≠ [] := by decide +kernel

/-- Two contexts of the cell whose code holds BAR.rect and XBAR.crew, `n` of them waiting at its barrier. -/
def barred (waits : Bool) : State :=
  let s := exchanging fun x => { x with barRect := true, xbarCrew := true }
  let t := { s with ctxs := s.ctxs ++ [((⟨0, 0, 0, 1⟩ : CtxId), { fresh with barRect := true, xbarCrew := true })] }
  t.modRect 0 fun r => { r with arrived := if waits then [⟨⟨0, 0, 0, 1⟩, 3, false, true, 2⟩, ⟨⟨0, 0, 0, 1⟩, 3, true, false, 2⟩] else [] }
theorem witness_barriers : ∀ w : Bool, let s := barred w; let n := if w then 1 else 0
    (s.participants benchCtx false true).length = 2 ∧ (s.participants benchCtx true false).length = 2 ∧
    (s.rect? 0).any (fun r => (r.arrived.filter fun a => a.xbar == false && a.rect).length == n && (r.arrivals benchCtx true false).length == n) = true ∧
    (s.ctx? benchCtx).any (fun x => s.exchanges benchCtx x false == [benchCtx.cell]) = true ∧
    (s.cell? benchCtx.cell).any (fun k => k.parked.isEmpty) = true := by decide +kernel
/-- A watch of the task waits; nothing of the task waits. -/
theorem witness_withdrawal_and_purge : (let s := { running id with homes := { (running id).homes with waiters := [.watch (waitaReq 1 (.dev 1 0x10040))] } }
      (s.homes.waiters.find? fun w => namesReply benchCtx 7 w.reply) = some (.watch (waitaReq 1 (.dev 1 0x10040))) ∧ s.homes.holds = []) ∧
    (running id).homes.waiters = [] ∧ (∀ p ∈ (running id).cells, p.2.parked = []) ∧ (running id).net.agenda = [] ∧
    ((running id).rect? 0).all (fun r => r.arrived.isEmpty) = true := by decide +kernel
theorem witness_walks : (∀ s ∈ [running id, paged (running id)], s.rect? 0 = some (benchRect (encodeWord .done))) ∧
    (running id).walkOf 1 0x10000 = .unmapped false ∧ (paged (running id)).walkOf 1 0x10000 = .found (.dev 0) (2 ^ 30) true ∧
    (let x := { fresh with walk := ⟨some 1, []⟩ }; x.walk.busy = some (0x10000 / 65536)) := by decide +kernel
theorem witness_share_window : let s := sending [] .shareWindowRoll; let t := { s with clock := { s.clock with cycles := 16384 } }
    t.net.hand = some .shareWindowRoll ∧ t.clock.window + 16384 ≤ t.clock.cycles := by decide +kernel

/-! ### Witnesses of rectangles, tile tasks, the host and the hub -/

/-- The rectangle of slot 0 as `f` makes it. -/
def lived (f : Rect → Rect) (ev : Event) : State := (delivered ev (running id)).modRect 0 f
/-- A collector that the node still owes its acknowledgement, the cut token sent to it or not. -/
def collecting (freeze sent : Bool) : Collector := ⟨freeze, [0], if sent then [0] else [], [], [], 0, none, .preempt, []⟩
def disagreeing : EdgeE := ⟨3, 0, 0, 0, 0, false, false, 4, 1, 2, 1, 1⟩
theorem witness_rectangle_life : ((lived (fun r => { r with state := .loading }) (.configWritten 0)).rect? 0).any
      (fun r => r.state == .loading && !r.restoring) = true ∧
    (∀ b : Bool, ((lived (fun r => { r with state := .unarmed, retain := b, image := { r.image with edges := [disagreeing] } }) (.armCheck 0)).rect? 0).any
      (fun r => r.state == .unarmed && !r.restoring && r.cutDeferred.isNone && r.image.edges.find? EdgeE.disagrees == some disagreeing) = true) ∧
    (∀ b : Bool, ((lived (fun r => { r with state := .unarmed, retain := b }) (.armCheck 0)).rect? 0).any
      (fun r => r.image.edges.isEmpty && r.binds.isEmpty && r.retain == b) = true) ∧
    ((lived (fun r => { r with state := .armed, startHeld := some [] }) (.armCheck 0)).rect? 0).any
      (fun r => r.state == .armed && r.startHeld == some [] && r.collector.isNone) = true ∧
    (lived (fun r => { r with leaves := [⟨1, true, false⟩] }) (.rectSinksDone 0) |>.modCtx benchCtx fun x => { x with firing := false, ended := true }).sinksDue 0 = true ∧
    (∀ b : Bool, let s := lived (fun r => { r with completing := 1, retain := b }) (.completionSignalWrite 0);
      s.signalDue 0 = true ∧ (s.rect? 0).any (fun r => r.sigAddr == 0 && r.stAddr == 0 && r.cutDeferred.isNone && r.parent.isNone && r.children.isEmpty) = true ∧
      s.nodesOf 0 = []) ∧
    (∀ b : Bool, (lived (fun r => { r with count := 1000001, overdue := true, item := { r.item with demotePolicy := b } }) (.rectOverrun 0)).rectOverrunDue 0 = true) := by
  decide +kernel
theorem witness_cuts : (∀ st ∈ [RectState.armed, .running, .loading, .unarmed, .saved, .frozen],
      ((lived (fun r => { r with state := st }) (.cutRequest 0 .preempt)).rect? 0).any (fun r => r.state == st && r.collector.isNone && r.completing == 0) = true) ∧
    (∀ fr : Bool, ∀ se : Bool, ((lived (fun r => { r with state := .draining, collector := some (collecting fr se) })
      (if fr then .freezeArrival 0 0 else .cutTokenArrival 0 0)).rect? 0).any (fun r => r.collector == some (collecting fr se)) = true) ∧
    (0 ∉ (collecting true false).cutSent ∧ 0 ∈ (collecting true true).cutSent) ∧
    (∀ fr : Bool, (lived (fun r => { r with state := .draining, collector := some (collecting fr true) }) (.stopAckArrival 0 0)).ackDue 0 0 = true) ∧
    (((collecting true true).owed.filter fun n => n != 0) = [] ∧ (({ collecting true true with owed := [0, 1] } : Collector).owed.filter fun n => n != 0) ≠ []) ∧
    (∀ st ∈ [RectState.armed, .running, .draining, .frozen], ∀ g : Bool, let f : FaultInfo := ⟨4, 0, 0, 0, none, 0, 0, 0⟩;
      ((lived (fun r => { r with state := st, first := if g then some f else none }) (.faultEvent 0 f)).rect? 0).any
        (fun r => r.state == st && r.first == (if g then some f else none)) = true) := by decide +kernel
theorem witness_reels_and_moves : (let s := lived (fun r => { r with state := .draining, wasRunning := true, collector := some { collecting false true with owed := [], complete := some 0 } }) (.reelWrite 0);
      s.reelDue 0 = true ∧ (s.rect? 0).any (fun r => r.collector.isSome) = true) ∧
    (let s := lived (fun r => { r with state := .draining, collector := some (collecting false true) }) (.drainLimitExpiry 0);
     let t := { s with clock := { s.clock with cycles := 1 } };
      t.limitPassed 0 = true ∧ (t.rect? 0).any (fun r => r.parent.isNone && r.joins.isEmpty) = true) := by decide +kernel

theorem turned_one {α : Type} (k : Nat) (a : α) : turned k [a] = [a] := by
  simp [turned, Nat.mod_one]
/-- A single job with a single site is placed there. -/
theorem plan_one {im : Image} {f : Nat → Option Nat} {col row : Nat} {j : Job} {c : Nat × Nat × Nat} (hj : im.jobs f = [j]) (hs : im.sites j = [c])
    (hf : im.fits [] ⟨c.1, c.2.1, c.2.2, j⟩ = true) : im.plan f col row = some [⟨c.1, c.2.1, c.2.2, j⟩] := by
  rw [Image.plan, hj, Image.placeAll, hs, turned_one]
  simp [hf, Image.placeAll]
/-- The rectangle of `running`. -/
def bench : Rect := benchRect (encodeWord .done)
theorem plan_bench (col row : Nat) : (benchImage (encodeWord .done)).plan bench.ctxNo col row =
    some [⟨0, 0, 0, ⟨0, some 0, some (0, 0), some 0, 0, [], [], 0, false⟩⟩] := plan_one (c := (0, 0, 0)) rfl rfl rfl
/-- How it stands at any area: its one cell, no engine, no route. -/
def benchFit : Fit := ⟨[(0, ⟨0, 0, 0, 0⟩)], [], [], (benchImage (encodeWord .done)).drainBound []⟩
theorem fit_bench (s : State) (col row : Nat) : s.fit 0 1 (benchImage (encodeWord .done)) bench.ctxNo col row false = some benchFit := by
  rw [State.fit, plan_bench]
  rfl
/-- A move to a free place and one to a place outside the array. -/
theorem witness_moves : (lived id (.moveStart 0 3 4)).planMove 0 3 4 = some ⟨3, 4, benchFit⟩ ∧ benchFit.drain ≤ 80000 ∧
    (lived id (.moveStart 0 128 4)).planMove 0 128 4 = none := by
  have hr : (lived id (.moveStart 0 3 4)).rect? 0 = some bench := rfl
  refine ⟨?_, by decide +kernel, by decide +kernel⟩
  rw [State.planMove, hr, Option.bind_some, if_pos (by decide +kernel)]
  exact congrArg (Option.map fun f => (⟨3, 4, f⟩ : MovePlan)) (fit_bench _ 3 4)
/-- The rectangle's cut complete, its lease with `n` RESV frames. -/
def cutDone (n : Nat) : State :=
  (lived (fun r => { r with state := .draining, wasRunning := true, collector := some { collecting false true with owed := [], complete := some 0 },
                            image := { r.image with digest := List.replicate 48 0 } })
    (.reelWrite 0)).modLease 1 fun l => { l with memReg := BitVec.ofNat 64 (n * 2 ^ 32 + 0x101) }
/-- Without RESV frames a reel has no room; with 511 of them it has, if its sections are at most 2^29 bytes long. -/
theorem witness_reel_room : (∀ k, (cutDone 0).reelRoom 0 bench k = none) ∧ (cutDone 511).reelDue 0 = true ∧
    ((cutDone 511).rect? 0).any (fun r => r.collector.isSome && r.image.digest.length == 48) = true ∧
    ∀ n ≤ 2 ^ 29, ((cutDone 511).reelPlace 1 0 n).isSome = true := by
  refine ⟨fun k => ?_, by decide +kernel, by decide +kernel, fun n h => ?_⟩
  · have h0 : ((cutDone 0).lease 1).resvBytes = 0 := by decide +kernel
    rw [State.reelRoom, State.reelPlace]
    have : bench.lease = 1 := rfl
    simp only [this, h0]
    rw [if_pos (by omega)]
  · have hu : (cutDone 511).resvUsed 1 0 ≤ 2 ^ 20 := by decide +kernel
    have hb : 2 ^ 29 + 2 ^ 21 ≤ ((cutDone 511).lease 1).resvBytes := by decide +kernel
    have hs : (cutDone 511).reelSpans 1 0 = [] := by decide +kernel
    simp only [State.reelPlace, hs]
    rw [if_neg (by omega), List.find?_isSome]
    refine ⟨((cutDone 511).lease 1).bytes, by simp, ?_⟩
    simp only [Lease.reelAt, List.all_nil, Bool.and_true, Bool.and_eq_true, decide_eq_true_eq]
    omega
/-- A tile task of lease 1 on its row half 3. -/
def tiled (place : TileWhere) : TileTask :=
  { tile := parseTile (tileRecord 100000), cmd := entry (cmd 0x10 4 5 0 0x10000) true [], early := false, repro := false, admitted := 0, place := place,
    blocks := 0, acc := none, done := [], parts := [], charged := 0, spent := false, demoted := false, since := 0 }
/-- Lease 1 with row halves 3 and 4, the row half 3 and the tasks as given. -/
def slated (f : RowHalf → RowHalf) (tasks : List TileTask) (lists : Tab Nat (List Nat)) (ev : Event) : State :=
  let s := delivered ev { paged (running id) with rows := [(3, f (RowHalf.idle 1)), (4, RowHalf.idle 1)] }
  s.modLease 1 fun l => { l with tasks := tasks, lists := lists }
theorem witness_slate : (∀ row ∈ [3, 4], let s := slated id [tiled (.listed 3)] [(3, [7])] (.slateIssueTask 1 row);
      s.issueDue 1 row = true ∧ s.readyList 1 row = (if row = 3 then [7] else []) ∧ s.fullest 1 = some 3 ∧ s.readyList 1 3 = [7] ∧
      s.task? 1 7 = some (tiled (.listed 3))) ∧
    (let s := (slated (fun r => { r with task := some 7 }) [tiled (.running 3)] [] (.slatePreempt 1)).modLease 1 fun l => { l with sched := 1#64 <<< 63 };
      s.preemptible 1 = some (tiled (.running 3), 3)) ∧
    (∀ done ∈ [0, 1], let s := slated (fun r => { r with task := some 7, blocks := done }) [tiled (.running 3)] [] (.tileTaskEnd 3);
      s.rowTask 3 = some (tiled (.running 3)) ∧ (tiled (.running 3)).tile.m * (tiled (.running 3)).tile.n = 1 ∧ (s.row 3).blocks = done ∧
      (s.row 3).bound = none ∧ ∀ j ∈ (s.lease 1).tasks, j.place ≠ .waiting) ∧
    (let s := slated (fun r => { r with task := some 7 }) [{ tiled (.running 3) with charged := 100001 }] [] (.tileTaskOverrun 3);
      s.taskOverrunDue 3 = true) := by decide +kernel
/-- A row half whose C.MMA has done its K-steps, with an FP32 accumulator. -/
theorem witness_kstep : let acc : AccSlot := ⟨.f32, List.replicate 256 0⟩
    let c : Cmd := { entry (cmd 0x11 3 5 1 0x10000) true [] with list := tileRecord 0 }
    let s := slated (fun r => { r with bound := some (0, 0), queue := [c], work := some acc, ksteps := [0] }) [] [] (.rowHalfKstep 3)
    s.kstepDue 3 = true ∧ (s.row 3).bound = some (0, 0) ∧ (s.row 3).mma = some c ∧ (s.row 3).work = some acc ∧
    (s.row 3).ksteps.length = (parseTile c.list).k ∧ ((s.row 3).acc 0).all (fun b => b.fmt != .f64) = true ∧ (s.row 3).slots.length = 2 ∧
    (parseTile { c with list := (tileRecord 0).set 5 (1 + 2 ^ 12 + 2 ^ 24 + 7 * 2 ^ 48) }.list).write = false := by decide +kernel

/-- Lease 1's queues as `f` makes them. -/
def leased (f : Lease → Lease) (ev : Event) : State := (delivered ev (paged (running id))).modLease 1 f
theorem witness_host : (∀ w : Bool, (match (leased id .mctpStatusQuery).span none 1 0x1FF0 32 w with
      | .ok ps => ps.length == 2 | .absent _ | .refused _ _ _ _ => false) = true) ∧
    ((leased id .mctpStatusQuery).lease 1).state = .live ∧ (State.reset.lease 2).state ≠ .live ∧
    (leased id .mctpStatusQuery).engineLoc none 1 0x10040 true = .found (.dev 1 0x10040) ∧ 0x10040 % 8 = 0 ∧
    (leased id .mctpStatusQuery).homes.waiters = [] ∧
    (∀ st ∈ [0, 1, 2], ∀ n ∈ [0, 3], let s := leased (fun l => { l with lqs := l.lqs.set! n { LaunchQueue.reset with state := st, sizel := 4 } }) (.lqTailDoorbell 1 n 16);
      ((s.lease 1).queue n).state = st ∧ ((16#32) - ((s.lease 1).queue n).head).toNat ≤ 2 ^ ((s.lease 1).queue n).sizel ∧
      2 ^ ((s.lease 1).queue n).sizel < ((17#32) - ((s.lease 1).queue n).head).toNat) ∧
    (let s := leased (fun l => { l with lqs := l.lqs.set! 2 { LaunchQueue.reset with state := 1, en := true, sizel := 4, tail := 1 } }) (.launchRecordRead 1 2 []);
      s.recordDue 1 2 = true ∧ ((s.lease 1).queue 2).en = true) := by decide +kernel
/-- A page-service record that has been posted. -/
def service : PageSvc := ⟨5, 0x10000, true, [⟨0, 1, 0, 0, .armCheck 0⟩].map Flight.ev, ⟨5, 2, 0, 0, 0, 0, 0, 0, 0, 0, 0, 0, 0⟩⟩
theorem witness_fault_queue : (∀ v ∈ [4, 5], ((leased (fun l => { l with fq := { l.fq with tail := 4 } }) (.fqHeadDoorbell 1 (.ofNat 64 v))).lease 1).fq.tail = 4) ∧
    (∀ e : Bool, ((leased (fun l => { l with fq := { l.fq with en := e } }) (.fqCtlWrite 1 4)).lease 1).fq.en = e) ∧
    (let s := leased (fun l => { l with svcs := [service] }) (.fqResumeWrite 1 5);
      (s.lease 1).svcs.find? (fun k => k.posted && k.seq == 5) = some service ∧ (s.lease 1).stWrites = [] ∧ (s.lease 1).fq.held = [] ∧
      ∀ k ∈ (s.lease 1).svcs, k.entry ≠ service.entry → k.posted = true) ∧
    (let s := leased (fun l => { l with fq := { l.fq with inval := some (0x10000, 1) } }) (.invalidationDone 1);
      (s.lease 1).fq.inval = some (0x10000, 1) ∧ s.invalDue 1 = true) ∧
    badCounterConfig 0xFFF = true ∧ badCounterConfig 0x8001 = false ∧ (0x8001#64).getLsbD 15 = true ∧ badCounterConfig 1 = false ∧
    (1#64).getLsbD 15 = false := by decide +kernel

/-- A mailbox request of lease 1. -/
def asking (op : Nat) (ws : List Nat) (ev : Event) : State :=
  leased (fun l => { l with mailbox := Vector.ofFn fun i => if i.val = 0 then BitVec.ofNat 64 (op * 2 ^ 56 + 1) else BitVec.ofNat 64 (ws.getD (i.val - 1) 0) }) ev
/-- The request is under way, as a Boolean. -/
def asked (m : Vector (BitVec 64) 8) (op : Nat) : Bool := m[0].getLsbD 0 && (m[0].extractLsb' 56 8).toNat == op
theorem witness_mailbox : (∀ p ∈ [(1, Event.writeRegionEntry 1), (2, .writeFormatWindow 1), (3, .resumeContext 1), (4, .attestReport 1), (5, .keyCertificate 1),
      (6, .cinderReading 1)], asked ((asking p.1 [] p.2).lease 1).mailbox p.1 = true ∧ ((asking p.1 [] p.2).lease 1).state = .live) ∧
    (∀ lim ∈ [0x80, 0x100], let s := asking 1 [5, 0x80, lim, 0] (.writeRegionEntry 1);
      s.regionRefused 1 5 (mboxRegion (s.lease 1).mailbox) = (lim == 0x80)) ∧
    (let s := asking 2 [0, 0, 0, 0, 31] (.writeFormatWindow 1); let m := (s.lease 1).mailbox;
      s.windowRefused 1 31 ⟨m[1], m[2], m[3], m[4]⟩ = true) ∧
    (∀ h : Bool, let s := (asking 3 [benchHandle, 0, 0] (.resumeContext 1)).modCtx benchCtx fun x => { x with halted := h };
      s.resumeTarget 1 (s.lease 1).mailbox = some benchCtx ∧ (s.ctx? benchCtx).any (fun x => x.halted == h && x.cut.isNone) = true) ∧
    (let s := asking 4 [0x10000, 0] (.attestReport 1); (s.lease 1).mailbox[1].toNat % 4096 = 0 ∧ s.engineLoc none 1 0x10000 true = .found (.dev 1 0x10000) ∧
      (s.lease 1).mailbox[2].toNat ≤ s.dev.keyser) := by decide +kernel

/-- The rectangle SAVED, its move's target reserved. -/
def savedRect (r : Rect) : Rect := { r with state := .saved, move := some ⟨3, 4, benchFit⟩, reel := some ⟨1, 0, 0, none⟩ }
theorem restorePlans (s : State) (bare : Bool) : s.restorePlan 0 (s.readReel 0 (savedRect bench)) bare = some ⟨3, 4, benchFit⟩ := by
  cases bare <;> rfl
theorem restores (s : State) (h : s.rect? 0 = some (savedRect bench)) : (s.restoreRect 0).isSome = true := by
  rw [State.restoreRect, h]
  simp only [show (savedRect bench).state = .saved from rfl, ne_eq, not_true_eq_false, if_false, restorePlans, Option.map_some, Option.isSome_some]
theorem witness_auto_restore : (lived savedRect (.autoRestore 0)).autoDue 0 = true ∧ ((lived savedRect (.autoRestore 0)).rect? 0).any (fun r => r.state == .saved) = true := by
  have hr : (lived savedRect (.autoRestore 0)).rect? 0 = some (savedRect bench) := rfl
  refine ⟨?_, by rw [hr]; rfl⟩
  have hp : (lived savedRect (.autoRestore 0)).restorePlan 0 (savedRect bench) false = some ⟨3, 4, benchFit⟩ := rfl
  rw [State.autoDue, hr]
  dsimp only
  rw [State.restorable, hp]
  decide +kernel

/-- A LEASE_CMD of lease 1: OP and LEASE_ARG. -/
def commanding (op arg : Nat) (f : Lease → Lease) (ev : Event) : State :=
  leased (fun l => f { l with cmdGo := true, cmdOp := .ofNat 8 op, arg := .ofNat 64 arg }) ev
/-- The state with a ready device. -/
def readied (s : State) : State := { s with dev := { s.dev with ready := true, stage := 6 } }
/-- Of what the adapter is configured with, CREATE needs one virtual function at the lease's port. -/
theorem witness_create : let s := readied (commanding 1 0 (fun l => { l with state := .none, carveReg := 8 }) (.leaseCreate 1))
    (s.lease 1).cmdGo = true ∧ (s.lease 1).cmdOp.toNat = 1 ∧ (s.lease 1).state = .none ∧ s.dev.ready = true ∧ s.dev.ember = false ∧
    (0 < Config.portVfs 0 → s.createLacks 1 = false) ∧
    (readied (commanding 1 0 (fun l => { l with state := .none, memReg := 0 }) (.leaseCreate 1))).createLacks 1 = true := by
  refine ⟨by decide +kernel, by decide +kernel, by decide +kernel, by decide +kernel, by decide +kernel, fun h => ?_, by decide +kernel⟩
  have hp : ((readied (commanding 1 0 (fun l => { l with state := .none, carveReg := 8 }) (.leaseCreate 1))).lease 1).port = 0 := by decide +kernel
  have hu : (readied (commanding 1 0 (fun l => { l with state := .none, carveReg := 8 }) (.leaseCreate 1))).vfsUsed 1 0 = 0 := by decide +kernel
  rw [State.createLacks]
  simp only [hp, hu, Bool.or_eq_false_iff, decide_eq_false_iff_not, Nat.not_le]
  exact ⟨by decide +kernel, h⟩
theorem witness_lease_commands : (∀ p ∈ [(2, Event.leaseDestroy 1), (3, .grantRow 1), (4, .revokeRow 1), (5, .preempt 1), (6, .restore 1), (7, .leaseFree 1), (8, .dump 1)],
      let s := commanding p.1 benchHandle id p.2; (s.lease 1).cmdGo = true ∧ (s.lease 1).cmdOp.toNat = p.1 ∧ (s.lease 1).state = .live) ∧
    (let s := { commanding 2 0 id (.leaseDestroy 1) with rects := [] }; s.rectsOf 1 = [] ∧ (s.lease 1).tasks = []) ∧
    (∀ held ∈ [0, 1, 2], let s := { commanding 3 255 id (.grantRow 1) with rows := [(255, .idle held)] }; (s.row 255).lease = held ∧
      (s.lease 1).arg.toNat % 256 = 255 ∧ (s.row 255).bound = none) ∧
    (let s := { commanding 4 3 id (.revokeRow 1) with rows := [(3, { RowHalf.idle 1 with bound := some (0, 0) })] }; (s.row 3).lease = 1 ∧ (s.row 3).bound ≠ none) ∧
    (∀ st ∈ [RectState.armed, .running, .saved, .frozen], let s := (commanding 5 benchHandle id (.preempt 1)).modRect 0 (fun r => { r with state := st });
      (s.argRect 1).any (fun p => p.1 == 0 && p.2.state == st) = true) ∧
    (let s := (commanding 7 benchHandle id (.leaseFree 1)).modRect 0 (fun r => { r with state := .frozen, outcome := some ⟨.killed, 3, 0⟩ });
      (s.argRect 1).any (fun p => p.2.parent.isNone && p.2.children.isEmpty && p.2.outcome.isSome) = true) ∧
    (let s := { commanding 2 0 (fun l => { l with state := .ending }) (.leaseDestroy 1) with rects := [] }; (s.lease 1).state = .ending ∧ s.endDue 1 = true) := by
  decide +kernel
/-- A reel of an empty frozen rectangle fits in 1 GiB of reserved frames, whatever the bytes of its sections. -/
theorem witness_restore_command : let s := (commanding 6 benchHandle id (.restore 1)).modRect 0 savedRect
    (s.argRect 1).any (fun p => p.1 == 0 && p.2.state == .saved) = true ∧ (s.restoreRect 0).isSome = true :=
  ⟨by decide +kernel, restores _ rfl⟩
theorem witness_registers : (leased id .mctpStatusQuery).schedRefused 1 0x0400 = true ∧ (leased id .mctpStatusQuery).schedRefused 1 0x03CC = false ∧
    (0x03CC#64).getLsbD 63 = false ∧ 1500 ≤ (1500#64).toNat % 4096 ∧ (3400#64).toNat % 4096 ≤ 3400 ∧ ¬ (3401#64).toNat % 4096 ≤ 3400 ∧
    ((leased id (.leasePtWrite 1 0)).lease 1).state = .live := by decide +kernel

/-- A device in bring-up stage `n`, both banks staged with good images. -/
def booting (n cycles : Nat) (ev : Event) : State :=
  let s := delivered ev State.reset
  let fs : List Firmware := [⟨1, 0, [], false, true⟩, ⟨2, 0, [], false, true⟩, ⟨3, 0, [], false, true⟩]
  { s with dev := { s.dev with stage := n, banks := [(0, fs), (1, fs)] }, clock := { s.clock with cycles := cycles } }
theorem reset_trusts : State.reset.dev.trusts = true := by simp [Device.trusts, State.reset, Device.reset]
theorem booting_fails (n c : Nat) (ev : Event) : (booting n c ev).bootFails = [] := by
  have ht : (booting n c ev).dev.trusts = true := reset_trusts
  have hb : (booting n c ev).badKind 0 = none := by
    have hi : ∀ k ∈ [1, 2, 3], imageOf ((booting n c ev).bank 0) k = some ⟨k, 0, [], false, true⟩ := by
      intro k hk
      simp only [List.mem_cons, List.not_mem_nil, or_false] at hk
      obtain rfl | rfl | rfl := hk <;> rfl
    have hv : ∀ k ∈ [1, 2, 3], (booting n c ev).dev.verifies ⟨k, 0, [], false, true⟩ = true := by
      intro k hk
      rw [Device.verifies, ht]
      simp only [List.mem_cons, List.not_mem_nil, or_false] at hk
      obtain rfl | rfl | rfl := hk <;> rfl
    simp [State.badKind, hi, hv]
  have ha : (booting n c ev).dev.active = 0 := rfl
  simp [State.bootFails, State.bootBank, ha, hb]
theorem witness_bring_up : (∀ n ∈ [0, 4, 5, 6], let c := stageBound n * 4000000; let s := booting n c (.bringupStageComplete []);
      s.dev.ready = false ∧ s.dev.ember = false ∧ s.clock.cycles ≤ s.clock.stageStart + stageBound s.dev.stage * 4000000) ∧
    (∀ n c ev, (booting n c ev).bootFails = []) ∧
    (let s := booting 2 (stageBound 2 * 4000000 + 1) .bringupStageTimeout; s.clock.stageStart + stageBound s.dev.stage * 4000000 < s.clock.cycles) ∧
    (let s := booting 6 4000000 .cinderSample; s.clock.lastSample + 4000000 ≤ s.clock.cycles ∧ s.dev.lastPace + 4000000 ≤ s.clock.cycles ∧
      s.leasesHeld = [] ∧ s.metered.Nodup ∧ (running id).leasesHeld = [1] ∧ (running id).metered.Nodup) ∧
    State.reset.dev.ember = false ∧
    (let s := delivered (.softErrorDetected (.pad benchCtx.cell) true) (running id); (s.rect? benchCtx.slot).any (fun r => decide (0 < r.lease)) = true) :=
  ⟨by decide +kernel, booting_fails, by decide +kernel, by decide +kernel, by decide +kernel, by decide +kernel⟩
/-- A test of bring-up that finds a failure in a unit of block 4, in stack 5 and before the stage began. -/
theorem witness_failure : (∀ c ev, let f := (booting 3 c ev).failOf (77, 3, 2, 0x0501, 9, 0); f.block = 4 ∧ f.die = f.unit / 256 / 4) := by
  intro c ev
  exact ⟨rfl, rfl⟩

/-- The image of a rectangle of 128 columns and 63 rows whose one task, a cell actor at column 0, row 0, is DONE (R314, R316, R124). -/
def imageBytes : List Byte :=
  leBytes 4 0x49474C4B ++ leBytes 2 1 ++ [128, 63] ++ leBytes 4 144 ++ leBytes 2 1 ++ leBytes 2 0 ++ leBytes 2 0 ++ leBytes 2 0xFFFF ++ leBytes 2 1 ++
    leBytes 2 0 ++ [0, 1, 0, 0] ++ leBytes 4 64 ++ leBytes 4 0 ++ leBytes 4 0 ++ leBytes 4 80 ++ leBytes 8 0 ++ List.replicate 12 0 ++
  ([1, 2, 0, 0] ++ leBytes 2 0 ++ [0, 0xFF] ++ leBytes 8 0) ++ (leBytes 4 96 ++ List.replicate 12 0) ++
  (leBytes 2 0 ++ [2, 0] ++ leBytes 4 1000 ++ leBytes 2 1 ++ leBytes 2 0 ++ leBytes 2 1 ++ [0, 0] ++ leBytes 8 0) ++
  (leBytes 4 (encodeWord .done).toNat ++ List.replicate 20 0)
/-- Its launch descriptor: the image's address, a deadline and a budget. -/
def descBytes : List Byte := leBytes 8 0x11000 ++ leBytes 8 1000000 ++ leBytes 4 100000 ++ List.replicate 44 0
/-- Lease 1 with half of all cycles, the descriptor at 0x10000 and the image at 0x11000. -/
def launching : State :=
  ((paged (running id)).store (.dev 1 0x10000) descBytes).store (.dev 1 0x11000) imageBytes |>.modLease 1 fun l => { l with sched := 0x040004000400 }
/-- A load that is admitted. -/
def accepts : LaunchEnd → Bool
  | .accepted _ _ => true
  | .waits _ _ => false
  | .slices _ => false
  | .refused _ _ => false
theorem accepts.spec {e : LaunchEnd} (h : accepts e = true) : ∃ v n, e = .accepted v n := by
  cases e <;> simp_all [accepts]
/-- The placement of one job with the four contexts of one cell: `m` is the context that the mapper takes. -/
theorem plan_cell {im : Image} {f : Nat → Option Nat} {j : Job} (key : List Byte) (hj : im.jobs f = [j])
    (hs : im.sites j = [(0, 0, 0), (0, 0, 1), (0, 0, 2), (0, 0, 3)]) (hf : ∀ m < 4, im.fits [] ⟨0, 0, m, j⟩ = true) :
    ∃ m < 4, im.placeAll key (im.jobs f) [] = some [⟨0, 0, m, j⟩] := by
  have h0 := hf 0 (by omega); have h1 := hf 1 (by omega); have h2 := hf 2 (by omega); have h3 := hf 3 (by omega)
  rw [hj, Image.placeAll, hs]
  generalize Config.place key j.node = n
  have : n % 4 = 0 ∨ n % 4 = 1 ∨ n % 4 = 2 ∨ n % 4 = 3 := by omega
  rcases this with h | h | h | h <;> simp [turned, h, Image.placeAll, h0, h1, h2, h3]
/-- How an image without other choices stands where it is placed. -/
def fitAt (s : State) (slot lease : Nat) (im : Image) (col row : Nat) (ps : List Put) : Option Fit :=
  let places := placesOf slot ps
  let rs := im.routesAt s.tick col row places
  (s.pickEngines lease (diesUnder col row im.w im.h) (col, row) im.nodes []).bind fun ks =>
    if drainLimit < im.drainBound rs then none else some ⟨places, ks, rs, im.drainBound rs⟩
/-- The context number of the one node that is placed. -/
def numbered (j : Job) (m i : Nat) : Option Nat := if j.node == i then some m else none
theorem ctxNo_one {im : Image} {j : Job} {m : Nat} (h : im.basis = some [⟨0, 0, m, j⟩]) : im.ctxNo = numbered j m := by
  funext i
  rw [Image.ctxNo, h, numbered]
  by_cases hi : j.node == i <;> simp [hi, List.find?]
/-- What the hub finds out about an image before it places it, but for the choices of the mapper. -/
def placesOne (s : State) (q : LaunchReq) (im : Image) : Bool :=
  (match s.bindCheck q.lease im q.binds with | .ok => true | _ => false) && s.admission q im == 0 &&
  freePlaces (s.heldBlocks []) im.w im.h == [(0, 1)] &&
  (match im.jobs (fun _ => none) with
   | [j] => im.sites j == [(0, 0, 0), (0, 0, 1), (0, 0, 2), (0, 0, 3)] && (List.range 4).all fun m => im.fits [] ⟨0, 0, m, j⟩ &&
       (match im.jobs (numbered j m), s.freeSlot with
        | [i], some n => im.sites i == [(0, 0, m)] && im.fits [] ⟨0, 0, m, i⟩ && (fitAt s n q.lease im 0 1 [⟨0, 0, m, i⟩]).any fun f =>
            accepts (s.bump.loadAt q im (q.item im s.dtime s.admitNo) n 0 1 [⟨0, 0, m, i⟩] f)
        | _, _ => false)
   | _ => false)
/-- A load with a free slot, an area and a plan that fits comes to rest there. -/
theorem place_eq {s : State} {q : LaunchReq} {im : Image} {k : LoadCopy} {it : Item} {n col row : Nat} {ps : List Put} {f : Fit}
    (hn : s.freeSlot = some n) (ha : s.pickArea im.w im.h [] = some (col, row)) (hp : im.plan im.ctxNo col row = some ps)
    (hf : s.fit n q.lease im im.ctxNo col row false = some f) : s.place q im k it = s.bump.loadAt q im it n col row ps f := by
  unfold State.place
  split
  · rename_i h
    rw [hn] at h
    cases h
  · rename_i m h
    rw [hn] at h
    obtain rfl := Option.some.inj h
    split
    · rename_i h
      rw [ha] at h
      cases h
    · rename_i c r h
      rw [ha] at h
      cases h
      split
      · rename_i h1 h2
        rw [hp] at h1
        rw [hf] at h2
        cases h1
        cases h2
        rfl
      · rename_i h
        exact (h ps f hp hf).elim
theorem placesOne.spec {s : State} {q : LaunchReq} {im : Image} (k : LoadCopy) (h : placesOne s q im = true) :
    ∃ v n, s.admitLaunch q im k = .accepted v n := by
  simp only [placesOne, Bool.and_eq_true, beq_iff_eq] at h
  obtain ⟨⟨⟨hb, ha⟩, hp⟩, h⟩ := h
  split at h
  case h_2 => cases h
  rename_i j hj
  simp only [Bool.and_eq_true, beq_iff_eq, List.all_eq_true, List.mem_range] at h
  obtain ⟨hs, hf⟩ := h
  obtain ⟨m, hm, hbasis⟩ := plan_cell im.digest hj hs fun m hm => (hf m hm).1
  have hc : im.ctxNo = numbered j m := ctxNo_one hbasis
  have hl := (hf m hm).2
  split at hb
  case h_2 => cases hb
  rename_i hbc
  split at hl
  case h_2 => cases hl
  rename_i i n hi hn
  simp only [Bool.and_eq_true, beq_iff_eq] at hl
  obtain ⟨⟨hsi, hfi⟩, hl⟩ := hl
  obtain ⟨f, hfit, hacc⟩ := (Option.any_eq_true _ _).mp hl
  clear hf hb
  have hplan : im.plan im.ctxNo 0 1 = some [⟨0, 0, m, i⟩] := plan_one (c := (0, 0, m)) (by rw [hc]; exact hi) hsi hfi
  have he : s.fit n q.lease im im.ctxNo 0 1 false = some f := by
    rw [State.fit, hplan]
    exact hfit
  have hpk : s.pickArea im.w im.h [] = some (0, 1) := by
    rw [State.pickArea, hp, turned_one]
    rfl
  have hq : s.admitLaunch q im k = s.place q im k (q.item im s.dtime s.admitNo) := by
    unfold State.admitLaunch
    rw [hbc, ha]
    rfl
  obtain ⟨v, u, hv⟩ := accepts.spec hacc
  exact ⟨v, u, hq.trans ((place_eq hn hpk hplan he).trans hv)⟩
/-- A launch whose image is read for the first time gets as far as its placement. -/
def launchesNow (u : State) (q : LaunchReq) : Bool :=
  q.va % 16 == 0 && q.parent.isSome && (u.lease q.lease).loads.isEmpty &&
  (match u.imageBytes q.lease q.va with
   | .got y is => (match readImage is q.shape (y.regionCheck q.lease) with | .ok im => placesOne y q im | .error _ => false)
   | _ => false)
theorem launch_first {s y : State} {q : LaunchReq} {is : List Byte} (ev : Event) (hl : (s.lease q.lease).loads = [])
    (hi : s.imageBytes q.lease q.va = .got y is) (hva : q.va % 16 = 0) : s.launch q ev = y.launchImage q ev is := by
  have hn : s.loadOf q.lease ev = none := by rw [State.loadOf, hl]; rfl
  rw [State.launch, hn, hi]
  exact if_neg (by omega)
theorem launchImage_child {s : State} {q : LaunchReq} {im : Image} {is : List Byte} (ev : Event)
    (hr : readImage is q.shape (s.regionCheck q.lease) = .ok im) (hp : q.parent.isNone = false) :
    s.launchImage q ev is = s.admitLaunch q im ⟨ev, q, is, none, im.w * im.h, q.retain⟩ := by
  unfold State.launchImage
  split
  · rename_i e he
    rw [hr] at he
    cases he
  · rename_i im' he
    rw [hr] at he
    cases he
    rw [hp, Bool.false_and]
    rfl
theorem launchesNow.spec {u : State} {q : LaunchReq} (ev : Event) (h : launchesNow u q = true) : ∃ v n, u.launch q ev = .accepted v n := by
  simp only [launchesNow, Bool.and_eq_true, beq_iff_eq] at h
  obtain ⟨⟨⟨hva, hpar⟩, hloads⟩, h⟩ := h
  split at h
  case h_2 => cases h
  rename_i y is hi
  split at h
  case h_2 => cases h
  rename_i im him
  obtain ⟨v, n, hv⟩ := placesOne.spec ⟨ev, q, is, none, im.w * im.h, q.retain⟩ h
  have hn : q.parent.isNone = false := by cases hp : q.parent <;> simp_all
  exact ⟨v, n, ((launch_first ev (List.isEmpty_iff.mp hloads) hi hva).trans (launchImage_child ev him hn)).trans hv⟩
/-- The launch of a descriptor at 0x10000 by the rectangle in slot 0 gets as far as its placement. -/
def launchable (s : State) : Bool :=
  match s.hubBytes 1 0x10000 64, s.rect? 0 with
  | .got t bs, some r =>
    match t.tableBytes 1 bs with
    | .got u table => !descBad bs && launchesNow u (descRequest r benchHandle bs (parseBinds table (fieldAt bs 0x30 2)))
    | _ => false
  | _, _ => false
theorem launchable.spec {s : State} (ev : Event) (h : launchable s = true) : ∃ t bs u table r v n, s.hubBytes 1 0x10000 64 = .got t bs ∧ s.rect? 0 = some r ∧
    t.tableBytes 1 bs = .got u table ∧ descBad bs = false ∧
    u.launch (descRequest r benchHandle bs (parseBinds table (fieldAt bs 0x30 2))) ev = .accepted v n := by
  unfold launchable at h
  split at h
  case h_2 => cases h
  rename_i t bs r ht hr
  split at h
  case h_2 => cases h
  rename_i u table hu
  simp only [Bool.and_eq_true, Bool.not_eq_true'] at h
  obtain ⟨v, n, hv⟩ := launchesNow.spec ev h.2
  exact ⟨t, bs, u, table, r, v, n, ht, hr, hu, h.1, hv⟩
theorem witness_launch : let w := cmd 0x14 0 5 0 0x10000
    atTheirPort launching w 0 0 = true ∧ w.extractLsb' 57 7 = 0 ∧ cmdC w = 0 ∧ launching.ctx? benchCtx = some fresh ∧ fresh.lease = 1 ∧
    fresh.handle = benchHandle ∧ ∃ t bs u table r v n, launching.hubBytes 1 0x10000 64 = .got t bs ∧ launching.rect? 0 = some r ∧
      t.tableBytes 1 bs = .got u table ∧ descBad bs = false ∧
      u.launch (descRequest r benchHandle bs (parseBinds table (fieldAt bs 0x30 2))) (.command benchCtx w) = .accepted v n :=
  ⟨by decide +kernel, by decide +kernel, by decide +kernel, rfl, rfl, rfl, launchable.spec _ (by decide +kernel)⟩
/-- The rectangle in slot 0 with two children: one without an outcome, one done. -/
def parent (s : State) : State := s.modRect 0 fun r => { r with children := [⟨0x01000005, none, false⟩, ⟨0x01000006, some ⟨.done, 2, 0⟩, false⟩] }
/-- A child of no record, one without an outcome, and one done. -/
theorem witness_join_and_free : ∀ h ∈ [0x01000004, 0x01000005, 0x01000006],
    atTheirPort (parent (running id)) (cmd 0x15 0 5 0 h) 0 0 = true ∧ atTheirPort (parent (running id)) (cmd 0x16 0 5 0 h) 0 0 = true ∧
    cmdB (cmd 0x15 0 5 0 h) = 0 ∧ cmdC (cmd 0x15 0 5 0 h) = 0 ∧ (cmdA (cmd 0x15 0 5 0 h)).toNat = h ∧
    ((parent (running id)).rect? 0).any (fun r => r.joinable && r.joins.isEmpty && (r.joinAnswer h).isNone == (h == 0x01000005) &&
      (r.childRec? h).isSome == (h != 0x01000004)) = true := by decide +kernel

/-- The lease of a frozen rectangle with `n` RESV frames. -/
def dumping (n : Nat) : State :=
  (commanding 8 benchHandle (fun l => { l with memReg := BitVec.ofNat 64 (n * 2 ^ 32 + 0x101) }) (.dump 1)).modRect 0 fun r => { r with state := .frozen }
/-- Without RESV frames a dump has no room; with 511 of them it has, if its sections are at most 2^29 bytes long. -/
theorem witness_dump : (∀ f ∈ [0, 511], let s := dumping f
      (s.lease 1).cmdGo = true ∧ (s.lease 1).cmdOp.toNat = 8 ∧ (s.argRect 1).any (fun p => p.1 == 0 && p.2.state == .frozen) = true) ∧
    (∀ n, 0 < n → (dumping 0).reelPlace 1 0 n = none) ∧ ∀ n ≤ 2 ^ 29, ((dumping 511).reelPlace 1 0 n).isSome = true := by
  refine ⟨by decide +kernel, fun n h => ?_, fun n h => ?_⟩
  · have h0 : ((dumping 0).lease 1).resvBytes = 0 := by decide +kernel
    simp only [State.reelPlace, h0]
    rw [if_pos (by omega)]
  · have hu : (dumping 511).resvUsed 1 0 ≤ 2 ^ 20 := by decide +kernel
    have hb : 2 ^ 29 + 2 ^ 21 ≤ ((dumping 511).lease 1).resvBytes := by decide +kernel
    have hs : (dumping 511).reelSpans 1 0 = [] := by decide +kernel
    simp only [State.reelPlace, hs]
    rw [if_neg (by omega), List.find?_isSome]
    refine ⟨((dumping 511).lease 1).bytes, by simp, ?_⟩
    simp only [Lease.reelAt, List.all_nil, Bool.and_true, Bool.and_eq_true, decide_eq_true_eq]
    omega

/-- A request at the device's own mailbox. -/
def deviceAsked (op : Nat) (ws : List Nat) (ev : Event) : State :=
  let s := delivered ev (running id)
  { s with dev := { s.dev with mailbox := Vector.ofFn fun i => if i.val = 0 then BitVec.ofNat 64 (op * 2 ^ 56 + 1) else BitVec.ofNat 64 (ws.getD (i.val - 1) 0) } }
theorem witness_pf_reading : (∀ id ∈ [0, 7], let s := deviceAsked 0x11 [0x5000, id] .cinderReadingPf
    asked s.dev.mailbox 0x11 = true ∧ (s.dev.mailbox[2]).toNat % 256 = id ∧ (s.meter 7).epoch = 0) := by decide +kernel
/-- A firmware image without payload: a header of R405 that holds the digest of no bytes. -/
def emptyFirmware (kind : Nat) : List Byte :=
  leBytes 4 0x54485248 ++ leBytes 2 1 ++ leBytes 1 kind ++ [0] ++ leBytes 4 255 ++ leBytes 4 0 ++ List.replicate 16 0 ++ sha384 [] ++
    List.replicate 148 0 ++ beBytes4 lmotsType ++ List.replicate 1120 0 ++ beBytes4 lmsType ++ List.replicate 692 0
theorem parseFirmware_append {n : Nat} {h : List Byte} (rest : List Byte) (hl : h.length = 2048) :
    parseFirmware (n + 1) (h ++ rest) = firmwareOf h rest :: parseFirmware n (rest.drop (fieldAt h 0xC 4)) := by
  have he : (h ++ rest).isEmpty = false := by cases h <;> simp_all
  rw [parseFirmware, he, List.take_left' hl, List.drop_left' hl]
  rfl
theorem firmwareOf_good {h rest D : List Byte} {k : Nat} (hD : sha384 [] = D) (h0 : fieldAt h 0xC 4 = 0) (h1 : fieldAt h 6 1 = k) (h2 : fieldAt h 8 4 = 255)
    (h3 : (h.drop 0x20).take 48 = D) (h4 : fieldAt h 7 1 = 0) (h5 : headerGood h 0 = true) (hv : vendorSigned h = true) :
    firmwareOf h rest = ⟨k, 255, D, false, true⟩ := by
  have hg : headerGood h rest.length = true := by
    simp only [headerGood, h0, Nat.zero_le] at h5 ⊢
    exact h5
  rw [firmwareOf]
  simp [h0, h1, h2, h3, h4, hg, hv, hD]
theorem emptyFirmware_good : ∀ k ∈ [1, 2, 3], let e := emptyFirmware k
    e.length = 2048 ∧ fieldAt e 0xC 4 = 0 ∧ fieldAt e 6 1 = k ∧ fieldAt e 8 4 = 255 ∧ (e.drop 0x20).take 48 = sha384 [] ∧ fieldAt e 7 1 = 0 ∧
    headerGood e 0 = true := by decide +kernel
theorem three_good {D a b c : List Byte} (ha : a.length = 2048) (hb : b.length = 2048) (hc : c.length = 2048) (h0 : fieldAt a 0xC 4 = 0)
    (h1 : fieldAt b 0xC 4 = 0) (h2 : fieldAt c 0xC 4 = 0) (ka : ∀ rest, firmwareOf a rest = ⟨1, 255, D, false, true⟩)
    (kb : ∀ rest, firmwareOf b rest = ⟨2, 255, D, false, true⟩) (kc : ∀ rest, firmwareOf c rest = ⟨3, 255, D, false, true⟩) :
    State.reset.dev.stageGood (parseFirmware 4 (a ++ (b ++ (c ++ [])))) = true := by
  rw [parseFirmware_append _ ha, h0, List.drop_zero, parseFirmware_append _ hb, h1, List.drop_zero, parseFirmware_append _ hc, h2,
    List.drop_zero, ka, kb, kc]
  have hv : ∀ k ∈ [1, 2, 3], State.reset.dev.verifies ⟨k, 255, D, false, true⟩ = true := by
    intro k hk
    rw [Device.verifies, reset_trusts]
    simp only [List.mem_cons, List.not_mem_nil, or_false] at hk
    obtain rfl | rfl | rfl := hk <;> rfl
  simp [Device.stageGood, imageOf, parseFirmware, hv]
/-- Images of the three kinds, if the vendor's signatures of their headers verify; an empty transfer has none. -/
theorem witness_firmware : (let s := deviceAsked 0x10 [0x5000, 0, 1] .firmwareStage
      asked s.dev.mailbox 0x10 = true ∧ s.dev.stageGood (parseFirmware 4 (s.load (.host 0x5000) 0)) = false) ∧
    ((∀ k ∈ [1, 2, 3], vendorSigned (emptyFirmware k) = true) →
      State.reset.dev.stageGood (parseFirmware 4 (emptyFirmware 1 ++ (emptyFirmware 2 ++ (emptyFirmware 3 ++ [])))) = true) := by
  refine ⟨by decide +kernel, fun h => ?_⟩
  have e := emptyFirmware_good
  generalize hD : sha384 [] = D at e
  generalize emptyFirmware = f at e h
  obtain ⟨a1, a2, a3, a4, a5, a6, a7⟩ := e 1 (by decide)
  obtain ⟨b1, b2, b3, b4, b5, b6, b7⟩ := e 2 (by decide)
  obtain ⟨c1, c2, c3, c4, c5, c6, c7⟩ := e 3 (by decide)
  exact three_good a1 b1 c1 a2 b2 c2 (fun _ => firmwareOf_good hD a2 a3 a4 a5 a6 a7 (h 1 (by decide)))
    (fun _ => firmwareOf_good hD b2 b3 b4 b5 b6 b7 (h 2 (by decide))) (fun _ => firmwareOf_good hD c2 c3 c4 c5 c6 c7 (h 3 (by decide)))
/-- An enabled window of lease 1 on the 64 KiB after the first. -/
theorem witness_window : let s := asking 2 [0x0000000100000017, 0x10000, 0x20000, 0, 31] (.writeFormatWindow 1)
    let m := (s.lease 1).mailbox
    asked m 2 = true ∧ s.windowRefused 1 31 ⟨m[1], m[2], m[3], m[4]⟩ = false := by decide +kernel
/-- A context with its turn whose word decodes, one whose word does not, and an event that reaches its unit. -/
theorem witness_step : (∀ n ∈ [(encodeWord .done).toNat, 0xFF000000], let s := State.reset.withFetchWord 32 n
      s.net.turn = some (.issue benchCtx) ∧
      (s.ctx? benchCtx).any (fun x => x.inject.isEmpty && x.window[x.pc.toNat]? == some (.ofNat 32 n) && decide (x.pend.length < 16)) = true) ∧
    decodes (encodeWord .done) .done = true ∧ refuses 0xFF000000#32 .opcode = true ∧
    (Event.cinderSample).instr = some .cinderSample ∧
    ({ State.reset with net := { State.reset.net with turn := some (.event .cinderSample) } } : State).net.turn = some (.event .cinderSample) := by
  decide +kernel
theorem witness_canonical : let s := State.reset.withFetchWord 32 (encodeWord .done).toNat
    s.canonical ∧ (match step s with | .next _ => true | .fault _ => false | .refused _ => false) = true :=
  ⟨⟨by decide +kernel, by decide +kernel⟩, by decide +kernel⟩

/-! ### Witnesses of further clauses -/

/-- An instruction that waits, because 16 are unfinished, and one that completes. -/
theorem witness_left_waiting : (match exec (.marke ⟨24, true, false, false⟩) (running (crowded 16)) with
      | .next t => t.leftWaiting benchCtx | .fault _ | .refused _ => false) = true ∧
    (match exec (.marke ⟨24, true, false, false⟩) (running id) with
      | .next t => !t.leftWaiting benchCtx | .fault _ | .refused _ => false) = true := by decide +kernel
/-- A carve-out repartition is one event; any other move is none. -/
theorem witness_other_moves : ∀ l, Move.issue benchCtx ≠ .event (.carveRepartition l) := fun _ h => by cases h

/-- WAITM of a token register that holds bit 0 alone and awaits nothing, full and empty; and of a re-injected entry that captured its operand. -/
theorem witness_waitm_without_chunks : (∀ f ∈ [fun x => x, fun x : Ctx => { x with sfe := x.sfe &&& ~~~2#64 }], let g := fun x => f (with12 1 7 x)
      (g fresh).injecting = none ∧ (g fresh).s 1 &&& 7 ≠ 7 ∧ ((g fresh).sFull 1 = true ∨ 1 ∉ (g fresh).tokens) ∧ (g fresh).readB false 2 = .ok 7) ∧
    (let e : RqEntry := ⟨3, 0, 5, 3, true, false, encodeWord (.waitm ⟨0, 1, 2, false, false, false⟩), 3, 9, [], 0, 0, [], none, none⟩
     let f := fun x : Ctx => { with12 0 7 x with injecting := some e }
     (f fresh).injecting = some e ∧ e.va = true ∧ e.a &&& 7 ≠ 7 ∧ (f fresh).readB false 2 = .ok 7) := by
  refine ⟨fun f h => ?_, by decide +kernel, by decide +kernel, by decide +kernel, rfl⟩
  simp only [List.mem_cons, List.not_mem_nil, or_false] at h
  obtain rfl | rfl := h <;> exact ⟨rfl, by decide +kernel, by decide +kernel, rfl⟩

/-! #### Commands at their engines -/

/-- `equipped`, its memory node `n` with command `c` at the head of its queue, its rectangle in state `st`. -/
def heading (n : MemNode) (st : RectState) (c : Cmd) : State :=
  (delivered (.engineCommandStart (.memn 0 0)) { equipped with nodes := [((0, 0), { n with queue := [c] })] }).modRect 0 fun r => { r with state := st }
/-- C.BIND of 4 tokens, C.UNBIND and C.STREAM at the heads of their queues. -/
theorem witness_node_command_starts : (∀ st ∈ [RectState.armed, .running], let c := entry (cmd 8 2 5 4 0x10000) false []
      let n := { idleNode 0 false with queue := [c] }; let s := heading (idleNode 0 false) st c
      s.startDue (.memn 0 0) = true ∧ s.nextCmd (.memn 0 0) = some c ∧ s.portRefusal (.memn 0 0) c = none ∧ cmdOp c.word = 0x08 ∧
      (s.rect? 0).any (fun r => r.state == st) = true ∧ s.node? 0 0 = some n ∧ n.binding = none ∧
      s.engineLoc (some n.die) c.lease 0x10000 false = .found (home 0x10000) ∧
      agrees (s.nodeFmt 0 n) (s.windowFmt c.lease (.found (home 0x10000))) = true) ∧
    (let c := entry (cmd 9 2 5 0 0) false []; let m := { idleNode 0 false with binding := some (bindingOf 1) }
      let s := heading m .running c; let n := { m with queue := [c] }
      s.startDue (.memn 0 0) = true ∧ s.nextCmd (.memn 0 0) = some c ∧ s.portRefusal (.memn 0 0) c = none ∧ cmdOp c.word = 0x09 ∧
      s.node? 0 0 = some n ∧ n.binding = some (bindingOf 1) ∧ n.kind = 0 ∧ n.sink = false ∧ n.spent = false ∧ (bindingOf 1).unbind = none) ∧
    (let c := entry (cmd 0xA 2 5 0 8) false []; let s := heading (idleNode 0 false) .running c
      s.startDue (.memn 0 0) = true ∧ s.nextCmd (.memn 0 0) = some c ∧ s.portRefusal (.memn 0 0) c = none ∧ cmdOp c.word = 0x0A ∧
      (s.node? 0 0).any (fun n => n.binding.isNone) = true) ∧
    (bindingOf 1).cmd.isSome = true := by decide +kernel

/-- The streamer's island serves no rectangle of the command's lease, the row half is another lease's, the node is another rectangle's. -/
theorem witness_port_refusals : (let c := { entry (copying 0) false [] with lease := 2 }; let s := working c (.engineCommandStart (.strm 0 0))
      s.startDue (.strm 0 0) = true ∧ s.nextCmd (.strm 0 0) = some c ∧ s.portRefusal (.strm 0 0) c = some 0x42) ∧
    (let c := { entry (cmd 0x12 3 5 0 0x10000) false [] with lease := 2 }; let s := working c (.engineCommandStart (.mrow 0 0))
      s.startDue (.mrow 0 0) = true ∧ s.nextCmd (.mrow 0 0) = some c ∧ s.portRefusal (.mrow 0 0) c = some 0x43) ∧
    (let c := { entry (cmd 0x18 2 5 1 0x10000) false [] with handle := benchHandle + 1 }; let s := working c (.engineCommandStart (.memn 0 0))
      s.startDue (.memn 0 0) = true ∧ s.nextCmd (.memn 0 0) = some c ∧ s.portRefusal (.memn 0 0) c = some 0x44) ∧
    (let c := entry (copying 0) false []; (working c (.engineCommandStart (.strm 0 0))).portRefusal (.strm 0 0) c = none) := by decide +kernel
/-- The last chunk of a C.COPYR, a C.GATH and a C.FILL of 1,024 bytes. -/
theorem witness_other_chunks : (let c := entry (cmd 2 1 5 (0x100 + 127 * 2 ^ 20) 0x10000) true []; let s := working c (.copyChunkLand (.strm 0 0) 7 1)
      inHand s (.strm 0 0) c = true ∧ s.copyrBefore c 1 = false ∧ s.chunkPermit (.strm 0 0) c 1 = true ∧ cmdOp c.word = 0x02 ∧
      (match s.access (some (s.strmDie 0 0)) c.lease false (pieces (0x10000 + 512) 512) with
        | .ok _ => true | .absent _ | .refused _ _ _ _ => false) = true) ∧
    (let c := { entry (cmd 3 1 5 (0x100 + 255 * 2 ^ 20) 0x10000) true [] with list := List.range 256 }; let s := working c (.copyChunkLand (.strm 0 0) 7 1)
      inHand s (.strm 0 0) c = true ∧ s.copyrBefore c 1 = false ∧ s.chunkPermit (.strm 0 0) c 1 = true ∧ cmdOp c.word = 0x03 ∧
      (match s.access (some (s.strmDie 0 0)) c.lease false (gathPieces c 1) with
        | .ok ps => ps.length == 128 | .absent _ | .refused _ _ _ _ => false) = true) ∧
    (let c := entry (cmd 5 1 5 (0x100 + 127 * 2 ^ 20) 0x10000) true []; let s := working c (.copyChunkLand (.strm 0 0) 7 1)
      inHand s (.strm 0 0) c = true ∧ s.copyrBefore c 1 = false ∧ s.chunkPermit (.strm 0 0) c 1 = true ∧ cmdOp c.word = 0x05 ∧ c.word.getLsbD 114 = false) := by decide +kernel
/-- A node that takes the permit of its next element. -/
theorem witness_node_permit : let n := { idleNode 1 false with binding := some (bindingOf 0) }; let e := nodeEdge true false [⟨.data [⟨3, 0, 0⟩], true, 2⟩]
    (streaming n e (.nodeRequestElement 0 0)).tokenPermit 0 n (bindingOf 0) (.data [⟨3, 0, 0⟩]) = true ∧ n.held = false ∧ n.faulted = false := by decide +kernel

/-! #### Control, answers and the network -/

/-- A leaf that was pulsed is done: the pulse of its controller's child 0. -/
theorem witness_leaf_done : let s := (controlled (.ctlDonePulse 0 0 0)).modRect 0 fun r => { r with leaves := [⟨1, true, true⟩] }
    (s.rect? 0).any (fun r => (r.image.ctls[0]?).any (fun e => e.children[0]? == some (.leaf 0)) && (r.leaves[0]?).any LeafState.pulsed) = true ∧
    ((controlled (.ctlDonePulse 0 0 1)).rect? 0).any (fun r => (r.image.ctls[0]?).any fun e => e.children[1]? == some (.ctl 1)) = true := by decide +kernel
/-- The acknowledgement of another write. -/
theorem witness_other_acknowledgement : let f := fun x : Ctx => { x with tags := [writing 1] }
    ∀ v ∈ (f fresh).tags, v.tag = 3 → v.seq ≠ some 9 := by decide +kernel
/-- In a buffer of three entries, an urgent packet finds two others of its class and one request of class 1, which it evicts. -/
theorem witness_evictions : Config.bufferEntries 6 = 0 →
    let f := packet (.homeReadWrite (rwReq false answerTo)) 1 0
    let u := fun n => packet (.freezeArrival 0 n) 3 0
    (sending [f, u 0, u 1, u 2] .mctpStatusQuery).evictions = [.urgentPacketEvict 0] := by
  intro h
  have hr : let f := packet (.homeReadWrite (rwReq false answerTo)) 1 0; let u := fun n => packet (.freezeArrival 0 n) 3 0
      (sending [f, u 0, u 1, u 2] .mctpStatusQuery).readyFrom [] [f, u 0, u 1, u 2] = [f, u 0, u 1, u 2] := by decide +kernel
  have ha : (sending [packet (.homeReadWrite (rwReq false answerTo)) 1 0, packet (.freezeArrival 0 0) 3 0, packet (.freezeArrival 0 1) 3 0,
      packet (.freezeArrival 0 2) 3 0] .mctpStatusQuery).net.agenda = [packet (.homeReadWrite (rwReq false answerTo)) 1 0, packet (.freezeArrival 0 0) 3 0,
      packet (.freezeArrival 0 1) 3 0, packet (.freezeArrival 0 2) 3 0] := rfl
  simp only [State.evictions, State.shutOut, State.entered, ha, hr]
  simp [enter, leftOut, findsEntry, sharesBuffer, packet, Event.packet, h, victimIn, youngest, isRequest]
  decide +kernel
/-- A combined request whose entry is gone. -/
theorem witness_no_entry : Tab.get? (running id).net.waits 5 = none := rfl

/-! #### Homes -/

/-- A place of another lease's pages, and one past the lease's own frames. -/
theorem witness_access_refusals : (running id).sourceGone asker = false ∧
    (let l := Loc.dev 2 0x10040; (running id).admits 1 l = false ∧ (running id).covers 1 l = false) ∧
    (let l := Loc.dev 1 (2 ^ 29); (running id).admits 1 l = false ∧ (running id).covers 1 l = true) := by decide +kernel

/-! #### Rectangles -/

/-- A restored rectangle whose reel was taken from RUNNING: unarmed, and armed; and one whose reel has a bad digest. -/
theorem witness_restored : (∀ origin ∈ [0, 1], ((lived (fun r => { r with state := .unarmed, restoring := true, reel := some ⟨origin, 0, 0, none⟩ }) (.armCheck 0)).rect? 0).any
      (fun r => r.state == .unarmed && r.restoring && r.cutDeferred.isNone && r.image.edges.isEmpty && r.reel.any fun k => k.origin == origin) = true) ∧
    ((lived (fun r => { r with state := .armed, restoring := true }) (.armCheck 0)).rect? 0).any
      (fun r => r.state == .armed && r.restoring && r.collector.isNone) = true ∧
    ((lived (fun r => { r with state := .loading, restoring := true, reel := some ⟨0, 0, 256, some (192, 1)⟩ }) (.configWritten 0)).rect? 0).any
      (fun r => r.state == .loading && r.restoring && r.parent.isNone && r.children.isEmpty && r.reel.any fun k => k.damage == some (192, 1)) = true := by
  decide +kernel
/-- A node that has stopped and owes its acknowledgement, and one that has given it. -/
theorem witness_acknowledgements : (lived (fun r => { r with state := .draining, collector := some (collecting false true) }) (.stopAckArrival 0 0)).ackDue 0 0 = true ∧
    0 ∉ ({ collecting false true with owed := [] } : Collector).owed ∧ 0 ∈ (collecting false true).owed := by decide +kernel
theorem witness_restore_plan : ∀ bare : Bool, (lived savedRect (.autoRestore 0)).restorePlan 0
    ((lived savedRect (.autoRestore 0)).readReel 0 (savedRect bench)) bare = some ⟨3, 4, benchFit⟩ := fun bare => restorePlans _ bare

/-! #### The host and the hub -/

/-- A record in hand of a suspended lease. -/
theorem witness_record_in_hand : let s := leased (fun l => { l with sched := 1#64 <<< 63 }) (.launchRecordRead 1 2 (List.replicate 128 0))
    (s.lease 1).state ≠ .none ∧ s.dev.ember = false ∧ (s.lease 1).suspended = true := by decide +kernel
/-- A row half that a move's plan has taken. -/
theorem witness_reserved_row : let s := { commanding 4 3 id (.revokeRow 1) with rows := [(3, RowHalf.idle 1)] }
    let t := s.modRect 0 fun r => { r with move := some ⟨3, 4, ⟨[], [⟨.mat, 0, 3⟩], [], 0⟩⟩ }
    s.isReserved .mat 3 = false ∧ t.isReserved .mat 3 = true ∧ (t.row 3).lease = 1 ∧ (t.row 3).bound = none := by decide +kernel
/-- A lease that is held, and a task within and past its budget. -/
theorem witness_budget : (tiled (.running 3)).charged ≤ (tiled (.running 3)).tile.budget ∧ (tiled (.running 3)).spent = false := by decide +kernel

/-! ### Witnesses of the clauses for empty sources, special registers, arithmetic and address checks -/

/-- A fetch past the window of a context with its turn. -/
theorem witness_fetch_outside : let s := (State.reset.withFetchWord 32 (encodeWord .done).toNat).modCtx benchCtx fun x => { x with pc := 4095 }
    s.net.turn = some (.issue benchCtx) ∧
    (s.ctx? benchCtx).any (fun x => x.inject.isEmpty && decide (x.window.length ≤ x.pc.toNat)) = true := by decide +kernel

/-- A DONE with too few tokens in its output, one in a handler, one with an unfinished instruction, and one of a task with an input. -/
theorem witness_done_refused : (∃ p ∈ (oneOut 0).outs (oneOut 0).cur.slot fresh.node, p.2.pused < p.2.prate) ∧
    ((oneOut 1).edges.map Prod.fst).Nodup ∧
    (Presented (running queued) (queued fresh) .done .none ∧ (queued fresh).act = true) ∧
    (let f := fun x : Ctx => { crowded 1 x with act := false, rq := [] };
      Presented (running f) (f fresh) .done .none ∧ (f fresh).act = false ∧ (f fresh).pend ≠ []) ∧
    (let s := channels false 1 id;
      Presented s fresh .done .none ∧ (∀ p ∈ s.outs s.cur.slot fresh.node, p.2.prate ≤ p.2.pused) ∧ (s.edges.map Prod.fst).Nodup ∧
      s.ins s.cur.slot fresh.node ≠ []) :=
  ⟨by decide +kernel, by decide +kernel, ⟨shown (by decide +kernel), by decide +kernel⟩,
    ⟨shown (by decide +kernel), by decide +kernel, by decide +kernel⟩,
    ⟨Presented.of rfl (by decide +kernel), by decide +kernel, by decide +kernel, by decide +kernel⟩⟩

/-- An unfinished load of operand register q0, an INFLIGHT entry and a command token for it, and nothing for it. -/
def produced (n : Nat) (x : Ctx) : Ctx :=
  let p := ((crowded 1 x).pend.map fun p => { p with dest := .sreg 48 }) ++ (crowded 1 x).pend.map fun p => { p with dest := .vreg 24 }
  if n = 0 then { x with pend := p }
  else if n = 1 then { x with rq := (queued x).rq.map fun e => { e with status := 1, dest := 48 } }
  else if n = 2 then { x with tokens := [48] } else x
theorem witness_empty_sources : ∀ n ∈ [0, 1, 2, 3], ∀ pol : Bool, let f := produced n
    (f fresh).injecting = none ∧ (f fresh).sFull 48 = false ∧ (f fresh).sFull 1 = true ∧ (f fresh).vFull 24 = false ∧ (f fresh).vFull 2 = true ∧
    ((f fresh).inFlight (.sreg 48) = (n != 3)) ∧
    Presented (running f) (f fresh) (.add ⟨5, 48, 2, pol, false⟩) (.sreg 5) ∧ Presented (running f) (f fresh) (.add ⟨5, 1, 48, false, pol⟩) (.sreg 5) ∧
    Presented (running f) (f fresh) (.vadd ⟨1, 24, 2, 0, pol, .s32⟩) (.vreg 1) ∧ Presented (running f) (f fresh) (.vadd ⟨1, 2, 24, 0, pol, .s32⟩) (.vreg 1) :=
  fun n h pol => ⟨by revert n; decide +kernel, by revert n; decide +kernel, by revert n; decide +kernel, by revert n; decide +kernel,
    by revert n; decide +kernel, by revert n; decide +kernel, shown (by revert n pol; decide +kernel), shown (by revert n pol; decide +kernel),
    shown (by revert n pol; decide +kernel), shown (by revert n pol; decide +kernel)⟩
theorem witness_produces : Produces (produced 0 fresh) 48 ∧ Produces (produced 1 fresh) 48 ∧ Produces (produced 2 fresh) 48 ∧ ¬Produces fresh 48 ∧
    (∃ q ∈ (produced 0 fresh).pend, q.dest = .vreg 24) ∧
    (∀ n ∈ [0, 1, 2], (running (produced n)).ctx? (running (produced n)).cur = some (produced n fresh) ∧ (produced n fresh).unfinished < 16 ∧
      defect (.add ⟨48, 1, 2, false, false⟩) = none ∧ defect (.vadd ⟨24, 2, 3, 0, false, .s32⟩) = none) := by
  refine ⟨⟨by decide, .inl (by decide +kernel)⟩, ⟨by decide, .inr (.inr (by decide +kernel))⟩, ⟨by decide, .inr (.inl (by decide +kernel))⟩,
    fun h => ?_, by decide +kernel, fun n h => ⟨rfl, by revert n; decide +kernel, rfl, rfl⟩⟩
  obtain ⟨_, ⟨q, hq, _⟩ | h | ⟨e, he, _⟩⟩ := h
  · cases hq
  · cases h
  · cases he

/-- A number of no special register and one that is only read; the fields of MTS at both sides of each check, with the other loop open or not. -/
theorem witness_special_register_checks : (0x7FF#11).toNat ∉ readNumbers ∧ (0x000#11).toNat ∉ writtenNumbers ∧ (0x7FF#11).toNat ∉ writtenNumbers ∧
    (running id).ctx? (running id).cur = some fresh ∧ fresh.unfinished < 16 ∧
    (∀ n ∈ [0x000, 0x028, 0x029], Presented (running id) (id fresh) (.mfs 5 false (BitVec.ofNat 11 n)) (.sreg 5)) ∧
    (let f := fun x : Ctx => { x with repro := true }; (f fresh).repro = true ∧ (f fresh).readA false 1 = .ok 0 ∧
      Presented (running f) (f fresh) (.mts 1 false 0x009) .none) ∧
    (let w : BitVec 64 := 0x200009000; let x := outer fresh
      w.extractLsb' 32 32 ≠ 0 ∧ (w.extractLsb' 0 12 : BitVec 12) ≤ w.extractLsb' 12 12 ∧ x.loop0.first ≤ (w.extractLsb' 0 12 : BitVec 12) ∧
      (w.extractLsb' 12 12 : BitVec 12) ≤ x.loop0.last) ∧
    (let w : BitVec 64 := 0x20000A000; let x := outer fresh; ¬(w.extractLsb' 32 32 = 0 ∨ x.loop0.count = 0 ∨
      (x.loop0.first ≤ (w.extractLsb' 0 12 : BitVec 12) ∧ (w.extractLsb' 12 12 : BitVec 12) ≤ x.loop0.last))) ∧
    (∀ n ∈ [0x01E, 0x01F, 0x020], Presented (running queued) (queued fresh) (.mts 1 false (BitVec.ofNat 11 n)) .none) ∧
    ((0#64).extractLsb' 40 4 : BitVec 4) ≠ 1 ∧ ((0x10000000000#64).extractLsb' 40 4 : BitVec 4) = 1 ∧
    5 ≤ ((0x50000000000#64).extractLsb' 40 4 : BitVec 4).toNat :=
  ⟨by decide +kernel, by decide +kernel, by decide +kernel, rfl, by decide +kernel, fun n h => shown (by revert n; decide +kernel),
    ⟨rfl, rfl, shown (by decide +kernel)⟩, by decide +kernel, by decide +kernel, fun n h => shown (by revert n; decide +kernel), by decide +kernel⟩

/-- 1 + 2^−24 lies between two numbers of f32; 2^128 overflows; 2^−150 is below the smallest subnormal; and a number known to a unit. -/
theorem witness_rounded : (∀ p ∈ ([(2 ^ 24 + 1, -24), (1, 128), (1, -150)] : List (Nat × Int)), 0 < p.1) ∧
    2 ^ (FF.f32.frac + 40) ≤ 2 ^ 63 ∧ ((2 ^ 63 : Nat) : Rat) * (2 : Rat) ^ (0 : Int) < 2 ^ 63 + 1 / 2 ∧
    (2 ^ 63 + 1 / 2 : Rat) < (((2 ^ 63 : Nat) : Rat) + 1) * (2 : Rat) ^ (0 : Int) := by
  decide +kernel
/-- Operands of the exact operations: NaN, infinity, zero and both signs; the reductions' types over crews of one and two cells. -/
theorem witness_number_operations : (FpVal.nan true).isNan = true ∧ (FpVal.inf true).isNan = false ∧ (-320 : Int) ≤ -1 ∧
    exactValue (.fin true 3 0 false) = ((-3 : Int) : Rat) ∧ (-(2 : Rat) < exactValue (.fin true 3 (-1) false) ∧ exactValue (.fin true 3 (-1) false) < -2 + 1) ∧
    exactValue (.fin true 256 0 false) ≤ -256 ∧ 256 ≤ exactValue (.fin false 256 0 false) ∧ (4 : Rat) = (2 : Rat) ^ (2 : Int) ∧
    ((2 : Rat) ^ (1 : Int) < 3 ∧ (3 : Rat) < (2 : Rat) ^ (1 + 1 : Int)) ∧ fresh.width % 8 = 0 ∧ 0 < fresh.width ∧
    (elemsOf .f32 (fresh.v 2)).length = Ty.f32.count fresh.width ∧ (elemsOf .f64 (fresh.v 2)).length = Ty.f64.count fresh.width ∧ fresh.rm = .rne ∧
    fresh.repro = false := by
  decide +kernel
/-- A block that quantises, one whose scale is zero and one that holds a NaN; lanes with and without a NaN scale. -/
theorem witness_blocks : isExact (FF.bf16.decode (0x3F80#16).toNat) ∧ ¬(0 < exactValue (FF.bf16.decode (0x0000#16).toNat)) ∧
    0 < exactValue (FF.bf16.decode (0x3F80#16).toNat) ∧ (List.replicate 8 (FF.f32.decode 0x40400000)).length = 8 ∧
    (∀ x ∈ List.replicate 8 (FF.f32.decode 0x40400000), isExact x) ∧ (FF.f32.decode 0x7FC00000).isNan = true ∧
    (fresh.v 1).all (fun l => l.blk != 0xFF) = true ∧ (⟨0, 0xFF, 0⟩ : Lane).blk = 0xFF := by
  have h1 : FF.bf16.decode (0x3F80#16).toNat = .fin false 128 (-7) false := by decide +kernel
  have h0 : FF.bf16.decode (0x0000#16).toNat = .fin false 0 (-133) false := by decide +kernel
  have h3 : FF.f32.decode 0x40400000 = .fin false 12582912 (-22) false := by decide +kernel
  refine ⟨⟨_, _, _, h1⟩, ?_, ?_, rfl, fun x hx => ?_, by decide +kernel, by decide +kernel, rfl⟩
  · rw [h0]; decide +kernel
  · rw [h1]; decide +kernel
  · obtain ⟨_, rfl⟩ := List.mem_replicate.mp hx
    exact ⟨_, _, _, h3⟩

/-! ### Witnesses of the checks of a global address -/

/-- The first page of the lease's addresses is mapped to `leaf`, writable or not. -/
def mappedTo (leaf : Leaf) (w : Bool) (a : BitVec 64) (x : Ctx) : Ctx := { with12 a 9 x with tcache := [⟨1, 0, 65536, leaf, w⟩] }
/-- The walk of that page found no mapping: because of a malformed entry or not. -/
def unmapped (malformed : Bool) (a : BitVec 64) (x : Ctx) : Ctx := { with12 a 9 x with walk := ⟨none, [(0, malformed)]⟩ }
/-- Every form with a global address, with what its statement asks of its address: its bytes, whether it writes, its atomic function, and
whether it names a synchronisation object. -/
def globalForms : List (Instr × Dest) :=
  [(.ldD ⟨5, 1, false, .g, 0⟩, .sreg 5), (.stD ⟨2, 1, false, .g, 0⟩, .none), (.ldv ⟨5, 1, false, .g, 0⟩, .vreg 5),
   (.stv ⟨2, 1, false, .g, 0⟩, .none), (.ldg ⟨5, 1, false, true, 1, 3⟩, .vreg 5), (.stg ⟨2, 1, false, true, 1, 3⟩, .none),
   (.amo ⟨5, 1, 2, false, false, .add⟩, .sreg 5), (.amoC ⟨5, 1, 2, false, false, .minz⟩, .sreg 5), (.stOp ⟨1, 2, false, false, .minz⟩, .none),
   (.stOpC ⟨1, 2, false, false, .add⟩, .none), (.dqpush ⟨1, 2, false, false, 0⟩, .none), (.dqpop ⟨5, 1, false, false, 0⟩, .sreg 5),
   (.dqsteal ⟨5, 1, false, false, 0⟩, .sreg 5), (.acq ⟨1, false⟩, .none), (.acqs ⟨1, false⟩, .none), (.rel ⟨1, false⟩, .none),
   (.waita ⟨1, 2, false, false, true, .eq⟩, .none)]
/-- A context that presents each of these forms, at a misaligned address, one past the address space, one of the carve-out, and pages that are mapped read-only, mapped to
the host, unmapped and not walked. -/
theorem witness_global_forms : ∀ f ∈ ([with12 4 9, with12 0x200000000000000 9, with12 0x01FF000000000000 9, mappedTo (.dev 0) false 0, mappedTo (.host 0) true 0,
      unmapped false 0, unmapped true 0, with12 0 9] : List (Ctx → Ctx)), ∀ p ∈ globalForms,
    let x := f fresh; Presented (running f) x p.1 p.2 ∧ x.readB false 2 = .ok 9 ∧ x.width = 8 ∧
      (∃ ls, x.readV .b false 2 = .ok ls) ∧ ∃ i, x.readIndex false 3 = .ok i := by
  intro f hf p hp
  simp only [List.mem_cons, List.not_mem_nil, or_false] at hf
  obtain rfl | rfl | rfl | rfl | rfl | rfl | rfl | rfl := hf <;>
    exact ⟨shown (by revert p; decide +kernel), rfl, rfl, ⟨_, rfl⟩, _, rfl⟩
/-- What the checks find in these contexts. -/
theorem witness_global_checks : (4#64).toNat % 8 ≠ 0 ∧ 2 ^ 57 ≤ (0x200000000000000#64).toNat ∧ (0x01FF000000000000#64).toNat < 2 ^ 57 ∧
    carveBase ≤ (0x01FF000000000000#64).toNat ∧
    (∀ p ∈ [(0, 0), (1, 0), (1, 1)], let s := (running (with12 0x01FF000000000000 9)).modLease 1 fun l => { l with grant := p.1, granted := p.2 }
      (s.lease fresh.lease).grant = p.1 ∧ (s.lease fresh.lease).granted = p.2) ∧
    ((running (mappedTo (.dev 0) false 0)).cached benchCtx (mappedTo (.dev 0) false 0 fresh) 0).any (fun e => !e.w) = true ∧
    ((running (mappedTo (.host 0) true 0)).cached benchCtx (mappedTo (.host 0) true 0 fresh) 0).any (fun e => e.w && (e.loc 0).isHost) = true ∧
    AmoFn.minz ∉ [AmoFn.add, .swap, .cas] ∧
    (∀ m : Bool, (running (unmapped m 0)).cached benchCtx (unmapped m 0 fresh) 0 = none ∧
      ((unmapped m 0 fresh).walk.failed.find? fun p => p.1 == 0 / 65536) = some (0, m)) ∧
    (running id).cached benchCtx fresh 0 = none ∧ (fresh.walk.failed.find? fun p => p.1 == 0 / 65536) = none ∧
    isRemote (.remote 1 2 0) = true ∧ isRemote (home 0) = false ∧
    (∀ w : Bool, (((watched false w).lease 1).watches.any fun q => q.hits false 0x1FFF8 8 w) = true ∧
      ((watched false w).lease 1).watches.any (fun q => q.hits false 0x1FFF0 8 w) = false) := by decide +kernel
theorem witness_remote_object : ∀ w, (running (mappedTo (.remote 1 2 0) true 0)).translate benchCtx (mappedTo (.remote 1 2 0) true 0 fresh) 0 w none =
    .ok (.remote 1 2 0) := fun w => by cases w <;> rfl
/-- The lanes of an access under mask m1, of which lane 7 is the first, and one whose index vector is empty. -/
theorem witness_lane_checks : (gathering fresh).m 1 = 0x80 ∧ (7 : Nat) < (gathering fresh).width ∧
    (∀ k, k < 7 → ((gathering fresh).m 1).getLsbD k = false) ∧ (id fresh).vFull 24 = false ∧
    (∀ ea : Bool, Presented (running id) (id fresh) (.ldg ⟨5, 1, ea, true, 1, 24⟩) (.vreg 5) ∧
      Presented (running id) (id fresh) (.stg ⟨2, 1, ea, true, 1, 24⟩) .none) :=
  ⟨by decide +kernel, by decide +kernel, by decide +kernel, by decide +kernel, fun ea => ⟨shown (by revert ea; decide +kernel), shown (by revert ea; decide +kernel)⟩⟩
/-- CAS of an empty destination and of a full one. -/
theorem witness_cas : fresh.sFull 48 = false ∧ fresh.sFull 5 = true ∧
    ∀ d ∈ [5, 48], Presented (running id) (id fresh) (.amo ⟨d, 1, 2, false, false, .cas⟩) (.sreg d) :=
  ⟨by decide +kernel, by decide +kernel, fun d h => shown (by revert d; decide +kernel)⟩
/-- Nothing that writes or reads is in flight among the entries of a replay queue, and a write or an STE of it is. -/
theorem witness_entries_in_flight : (∀ q ∈ (mapped 64 9 fresh).rq, q.inflight writesFirst = false ∧ q.inflight isRead = false) ∧
    (let f := fun x : Ctx => { queued x with rq := (queued x).rq.map fun (e : RqEntry) => { e with status := 1, instr := encodeWord (.ste ⟨2, 1, false, .p, 0⟩) } };
     (∃ q ∈ (f fresh).rq, q.inflight writesFirst = true) ∧ ∃ q ∈ (f fresh).rq, q.status = 1#4) := by decide +kernel

/-! ### Witnesses of commands, engines and memory nodes -/

/-- The launch that the bench's rectangle asks for. -/
def childReq : LaunchReq := descRequest bench benchHandle descBytes []
/-- The load of that launch waits, its image read. -/
def reloading : State := launching.modLease 1 fun l =>
  { l with loads := [⟨.command benchCtx (cmd 0x14 0 5 0 0x10000), childReq, imageBytes, none, 128 * 63, false⟩] }
/-- The load of an image read before gets as far as its placement. -/
def relaunches (s : State) (q : LaunchReq) (ev : Event) : Bool :=
  match s.loadOf q.lease ev with
  | some k => k.item.isNone && k.req == q && q.parent.isSome &&
    (match readImage k.bytes q.shape ((s.dropLoad q.lease ev).regionCheck q.lease) with | .ok im => placesOne (s.dropLoad q.lease ev) q im | .error _ => false)
  | none => false
theorem relaunches.spec {s : State} {q : LaunchReq} {ev : Event} (h : relaunches s q ev = true) :
    ∃ k v n, s.loadOf q.lease ev = some k ∧ s.launch k.req ev = .accepted v n := by
  unfold relaunches at h
  split at h
  case h_2 => cases h
  rename_i k hk
  simp only [Bool.and_eq_true, beq_iff_eq] at h
  obtain ⟨⟨⟨hi, hq⟩, hpar⟩, h⟩ := h
  split at h
  case h_2 => cases h
  rename_i im him
  obtain ⟨v, n, hv⟩ := placesOne.spec ⟨ev, q, k.bytes, none, im.w * im.h, q.retain⟩ h
  have hn : q.parent.isNone = false := by cases hp : q.parent <;> simp_all
  have hl : s.launch q ev = (s.dropLoad q.lease ev).launchImage k.req ev k.bytes := by
    rw [State.launch, hk]
    cases hki : k.item <;> simp_all
  exact ⟨k, v, n, hk, by rw [hq, hl, hq, launchImage_child ev him hn, hv]⟩
theorem witness_load_again : let w := cmd 0x14 0 5 0 0x10000
    atTheirPort reloading w 0 0 = true ∧ ∃ k v n, reloading.loadOf 1 (.command benchCtx w) = some k ∧ reloading.launch k.req (.command benchCtx w) = .accepted v n :=
  ⟨by decide +kernel, relaunches.spec (q := childReq) (by decide +kernel)⟩

/-- The rectangle in slot 5, child of the one in slot 0, with a C.JOIN for it that waits. -/
def joined : State :=
  let s := { running id with rects := Tab.put (running id).rects 5 { gen := 1, rect := some { bench with parent := some benchHandle }, purges := [] } }
  let h := s.handleOf 5
  s.modRect 0 fun r => { r with children := [⟨h, none, false⟩], joins := [⟨entry (cmd 0x15 0 7 0 h) true [], h⟩] }
theorem witness_free_joined : let h := joined.handleOf 5; let w := cmd 0x16 0 5 0 h
    atTheirPort joined w 0 0 = true ∧ cmdB w = 0 ∧ cmdC w = 0 ∧ (cmdA w).toNat = h ∧ joined.live? h = some 5 ∧ joined.live? benchHandle = some 0 ∧
    (joined.rect? 0).any (fun r => r.joinable && r.children == [⟨h, none, false⟩] &&
      r.joins.all fun j => j.child == h && j.cmd.src == benchCtx && j.cmd.handle == benchHandle && cmdToken j.cmd.word == 7) = true ∧
    (joined.rect? 5).any (fun q => q.parent == some benchHandle && q.outcome.isNone && q.first.isNone && q.stAddr == 0 && q.children.isEmpty) = true ∧
    cmdToken w ≠ 7 := by decide +kernel
/-- A C.JOIN of a child already joined, and a rectangle whose waiting C.JOIN waits on. -/
theorem witness_join_refused : let s := parent (running id)
    ((s.modRect 0 fun r => { r with children := r.children.map fun k => { k with joined := true } }).rect? 0).any
      (fun r => r.children.all ChildRec.joined) = true ∧
    (joined.rect? 0).any (fun r => r.joins.all fun j => (r.children.find? fun k => k.handle == j.child).any fun k => !k.joined && k.out.isNone) = true := by
  decide +kernel
/-- Undamaged places of a record. -/
theorem witness_undamaged : (recorded (tileRecord 0)).damaged (.dev 1 0x10000) 64 = false := by decide +kernel

/-! #### Chunks and ends of commands -/

/-- C.SCAT of 64 entries of 4 bytes with the indices `ix`. -/
def scattering (ix : Nat) : State :=
  let c := entry (cmd 4 1 5 (0x100 + 63 * 2 ^ 20) 0x10000) true []
  (working c (.copyChunkLand (.strm 0 0) 7 0)).padPut benchCtx.cell 0x100 ((List.range 64).flatMap fun j => leBytes 4 ix ++ leBytes 4 j) false
theorem witness_scatter : (let c := entry (cmd 4 1 5 (0x100 + 63 * 2 ^ 20) 0x10000) true []; let s := scattering 3
      (s.net.hand = some (.copyChunkLand (.strm 0 0) c.id 0) ∧ inHand s (.strm 0 0) c = true ∧ s.copyrBefore c 0 = false ∧ s.chunkPermit (.strm 0 0) c 0 = true ∧ cmdOp c.word = 0x04 ∧
        commandBytes c.word = some 512) ∧
      (match s.access (some (s.strmDie 0 0)) c.lease true ((List.range 64).map fun j => (4 * j, 0x10000 + 3 * 4, 4)) with
        | .ok _ => true | .absent _ | .refused _ _ _ _ => false) = true) ∧
    (scattering 3).padGet benchCtx.cell 0x100 4 = leBytes 4 3 ∧ (scattering 0xFFFFFFFF).padGet benchCtx.cell 0x100 4 = leBytes 4 0xFFFFFFFF := by decide +kernel
/-- C.SCAT of 32 entries of 8 bytes whose index needs 33 bits. -/
theorem witness_scatter_outside : let c := entry (cmd 4 1 5 (0x100 + 63 * 2 ^ 20) 0x10000 + BitVec.ofNat 128 (2 ^ 114)) true []
    let s := (working c (.copyChunkLand (.strm 0 0) 7 0)).padPut benchCtx.cell 0x100 (leBytes 8 (2 ^ 32)) false
    inHand s (.strm 0 0) c = true ∧ s.copyrBefore c 0 = false ∧ s.chunkPermit (.strm 0 0) c 0 = true ∧ cmdOp c.word = 0x04 ∧ c.word.getLsbD 114 = true ∧
    2 ^ 32 ≤ leNat (s.padGet benchCtx.cell 0x100 8) := by decide +kernel
/-- C.FILL of 1,024 bytes of memory with the 8 bytes it took at its start; a chunk of the convolution of `convRecord`. -/
theorem witness_fill_and_conv : (let c := { entry (cmd 5 1 5 (0x100 + 127 * 2 ^ 20) 0x10000 + BitVec.ofNat 128 (2 ^ 114)) true [] with list := [7] }
      let s := working c (.copyChunkLand (.strm 0 0) 7 1)
      inHand s (.strm 0 0) c = true ∧ s.copyrBefore c 1 = false ∧ s.chunkPermit (.strm 0 0) c 1 = true ∧ cmdOp c.word = 0x05 ∧ c.word.getLsbD 114 = true ∧
      (match s.access (some (s.strmDie 0 0)) c.lease true (pieces (0x10000 + 512) 512) with | .ok _ => true | .absent _ | .refused _ _ _ _ => false) = true) ∧
    (let c := { entry (cmd 6 2 5 0x1FFE0 0x10000) true [] with list := convRecord }; let s := working c (.copyChunkLand (.memn 0 0) 7 0)
      inHand s (.memn 0 0) c = true ∧ s.copyrBefore c 0 = false ∧ s.chunkPermit (.memn 0 0) c 0 = true ∧ cmdOp c.word = 0x06 ∧ (s.node? 0 0).isSome = true ∧
      (let es := (List.range ((parseConv c.list).bytes / 4)).map fun j => patchSource (parseConv c.list) 0 j
       (match s.access (some 0) c.lease false (patchPieces es) with | .ok _ => true | .absent _ | .refused _ _ _ _ => false) = true)) := by
  decide +kernel
/-- A prefetch that starts and one that ends, and the end of a C.MMA with and without QC. -/
theorem witness_prefetch : (let c := entry (cmd 0x18 2 5 1 0x10000) false []; let s := working c (.engineCommandStart (.memn 0 0))
      s.startDue (.memn 0 0) = true ∧ s.nextCmd (.memn 0 0) = some c ∧ s.portRefusal (.memn 0 0) c = none ∧ cmdOp c.word = 0x18 ∧
      (s.node? 0 0).any (fun nd => (s.prefetch ⟨c.lease, c.handle⟩ nd.die 0x10000 1).2.2.isNone) = true) ∧
    (let c := { entry (cmd 0x18 2 5 1 0x10000) true [] with list := [0] }; let s := working c (.engineCommandComplete (.memn 0 0) 7)
      inHand s (.memn 0 0) c = true ∧ c.started = true ∧ cmdOp c.word = 0x18) := by decide +kernel
/-- A C.MMA whose block is done, with QC or without it, its accumulator in slot 0 and an edge with one free place. -/
def blockDone (qc : Bool) : State :=
  let c := { entry (cmd 0x11 3 5 0 0x10000) true [] with list := (tileRecord 0).set 5 (1 + 2 ^ 12 + 2 ^ 24 + (if qc then 2 ^ 43 else 0) + 7 * 2 ^ 48) }
  let s := working c (.engineCommandComplete (.mrow 0 0) 7)
  { s with rows := [(3, { RowHalf.idle 1 with bound := some (0, 0), queue := [c], blocks := 1, slots := [some ⟨.f32, List.replicate 256 0⟩, none] })],
           edges := [((0, 0), ⟨s.portNode (.mrow 0 0), 0, 0, 0, true, 4, 0xFF, 0xFF, 1, 1, 3, 0, 0, false, [], 0, 0⟩)] }
theorem witness_mma_end : ∀ qc : Bool, let s := blockDone qc
    s.portWorks (.mrow 0 0) = true ∧ (s.boundRow 0 0).any (fun p => p.1 == 3 && p.2.blocks == 1 && (p.2.slots.getD 0 none).isSome) = true ∧
    (s.cmd? (.mrow 0 0) 7).any (fun c => c.started && cmdOp c.word == 0x11 && (cmdC c.word).toNat % 2 == 0 && (parseTile c.list).qc == qc) = true ∧
    (s.outChan 0 (s.portNode (.mrow 0 0)) 0).any (fun p => decide (0 < p.2.free)) = true := by decide +kernel
/-- C.MMA, C.ACCSV and C.ACCLD at the heads of their queue. -/
def matrixStart (op c : Nat) (ty : Nat) : State × Cmd :=
  let k := entry (cmd op 3 5 (c + ty * 16) 0x10000) false []
  let s := { recorded ((tileRecord 0).set 5 (1 + 2 ^ 12 + 2 ^ 24 + 2 ^ 37 + 7 * 2 ^ 48)) with
    rows := [(3, { RowHalf.idle 1 with bound := some (0, 0), queue := [k], slots := [some ⟨.f32, List.replicate 256 0⟩, none] })] }
  (delivered (.engineCommandStart (.mrow 0 0)) s, k)
theorem witness_matrix_starts : (∀ p ∈ [(0x11, 2, 0), (0x11, 0, 0), (0x12, 0, 8), (0x13, 0, 8)], let s := (matrixStart p.1 p.2.1 p.2.2).1; let c := (matrixStart p.1 p.2.1 p.2.2).2
      s.startDue (.mrow 0 0) = true ∧ s.nextCmd (.mrow 0 0) = some c ∧ s.portRefusal (.mrow 0 0) c = none ∧ (s.boundRow 0 0).isSome = true ∧
      (cmdOp c.word).toNat = p.1) ∧
    reads (matrixStart 0x11 2 0).1 (some 0) (fun t ws => let z := parseTile ws
      (tileFmt z.fa z.fb z.fc).any (fun f => f.1 == .f32) && z.m == 1 && z.n == 1 && z.k != 0 && !z.acc && !recBad ws (!z.qa) (!z.qb) &&
        t.queueBound (.mrow 0 0) z && t.fp4Windows (some 0) 1 z == .yes) = true ∧
    Ty.ofCode 8 = .f32 ∧ svPair .f32 .f32 = true ∧ ldFmt .f32 = some .f32 := by decide +kernel

/-- A streamer on die `d` with seven copies of 512 bytes from one address under way. -/
def sevenCopies (d : Nat) : State :=
  { equipped with strms := [((0, 0), ⟨16 * d, (List.range 7).map fun n => { entry (cmd 1 1 5 (0x100 + 63 * 2 ^ 20) 0x10000) true [] with id := n }, false⟩)] }
/-- Four permits for a slice of another die, sixteen for one of its own (R353). -/
theorem test_chunk_permits : ((sevenCopies 1).portQueue (.strm 0 0)).map (fun c => (sevenCopies 1).chunkPermit (.strm 0 0) c 0) =
      [true, true, true, true, false, false, false] ∧
    ((sevenCopies 0).portQueue (.strm 0 0)).all (fun c => (sevenCopies 0).chunkPermit (.strm 0 0) c 0) = true := by decide +kernel

/-! ### Witnesses of the ends of streams, control, answers and homes -/

/-- A source that has read its last element, with its edge and without one; a node that reads past its own edges. -/
theorem witness_source_end : (∀ p ∈ ([(0, { idleNode 0 false with binding := some { bindingOf 4 with moved := 4 } }),
      (1, { idleNode 1 false with binding := some (bindingOf 0), eosSeen := true })] : List (Nat × MemNode)), ∀ e : Bool,
      let s := streaming p.2 (nodeEdge false false []) (.nodeSourceDeliver 0 0); let t := if e then s else { s with edges := [] }
      t.node? 0 0 = some p.2 ∧ t.works 0 p.2.node = true ∧ p.2.sink = false ∧ p.2.tags = [] ∧ p.2.spent = false ∧ p.2.kind = p.1 ∧
      (if p.2.kind = 0 then p.2.binding.any (fun b => b.unbind.isSome || decide (b.count ≤ b.read)) else p.2.eosSeen) = true ∧
      (t.outChan 0 p.2.node 0).isSome = e) ∧
    (let n := { idleNode 0 false with binding := some (bindingOf 3), tags := [⟨0, 3, some [⟨9, 0, 0⟩], none⟩] }
     let s := { streaming n (nodeEdge false false []) (.nodeSourceDeliver 0 0) with edges := [] }
     s.works 0 n.node = true ∧ s.outChan 0 n.node 0 = none) := by decide +kernel
/-- The end-of-stream token at a sink and at a RANDOM node. -/
theorem witness_node_end : let e := nodeEdge true false [⟨.eos, true, 2⟩]
    (let n := { idleNode 0 true with binding := some (bindingOf 3) }; takes (streaming n e (.nodeSinkWrite 0 0)) n (bindingOf 3) e .eos = true) ∧
    (let n := { idleNode 1 false with binding := some (bindingOf 0) }; takes (streaming n e (.nodeRequestElement 0 0)) n (bindingOf 0) e .eos = true ∧
      n.held = false ∧ n.faulted = false ∧ n.tags.length < Config.nodeTags) := by decide +kernel

/-- The task's input has ended and it has an output with `n` free places; the end-of-stream token of that output is owed. -/
def ending (n : Nat) (f : Ctx → Ctx) (ev : Event) : State :=
  let s := tokensOf [⟨.eos, true, 2⟩] f ev
  { s with edges := s.edges ++ [((0, 1), ⟨0, 0, 1, 0, false, 4, 0xFF, 0xFF, 1, 1, n, 0, 0, false, [], 0, 0⟩)] }
def owing (x : Ctx) : Ctx := { between x with ended := true, eosOwed := [1] }
theorem witness_owed : (∀ n ∈ [0, 2], let s := ending n between (.eosConsume benchCtx)
      s.live benchCtx (between fresh) = true ∧ (∀ p ∈ s.ins 0 fresh.node, p.2.eosNext = true) ∧ (s.edges.map Prod.fst).Nodup ∧
      (s.outs 0 fresh.node).any (fun q => q.2.free == n) = true) ∧
    (let s := ending 0 owing (.creditArrival 0 1 1)
     s.works 0 0 = true ∧ s.ctxsAt 0 0 = [benchCtx] ∧ s.ctx? benchCtx = some (owing fresh) ∧ (owing fresh).eosOwed = [1] ∧
      (s.edge? 0 1).any (fun e => e.src == 0 && e.free == 0) = true) := by decide +kernel

/-- A controller of each mode, with two children of which none has started, and one whose runs are done. -/
theorem witness_gates : ∀ m ∈ [0, 1, 2], let s := (controlled (.ctlDonePulse 0 0 0)).modRect 0 fun r =>
      { r with image := { r.image with ctls := r.image.ctls.map fun c => { c with mode := m } } }
    (∀ d : Bool, let t := s.modRect 0 fun r => { r with ctls := if d then [⟨true, 1, [1, 1], [1, 1]⟩, ⟨true, 1, [0], [0]⟩] else r.ctls }
      (t.rect? 0).any (fun r => (r.image.ctls[0]?).any fun e => e.mode == m && (r.ctls[0]?).any fun c =>
        c.active && c.runs == 1 && (if d then c.finished == [1, 1] else c.finished == [0, 0])) = true) := by decide +kernel
theorem witness_runs_done : ∀ m, runsDone ⟨m, [.leaf 0, .ctl 1], 1, true, 0, 0⟩ ⟨true, 1, [1, 1], [1, 1]⟩ ∧
    ¬runsDone ⟨m, [.leaf 0, .ctl 1], 1, true, 0, 0⟩ ⟨true, 1, [0, 0], [0, 0]⟩ := by
  intro m
  constructor
  · refine ⟨by decide, ?_⟩
    split
    · intro k hk
      have : k = 0 ∨ k = 1 := by simp at hk; omega
      rcases this with rfl | rfl <;> rfl
    · rfl
  · intro h
    obtain ⟨-, h⟩ := h
    split at h
    · exact absurd (h 0 (Nat.zero_lt_succ 1)) (show ¬(0 : Nat) = 1 by decide)
    · exact absurd h (show ¬(0 : Nat) = 1 by decide)

/-- Answers and acknowledgements of other requests than those that wait. -/
theorem witness_other_answers : let f := fun x : Ctx => { x with pend := [waitingFor 1], tags := [{ writing 1 with seq := some 4 }] }
    (running f).ctx? benchCtx = some (f fresh) ∧ (∀ p ∈ (f fresh).pend, p.id = 7 → p.seq ≠ some 9) ∧ (f fresh).inject = [] ∧ (f fresh).rq = [] ∧
    (f fresh).cut = none ∧ ((f fresh).pend.find? fun q => q.id == 7 && q.seq == none) = some (waitingFor 1) ∧
    (∀ v ∈ (f fresh).tags, v.tag = 3 → v.seq ≠ some 9) ∧
    ((f fresh).tags.find? fun v => v.tag == 3 && v.seq == some 4) = some { writing 1 with seq := some 4 } := by decide +kernel
/-- Two requests that may join: nothing of the second one's source lies between them; its wait may also end. -/
theorem witness_joining : let a := amoReq .add 1 0; let b := { amoReq .add 2 0 with seq := 4 }
    let s := sending [packet (.homeAtomic a) 2 0, packet (.homeAtomic b) 2 0] (.combineAtSwitch 4 a b)
    s.mayJoin a b = true ∧ b.reply ≠ .split s.clock.nextId ∧ a.fn ≠ .swap ∧ a.fn ≠ .cas := by decide +kernel

/-- A line of memory whose data holds an error. -/
def damagedAt (l : Loc) (s : State) : State := { s with homes := { s.homes with bad := [l.align 128] } }
theorem witness_damage : (damagedAt (.dev 1 0x10040) (running id)).damaged (.dev 1 0x10040) 8 = true ∧ (running id).damaged (.dev 1 0x10040) 8 = false ∧
    (running id).admits 1 (.dev 1 0x10040) = true ∧ (damagedAt (.dev 1 0x10040) (running id)).homes.copies = [] ∧
    (damagedAt (.dev 1 0x10040) (running id)).heldReply ((running id).homeNo 1 (.dev 1 0x10040)) asker 3 = none ∧
    (dequed 1).damaged (.dev 1 0x10040) 64 = false ∧ (dequed 1).damaged (.dev 1 0x10080) 8 = false ∧ (dqReq .pop).parked = false := by decide +kernel

/-- BAR.crew and XBAR.rect of two contexts, of which the other one waits, or not. -/
def barredToo (waits : Bool) : State :=
  let s := exchanging fun x => { x with barCrew := true, xbarRect := true }
  let t := { s with ctxs := s.ctxs ++ [((⟨0, 0, 0, 1⟩ : CtxId), { fresh with barCrew := true, xbarRect := true })] }
  t.modRect 0 fun r => { r with arrived := if waits then [⟨⟨0, 0, 0, 1⟩, 3, false, false, 2⟩, ⟨⟨0, 0, 0, 1⟩, 3, true, true, 2⟩] else [] }
theorem witness_other_barriers : ∀ w : Bool, let s := barredToo w; let n := if w then 1 else 0
    (s.participants benchCtx false false).length = 2 ∧ (s.participants benchCtx true true).length = 2 ∧
    (s.rect? 0).any (fun r => (r.arrivals benchCtx false false).length == n && (r.arrivals benchCtx true true).length == n) = true ∧
    (s.ctx? benchCtx).any (fun x => decide (s.exchanges benchCtx x true).Nodup) = true ∧ (∀ p ∈ s.cells, p.2.parked = []) := by decide +kernel
/-- The task's deque request, acquire and watch at their home, its parked presence request, its arrival at a barrier, and nothing of it. -/
theorem witness_withdrawals : (∀ w ∈ ([.deque (dqReq (.push 1)), .sync (syncReqOf false), .watch (waitaReq 1 (.dev 1 0x10040))] : List Waiter),
      let s := { running id with homes := { (running id).homes with waiters := [w] } }
      (s.homes.waiters.find? fun v => namesReply benchCtx 7 v.reply) = some w ∧ (∀ v ∈ s.homes.waiters, v.loc = w.loc → v.same w = true) ∧
      ∀ p ∈ s.cells, ∀ q ∈ p.2.parked, namesReply benchCtx 7 q.reply = false) ∧
    (((ported false 1).cells.find? fun p => p.2.parked.any fun q => namesReply benchCtx 7 q.reply).any fun p => p.1 == benchCtx.cell) = true ∧
    (let s := (running id).modRect 0 fun r => { r with arrived := [⟨benchCtx, 7, false, true, 2⟩] }
     (s.rect? 0).any (fun r => r.arrived.any fun a => a.who == benchCtx && a.id == 7) = true ∧
      ∀ f ∈ s.net.agenda, waitsToResend benchCtx 7 f = false) := by decide +kernel
/-- A hold of the purged handle, on an object that another source waits for. -/
theorem witness_purge_with_a_hold : let other : Src := .task 1 benchHandle 0 0
    let k : SyncHold := ⟨1, .dev 1 0x10040, .task 1 9 0 0, false⟩; let q := { syncReqOf false with src := other }
    let s := { running id with homes := { (running id).homes with holds := [k], waiters := [.sync q] } }
    srcHandle k.src = 9 ∧ 0 < s.homeNo k.lease k.loc ∧ q.loc = k.loc ∧ srcHandle q.src ≠ 9 ∧ s.sourceGone q.src = false ∧ q.reply = answerTo := by
  decide +kernel

/-! ### Witnesses of rectangles, tile tasks, the host and the hub: further clauses -/

/-- The end of a run whose status word goes to 0x10000 and whose signal goes to 0x10040; and of a child, of a parent with a child. -/
theorem witness_completion : (let s := lived (fun r => { r with completing := 1, stAddr := 0x10000, sigAddr := 0x10040, sigVal := 5 }) (.completionSignalWrite 0)
      let t := paged s
      t.signalDue 0 = true ∧ (t.lease 1).stWrites = [] ∧ t.engineLoc none 1 0x10000 true = .found (.dev 1 0x10000) ∧
      t.engineLoc none 1 0x10040 true = .found (.dev 1 0x10040)) ∧
    (let s := delivered (.completionSignalWrite 5) (joined.modRect 5 fun r => { r with completing := 1 })
      let t := s.modRect 0 fun r => { r with joins := [] }
      t.signalDue 5 = true ∧ (t.rect? 5).any (fun r => r.parent == some benchHandle && !r.retain && r.children.isEmpty && r.sigAddr == 0) = true ∧
      t.live? benchHandle = some 0 ∧ (t.rect? 0).any (fun r => r.joins.isEmpty) = true) ∧
    (let s := joined.modRect 0 fun r => { r with completing := 1 };
      (s.rect? 0).any (fun r => r.children.any fun k => s.live? k.handle == some 5) = true ∧ s.signalDue 0 = true) := by decide +kernel

/-- The rectangle draining by a cut or a freeze, its context as `f` makes it. -/
def stopping (freeze : Bool) (f : Ctx → Ctx) : State :=
  (running f).modRect 0 fun r => { r with state := .draining, collector := some (collecting freeze false) }
/-- Contexts that stop: one that may issue, one that yielded, one in IDLE, one that waits at issue, and one with an entry to re-inject. -/
theorem witness_stops : (∀ h ∈ [Hold.free, .yielded, .idle, .woken, .blocked 3], ∀ rd : Bool,
      let f := fun x : Ctx => { x with hold := h, pend := if rd then [waitingFor 1] else [] }
      (stopping false f).ctx? benchCtx = some (f fresh) ∧ (f fresh).cut = none ∧ (f fresh).stopped = false ∧ (f fresh).inject = [] ∧
      (f fresh).fetched = some (.done, encodeWord .done) ∧ (f fresh).pend.length < 16) ∧
    (let f := fun x : Ctx => { x with inject := (queued x).rq, injectBy := .eret };
      (f fresh).inject ≠ [] ∧ (f fresh).injectBy ≠ .rply ∧ (f fresh).cut = none ∧ (f fresh).stopped = false) ∧
    ((stopping false id).atStop 0 0 = true ∧
      (let s := { stopping false id with nodes := [((0, 0), { idleNode 0 false with node := 0 })] };
      ({ s with net := { s.net with agenda := [packet (.nodeReadResponse 0 0 3) 2 0] } } : State).atStop 0 0 = false)) := by decide +kernel
/-- A node that has sent its cut tokens on, and one that has not. -/
theorem witness_passed : 0 ∉ (collecting false false).cutSent ∧ 0 ∉ (collecting false false).passed := by decide +kernel
/-- The last acknowledgement of a freeze after a fault, with no outcome and no status word to write. -/
theorem witness_frozen_record : let f : FaultInfo := ⟨4, 0, 0, 0, none, 0, 0, 0⟩
    ((lived (fun r => { r with state := .draining, first := some f, collector := some (collecting true true) }) (.stopAckArrival 0 0)).rect? 0).any
      (fun r => r.first == some f && r.outcome.isNone && r.stAddr == 0 && r.parent.isNone && r.joins.isEmpty &&
        r.collector.any fun k => k.freeze && k.owed == [0]) = true := by decide +kernel
/-- A drain held up by unit 0, every context of the rectangle stopped. -/
def heldUp (r : Rect) : Rect := { r with state := .draining, drain := 10, collector := some (collecting false true) }
/-- The first cycle past its limit. -/
theorem witness_drain_limit : let s := (lived heldUp (.drainLimitExpiry 0)).modCtx benchCtx fun x => { x with stopped := true }
    let t := { s with clock := { s.clock with cycles := 41 } }
    t.limitPassed 0 = true ∧ (∀ p ∈ t.allCtxs 0, p.2.cut.isSome = true ∨ p.2.stopped = true) ∧
    (t.rect? 0).any (fun r => (r.units.find? fun u => (collecting false true).owed.contains u) == some 0 && r.first.isNone && r.outcome.isNone &&
      r.stAddr == 0) = true := by decide +kernel

/-- The row half with tile task 7 of `k` K-steps, `done` of them added. -/
def stepping (k : Nat) (done : List Nat) (work : Option AccSlot) : State :=
  let ws := (tileRecord 100000).set 5 (1 + 2 ^ 12 + k * 2 ^ 24 + 2 ^ 37 + 7 * 2 ^ 48)
  slated (fun r => { r with task := some 7, ksteps := done, work := work }) [{ tiled (.running 3) with tile := parseTile ws }] [] (.rowHalfKstep 3)
/-- The loads of the sub-blocks of the K-step that comes next reach memory. -/
def stepLoads (s : State) (t : TileRec) (ks : Nat) : Bool :=
  match s.loadRows ⟨1, 0⟩ 0 (2 * t.fa.width) (t.fa == .fp4b) ((List.range 16).map fun i => t.aAddr + i * t.lda + ks * (2 * t.fa.width)) with
  | .got u as => as.length == 16 && (match u.loadRows ⟨1, 0⟩ 0 (2 * t.fb.width) (t.fb == .fp4b) ((List.range 16).map fun i => t.bAddr + i * t.ldb + ks * (2 * t.fb.width)) with
    | .got _ bs => bs.length == 16
    | _ => false)
  | _ => false
/-- A block of two K-steps before its first, before its second, and after it. -/
theorem witness_ksteps : (∀ n ∈ [0, 1, 2], let s := stepping 2 ((List.range n)) (if n = 0 then none else some ⟨.f32, List.replicate 256 0⟩)
      (s.rowTask 3).any (fun k => k.tile.k == 2 && k.tile.write && !k.tile.acc && (tileFmt k.tile.fa k.tile.fb k.tile.fc).any fun p => p.1 == .f32) = true ∧
      (s.row 3).bound = none ∧ (s.row 3).blocks = 0 ∧ (s.row 3).ksteps.length = n) ∧
    (∀ ks ∈ [0, 1], (let s := stepping 2 [] none; (s.rowTask 3).any fun k => stepLoads (s.setRow 3 { s.row 3 with work := some ⟨.f32, List.replicate 256 0⟩ }) k.tile ks) = true) := by
  decide +kernel
/-- Before its first K-step a block goes on from +0; before its second one from the accumulator it holds. -/
theorem witness_block_goes_on : (∀ k, (stepping 2 [] none).rowTask 3 = some k →
      BlockGoesOn (stepping 2 [] none) 3 k ⟨.f32, List.replicate 256 0⟩ (stepping 2 [] none)) ∧
    ∀ k, (stepping 2 [0] (some ⟨.f32, List.replicate 256 0⟩)).rowTask 3 = some k →
      BlockGoesOn (stepping 2 [0] (some ⟨.f32, List.replicate 256 0⟩)) 3 k ⟨.f32, List.replicate 256 0⟩ (stepping 2 [0] (some ⟨.f32, List.replicate 256 0⟩)) := by
  refine ⟨fun k h => .inr ⟨rfl, .f32, 16, ?_, rfl, .inl ⟨?_, rfl, rfl⟩⟩, fun k h => .inl ⟨rfl, ?_, rfl⟩⟩ <;>
    · cases h
      decide +kernel
theorem witness_next_kstep : ∃ i, i < 2 ∧ i ∉ [0] := ⟨1, by decide, by decide⟩

/-- An invalidation of one page while a watch of another page waits, and while a cache holds a translation of the page. -/
theorem witness_invalidation : let s := leased (fun l => { l with fq := { l.fq with inval := some (0x10000, 1) } }) (.invalidationDone 1)
    let e : TlbEntry := ⟨1, 0x20000, 0x10000, .dev 0x20000, true⟩; let d : TlbEntry := ⟨1, 0x10000, 0x10000, .dev 0x10000, true⟩
    let t := { s with homes := { s.homes with waiters := [.watch (waitaReq 1 (.dev 1 0x20040))], tlbs := [(0, [e, d])] } }
    t.invalDue 1 = true ∧ (∃ w ∈ t.homes.waiters, w.lease = 1) ∧
    ({ t with homes := { t.homes with waiters := [.watch (waitaReq 1 (.dev 1 0x10040))] } } : State).invalDue 1 = false := by decide +kernel

/-- Commands of a lease that is not live, one of a handle that names nothing, and one for a row half that the lease does not hold. -/
theorem witness_refused_commands : (∀ op ∈ [1, 2, 3, 4, 5, 6, 7, 8], let s := commanding op 0 (fun l => { l with state := .none }) .mctpStatusQuery
      (s.lease 1).cmdGo = true ∧ (s.lease 1).cmdOp.toNat = op ∧ (s.lease 1).state ≠ .live) ∧
    (commanding 1 0 id (.leaseCreate 1) |>.lease 1).state ≠ .none ∧ (commanding 1 0 (fun l => { l with state := .none }) (.leaseCreate 1)).dev.ready = false ∧
    (commanding 5 0x01000009 id (.preempt 1)).argRect 1 = none ∧
    ((commanding 4 9 id (.revokeRow 1)).row 9).lease ≠ 1 := by decide +kernel
/-- Values of a register write on both sides of each case: GO with and without a command under way, an operation of R377 and one of none; and a suspension. -/
theorem witness_register_writes : ((leased id .mctpStatusQuery).lease 1).cmdGo = false ∧ ((commanding 1 0 id .mctpStatusQuery).lease 1).cmdGo = true ∧
    (0x0100000000000001#64).getLsbD 0 = true ∧ ((0x0100000000000001#64).extractLsb' 56 8).toNat = 1 ∧ leaseCommand 1 1 = some (.leaseCreate 1) ∧
    leaseCommand 1 9 = none ∧ (State.reset.lease 1).state = .none ∧ (leased id .mctpStatusQuery).schedRefused 1 0x8000000000000000 = false ∧
    (0x8000000000000000#64).getLsbD 63 = true ∧ ((leased id .mctpStatusQuery).lease 1).sched.getLsbD 63 = false := by decide +kernel
/-- A sample at the cycle of a reading, and after it; the places of soft errors. -/
theorem witness_samples : (∀ m ∈ [3999999, 4000000], let s := booting 6 4000000 .cinderSample; let t := { s with clock := { s.clock with measured := m } }
      t.clock.lastSample + 4000000 ≤ t.clock.cycles ∧ t.metered.Nodup ∧ ((t.clock.measured = t.clock.cycles) ↔ m = 4000000)) ∧
    (delivered (.softErrorDetected (.line 1 0x10040) false) (running id)).net.hand = some (.softErrorDetected (.line 1 0x10040) false) ∧
    ((running id).rect? benchCtx.slot).any (fun r => decide (0 < r.lease)) = true := by decide +kernel
/-- A failure that a stage finds. -/
theorem witness_stage_failure : ∀ f ∈ [((booting 3 0 .bringupStageTimeout).failOf (77, 3, 2, 0x0501, 9, 0))],
    (booting 3 0 .bringupStageTimeout).bootFails ++ [f] = f :: [] := fun f _ => by rw [booting_fails]; rfl

end Sys2Proof.Tests
end

section
/-! PROOFS. What reset leaves in the device's registers and in the lease blocks, and what a load writes into a context (O6). -/

namespace Sys2Proof.Machine

/-! ### Launch queues and counters of a lease -/

theorem Lease.queue_of_lt (l : Lease) {n : Nat} (h : n < 4) : l.queue n = l.lqs[n] := by
  simp [Lease.queue, List.getD_eq_getElem?_getD, h]

/-- Every launch queue is STOPPED, disabled and empty at reset, a number without a queue included (R368). -/
theorem Lease.queue_reset (n : Nat) : Lease.reset.queue n = LaunchQueue.reset := by
  by_cases h : n < 4
  · simp [Lease.queue_of_lt _ h, Lease.reset]
  · simp [Lease.queue, List.getD_eq_getElem?_getD, h]

theorem Lease.counter_reset {k : Counter} (h : k ∈ Lease.reset.counters.toList) : k = Counter.reset := by
  rw [Lease.reset, Vector.toList_replicate] at h
  exact List.eq_of_mem_replicate h

/-! ### A context that a load writes (R61, R80) -/

/-- The full/empty bits at arming: the operand registers s48 to s59 are empty (R61). -/
theorem armedSfe_getLsbD : ∀ r : SReg, (r.toNat = 0 || 60 ≤ r.toNat || armedSfe.getLsbD r.toNat) =
    !(decide (48 ≤ r.toNat) && decide (r.toNat < 60)) := by
  decide

/-- The vector operand registers v24 to v29 are empty at arming (R61). -/
theorem armedVfe_getLsbD : ∀ r : VReg, (30 ≤ r.toNat || armedVfe.getLsbD r.toNat) = !(decide (24 ≤ r.toNat) && decide (r.toNat < 30)) := by
  decide

variable (k : TaskE) (handle lease : Nat) (repro : Bool)

theorem TaskE.context_s (r : SReg) : (k.context handle lease repro).s r = 0 := by
  unfold Ctx.s
  split
  · rfl
  · exact Vector.getElem_replicate ..
theorem TaskE.context_v (r : VReg) :
    (k.context handle lease repro).v r = List.replicate (k.context handle lease repro).width (.plain 0) :=
  Vector.getElem_replicate ..
/-- m0 by its definition, and every other mask register as it is loaded, hold ones over the lanes of the crew (R60, R61). -/
theorem TaskE.context_m (m : BitVec 3) :
    (k.context handle lease repro).m m = BitVec.ofNat 128 (2 ^ (k.context handle lease repro).width - 1) := by
  unfold Ctx.m
  split
  · rfl
  · exact Vector.getElem_replicate ..

end Sys2Proof.Machine
end

section
namespace Sys2Proof.Proofs
open Sys2Proof Sys2Proof.Machine

/-- Settles O6: no table of the machine has an entry at reset, so that each read answers the reset block;
and a loaded context is read register by register. -/
theorem resetLeavesTheStatedValues : Obligations.ResetLeavesTheStatedValues := by
  refine ⟨⟨rfl, rfl, rfl, rfl, rfl, fun _ => rfl, fun _ => rfl, fun l => ⟨rfl, rfl, rfl, fun n => ?_, rfl, rfl, rfl, fun k hk => ?_⟩⟩,
    fun k handle lease repro => ⟨fun r => ⟨k.context_s .., armedSfe_getLsbD r⟩,
      fun r => ⟨k.context_v .., armedVfe_getLsbD r⟩, fun m l => ?_,
      rfl, rfl, rfl, rfl, rfl, rfl, rfl, rfl, rfl, rfl, rfl, rfl, rfl⟩⟩
  · rw [show State.reset.lease l = Lease.reset from rfl, Lease.queue_reset]
    exact ⟨rfl, rfl, rfl⟩
  · rw [Lease.counter_reset hk]
    exact ⟨rfl, rfl⟩
  · rw [k.context_m, BitVec.getLsbD_ofNat, Nat.testBit_two_pow_sub_one]

end Sys2Proof.Proofs
end

section
/-! PROOFS. What the shared operations at the homes leave alone: a fold keeps what its steps keep; a request at a slice changes caches and
counters only; requests that wait at a home, tested again, change no storage, no cell and no context. -/

namespace Sys2Proof.Machine

/-- An instruction that answers a next state completes with whatever holds of it. -/
theorem Completes.of_next {i : Instr} {s t : State} {P : State → Prop} (h : exec i s = .next t) (hP : P t) : Completes i s P := ⟨t, h, hP⟩

/-- What every step keeps, a run through a list keeps. -/
theorem foldl_keeps {α β : Type} (g : State → β) {f : State → α → State} {as : List α}
    (h : ∀ s, ∀ a ∈ as, g (f s a) = g s) (s : State) :
    g (as.foldl f s) = g s := by
  induction as generalizing s with
  | nil => rfl
  | cons a as ih =>
    rw [List.foldl_cons, ih (fun t b hb => h t b (List.mem_cons_of_mem _ hb)), h s a List.mem_cons_self]

/-! ### The slices' caches (R391, R420) -/

/-- A state without caches and lease blocks: what a request at a slice cannot change. -/
def State.besideCaches (s : State) : State := { s with homes := { s.homes with lines := [], copies := [] }, leases := [] }

theorem State.count_besideCaches (s : State) (lease code handle n : Nat) : (s.count lease code handle n).besideCaches = s.besideCaches := by
  rw [(State.count_frame ..).1]; rfl
theorem State.evict_besideCaches (s : State) (a : Agent) (c : CacheLine) : (s.evict a c).besideCaches = s.besideCaches := by
  unfold State.evict
  split
  · rw [State.count_besideCaches, State.count_besideCaches]; rfl
  · rfl
theorem State.makeRoom_besideCaches {s t : State} {a : Agent} {r : FillRoom} (h : s.makeRoom a r = some t) : t.besideCaches = s.besideCaches := by
  cases r <;> simp only [State.makeRoom, Option.some.injEq, reduceCtorEq] at h <;> subst h
  · rfl
  · rfl
  · exact State.evict_besideCaches ..
theorem State.touch_besideCaches (s : State) (a : Agent) (l : Loc) (w : Bool) : (s.touch a l w).besideCaches = s.besideCaches := by
  unfold State.touch
  split
  · rfl
  · rfl
  · exact State.count_besideCaches ..
  · dsimp only
    split
    · rw [State.count_besideCaches]; rfl
    · rw [State.count_besideCaches, State.count_besideCaches]
      cases h : s.makeRoom a (s.fillRoom _ (s.setOf _)) with
      | none => rfl
      | some t => exact (State.makeRoom_besideCaches h :)
@[simp] theorem State.touch_mem (s : State) (a : Agent) (l : Loc) (w : Bool) : (s.touch a l w).mem = s.mem := (State.touch_frame ..).1
@[simp] theorem State.touch_cells (s : State) (a : Agent) (l : Loc) (w : Bool) : (s.touch a l w).cells = s.cells := (State.touch_frame ..).2
@[simp] theorem State.touch_ctxs (s : State) (a : Agent) (l : Loc) (w : Bool) : (s.touch a l w).ctxs = s.ctxs :=
  (congrArg State.ctxs (State.touch_besideCaches s a l w) :)
@[simp] theorem State.touch_host (s : State) (a : Agent) (l : Loc) (w : Bool) : (s.touch a l w).host = s.host :=
  (congrArg State.host (State.touch_besideCaches s a l w) :)

@[simp] theorem State.touch_waiters (s : State) (a : Agent) (l : Loc) (w : Bool) : (s.touch a l w).homes.waiters = s.homes.waiters :=
  (congrArg (fun t : State => t.homes.waiters) (State.touch_besideCaches s a l w) :)

theorem State.load_congr {s t : State} (h : t.mem = s.mem) (l : Loc) (n : Nat) : t.load l n = s.load l n := by simp [State.load, h]

/-- An engine's read answers the bytes of storage, and changes caches and counters only. -/
theorem State.engineRead_besideCaches (s : State) (a : Agent) (l : Loc) (n : Nat) : (s.engineRead a l n).1.besideCaches = s.besideCaches :=
  foldl_keeps State.besideCaches (fun _ _ _ => State.touch_besideCaches ..) s

/-- Pieces read at their homes answer the bytes of storage in order, and change caches and counters only. -/
theorem State.pull_spec (s : State) (a : Agent) (ps : List (Nat × Loc × Nat)) :
    (s.pull a ps).1.besideCaches = s.besideCaches ∧ (s.pull a ps).2 = ps.flatMap fun p => s.load p.2.1 p.2.2 := by
  have key : ∀ (ps : List (Nat × Loc × Nat)) (t : State) (bs : List Byte), t.besideCaches = s.besideCaches →
      let r := ps.foldl (fun (t : State × List Byte) p => ((t.1.engineRead a p.2.1 p.2.2).1, t.2 ++ (t.1.engineRead a p.2.1 p.2.2).2)) (t, bs)
      r.1.besideCaches = s.besideCaches ∧ r.2 = bs ++ ps.flatMap fun p => s.load p.2.1 p.2.2 := by
    intro ps
    induction ps with
    | nil => intro t bs h; exact ⟨h, by simp⟩
    | cons p ps ih =>
      intro t bs h
      obtain ⟨h1, h2⟩ := ih _ (bs ++ (t.engineRead a p.2.1 p.2.2).2) ((State.engineRead_besideCaches t a p.2.1 p.2.2).trans h)
      refine ⟨h1, h2.trans ?_⟩
      rw [List.flatMap_cons, List.append_assoc]
      exact congrArg (fun b => bs ++ (b ++ _)) (State.load_congr (congrArg State.mem h) ..)
  exact key ps s [] rfl

/-! ### Requests that wait at a home (R211, R218) -/

/-- What sending a packet, dropping a waiting request or a die copy, and the answers of the watches keep, testing the waiting requests again
keeps. -/
theorem State.retest_keeps {β : Type} (g : State → β) (hpost : ∀ t cls ev, g (State.post t cls ev) = g t)
    (hhomes : ∀ (t : State) h, g { t with homes := h } = g t) {s : State}
    (hans : ∀ (t : State) r, .watch r ∈ s.homes.waiters → g (t.answer r.cls r.reply .nothing) = g t) (l : Loc) (n : Nat) :
    g (s.retest l n) = g s := by
  refine foldl_keeps g (fun t w hw => ?_) s
  cases w with
  | sync r => rfl
  | deque r =>
    dsimp only
    split
    · exact hpost ..
    · rfl
  | watch r =>
    dsimp only
    split
    · unfold State.waitaDone
      dsimp only
      split
      · rw [hans _ r hw]; exact (hhomes _ _).trans (hhomes _ _)
      · rw [hans _ r hw]; exact hhomes ..
    · rfl

/-- A state without its homes, what is on its way, the clock's counters and the host's answers: what testing waiting requests again cannot
change. -/
def State.besideHomes (s : State) : State :=
  { s with homes := State.reset.homes, net := State.reset.net, clock := State.reset.clock, host := State.reset.host }

theorem State.answer_besideHomes (s : State) (cls : Nat) (d : ReplyTo) (v : Payload) : (s.answer cls d v).besideHomes = s.besideHomes := by
  cases d <;> rfl
theorem State.retest_besideHomes (s : State) (l : Loc) (n : Nat) : (s.retest l n).besideHomes = s.besideHomes :=
  State.retest_keeps State.besideHomes (fun _ _ _ => rfl) (fun _ _ => rfl) (fun _ _ _ => State.answer_besideHomes ..) l n

/-- A write of the hub or the host changes storage as the store does, and otherwise only the homes, what is on its way and what they
answer. -/
theorem State.homeWrite_besideHomes (s : State) (l : Loc) (bs : List Byte) :
    (s.homeWrite none l bs).besideHomes = (s.store l bs).besideHomes :=
  State.retest_besideHomes ..
theorem State.homeWrite_mem (s : State) (l : Loc) (bs : List Byte) : (s.homeWrite none l bs).mem = (s.store l bs).mem :=
  (congrArg State.mem (State.homeWrite_besideHomes s l bs) :)
theorem State.homeWrite_cells (s : State) (l : Loc) (bs : List Byte) : (s.homeWrite none l bs).cells = s.cells :=
  (congrArg State.cells (State.homeWrite_besideHomes s l bs) :)
theorem State.homeWrite_ctxs (s : State) (l : Loc) (bs : List Byte) : (s.homeWrite none l bs).ctxs = s.ctxs :=
  (congrArg State.ctxs (State.homeWrite_besideHomes s l bs) :)

/-- Answers to contexts alone are no answers to the host. -/
theorem State.homeWrite_host {s : State} (h : ∀ q, .watch q ∈ s.homes.waiters → ∃ c k i n m, q.reply = .ctxReply c k i n m) (l : Loc)
    (bs : List Byte) : (s.homeWrite none l bs).host = s.host :=
  State.retest_keeps (s := s.store l bs) State.host (fun _ _ _ => rfl) (fun _ _ => rfl)
    (fun t r hr => by obtain ⟨c, k, i, n, m, e⟩ := h r hr; rw [e]; rfl) l bs.length

/-- Pieces written for the host leave the bytes at their places, and no cell and no context changes. -/
theorem State.pushHost_spec (s : State) (a : Agent) (ps : List (Nat × Loc × Nat)) (bs : List Byte) :
    (s.pushHost a ps bs).mem = (ps.foldl (fun u p => State.store u p.2.1 ((bs.drop p.1).take p.2.2)) s).mem ∧
      (s.pushHost a ps bs).cells = s.cells ∧ (s.pushHost a ps bs).ctxs = s.ctxs := by
  refine ⟨?_, foldl_keeps State.cells (fun t p _ => ?_) s, foldl_keeps State.ctxs (fun t p _ => ?_) s⟩
  · have key : ∀ (ps : List (Nat × Loc × Nat)) (t u : State), t.mem = u.mem →
        (t.pushHost a ps bs).mem = (ps.foldl (fun u p => State.store u p.2.1 ((bs.drop p.1).take p.2.2)) u).mem := by
      intro ps
      induction ps with
      | nil => intro t u h; exact h
      | cons p ps ih =>
        intro t u h
        refine ih _ _ ((State.homeWrite_mem ..).trans ?_)
        simp only [State.store_mem, State.touch_mem, h]
    exact key ps s s rfl
  · exact (State.homeWrite_cells ..).trans (State.touch_cells ..)
  · exact (State.homeWrite_ctxs ..).trans (State.touch_ctxs ..)

end Sys2Proof.Machine
end

section
/-! PROOFS. The host's accesses, the doorbells and the launch queues (O56): the registers of one queue after a write, what each event's meaning
answers, and the obligation. -/

namespace Sys2Proof.Machine

/-! ### The registers of a launch queue (R368, R369) -/

theorem Lease.queue_modQueue (l : Lease) {n : Nat} (h : n < 4) (f : LaunchQueue → LaunchQueue) :
    (l.modQueue n f).queue n = f (l.queue n) := by
  simp [Lease.queue_of_lt _ h, Lease.modQueue, h]
theorem Lease.queue_queueError (l : Lease) {n : Nat} (h : n < 4) (code : Nat) (eseq : BitVec 32) :
    (l.queueError n code eseq).queue n = (l.queue n).fail code eseq :=
  Lease.queue_modQueue l h fun q => q.fail code eseq

section
variable (l : Lease) {n : Nat} (h : n < 4) (v : BitVec 32)
include h

/-- A doorbell of a queue in ERROR is only kept as it reads back (R368, R369). -/
theorem Lease.queue_tailDoorbell_error (hs : (l.queue n).state = lqError) : (l.tailDoorbell n v).queue n = { l.queue n with door := v } := by
  rw [Lease.tailDoorbell, if_pos hs, Lease.queue_modQueue l h]
/-- A doorbell more than the queue's size ahead of HEAD is an error of code 0x02 (R369). -/
theorem Lease.queue_tailDoorbell_ahead (hs : (l.queue n).state ≠ lqError) (ha : 2 ^ (l.queue n).sizel < (v - (l.queue n).head).toNat) :
    (l.tailDoorbell n v).queue n = { l.queue n with door := v }.fail 0x02 v := by
  rw [Lease.tailDoorbell, if_neg hs, if_pos ha, Lease.queue_queueError _ h, Lease.queue_modQueue l h]
/-- Any other doorbell moves the tail (R369). -/
theorem Lease.queue_tailDoorbell_within (hs : (l.queue n).state ≠ lqError) (ha : ¬2 ^ (l.queue n).sizel < (v - (l.queue n).head).toNat) :
    (l.tailDoorbell n v).queue n = { l.queue n with door := v, tail := v } := by
  rw [Lease.tailDoorbell, if_neg hs, if_neg ha, Lease.queue_modQueue _ h, Lease.queue_modQueue l h]
end

/-- A write of LQ_CTL: a STOPPED queue takes a size in range and runs with EN; another keeps its size, and stops without EN once no read is in
progress (R368, R369). -/
theorem LaunchQueue.ctlWrite_eq (q : LaunchQueue) (v : BitVec 64) :
    q.ctlWrite v =
      if q.state = lqStopped then
        (if 1 ≤ (v.extractLsb' 0 5).toNat ∧ (v.extractLsb' 0 5).toNat ≤ 16 then
          { q with pol := v.getLsbD 7, en := v.getLsbD 6, sizel := (v.extractLsb' 0 5).toNat, state := if v.getLsbD 6 then lqRunning else lqStopped }
        else q)
      else { q with pol := v.getLsbD 7, en := v.getLsbD 6, state := if v.getLsbD 6 = false ∧ q.reading = false then lqStopped else q.state } := by
  unfold LaunchQueue.ctlWrite
  by_cases hs : q.state = lqStopped
  · simp only [if_pos hs]
    by_cases hz : 1 ≤ (v.extractLsb' 0 5).toNat ∧ (v.extractLsb' 0 5).toNat ≤ 16
    · rw [if_pos hz, if_neg (by omega)]
    · rw [if_neg hz, if_pos (by omega)]
  · simp only [if_neg hs]
    cases v.getLsbD 6 <;> cases q.reading <;> rfl

/-- A register of a virtual function takes a write in whatever state its lease is (R10). -/
theorem State.lease_vfWrite (s : State) {lease : Nat} (h0 : 0 < lease) (h1 : lease < 256) (f : Lease → Lease) :
    (s.vfWrite lease f).lease lease = f (s.lease lease) := by
  rw [State.vfWrite, if_pos (by simp [isTenant, h0, h1]), State.lease_modLease_self]

/-! ### Events of the host -/

section
variable {s : State} {lease va id : Nat}

theorem exec_hostCxlRead_dead {n : Nat} (h : s.net.hand = some (.hostCxlRead lease va n id)) (hl : (s.lease lease).state ≠ .live) :
    exec .hostCxlRead s = .next (s.hostAnswer id (allOnes n)) := by
  show execHostCxlRead s = _
  simp [execHostCxlRead, h, State.isLive, hl]
theorem exec_hostCxlRead {n : Nat} {ps : List (Nat × Loc × Nat)} (h : s.net.hand = some (.hostCxlRead lease va n id))
    (hl : (s.lease lease).state = .live) (hp : s.span none lease va n false = .ok ps) :
    exec .hostCxlRead s = .next ((s.pull noAgent ps).1.hostAnswer id (s.pull noAgent ps).2) := by
  show execHostCxlRead s = _
  simp [execHostCxlRead, h, State.isLive, hl, hp]

theorem exec_hostCxlWrite_dead {data : List Byte} (h : s.net.hand = some (.hostCxlWrite lease va data)) (hl : (s.lease lease).state ≠ .live) :
    exec .hostCxlWrite s = .next s := by
  show execHostCxlWrite s = _
  simp [execHostCxlWrite, h, State.isLive, hl]
theorem exec_hostCxlWrite {data : List Byte} {ps : List (Nat × Loc × Nat)} (h : s.net.hand = some (.hostCxlWrite lease va data))
    (hl : (s.lease lease).state = .live) (hp : s.span none lease va data.length true = .ok ps) :
    exec .hostCxlWrite s = .next (s.pushHost noAgent ps data) := by
  show execHostCxlWrite s = _
  simp [execHostCxlWrite, h, State.isLive, hl, hp]

theorem exec_hostAtomic {fn : AmoFn} {b cmp : BitVec 64} {l : Loc} (h : s.net.hand = some (.hostAtomic lease va fn b cmp id))
    (hf : fn = .add ∨ fn = .swap ∨ fn = .cas) (ha : va % 8 = 0) (hl : (s.lease lease).state = .live)
    (hp : s.engineLoc none lease va true = .found l) :
    exec .hostAtomic s = .next (s.fresh.performAtomic (s.hostAmo lease l fn b cmp id)) := by
  have hfn : hostAmo fn = true := by rcases hf with rfl | rfl | rfl <;> rfl
  show execHostAtomic s = _
  simp [execHostAtomic, h, hfn, ha, State.isLive, hl, hp]

theorem exec_lqTailDoorbell {n : Nat} {v : BitVec 64} (h : s.net.hand = some (.lqTailDoorbell lease n v)) :
    exec .lqTailDoorbell s = .next (s.vfWrite lease fun l => l.tailDoorbell n (v.setWidth 32)) := by
  show execLqTailDoorbell s = _
  simp only [execLqTailDoorbell, h]
theorem exec_lqHeadWrite {n : Nat} {v : BitVec 64} (h : s.net.hand = some (.lqHeadWrite lease n v)) :
    exec .lqHeadWrite s = .next (s.vfWrite lease fun l => l.modQueue n fun q => q.headWrite (v.setWidth 32)) := by
  show execLqHeadWrite s = _
  simp only [execLqHeadWrite, h]
theorem exec_lqCtlWrite {n : Nat} {v : BitVec 64} (h : s.net.hand = some (.lqCtlWrite lease n v)) :
    exec .lqCtlWrite s = .next (s.vfWrite lease fun l => l.modQueue n fun q => q.ctlWrite v) := by
  show execLqCtlWrite s = _
  simp only [execLqCtlWrite, h]

/-- The record at HEAD of a queue whose turn it is and that is enabled is read (R369). -/
theorem exec_launchRecordRead {n : Nat} (h : s.net.hand = some (.launchRecordRead lease n [])) (hd : s.recordDue lease n = true)
    (he : ((s.lease lease).queue n).en = true) : exec .launchRecordRead s = .next (s.readRecord lease n) := by
  show execLaunchRecordRead s = _
  simp [execLaunchRecordRead, h, hd, he]
/-- A record in hand is taken while its lease exists (R372, R379). -/
theorem exec_launchRecordRead_taken {n : Nat} {b : Byte} {bs : List Byte} (h : s.net.hand = some (.launchRecordRead lease n (b :: bs)))
    (hl : (s.lease lease).state ≠ .none) :
    exec .launchRecordRead s = .next (s.takeRecord lease n ((b :: bs).take 128) ((b :: bs).drop 128)) := by
  show execLaunchRecordRead s = _
  simp [execLaunchRecordRead, h, hl]
/-- A suspended lease refuses a record with LEASE_SUSPENDED, and leaves no copy of its image (R313, R372). -/
theorem State.takeRecord_suspended {n : Nat} {bs : List Byte} (he : s.dev.ember = false) (hs : (s.lease lease).suspended = true) :
    s.takeRecord lease n (bs.take 128) (bs.drop 128) =
      (s.dropLoad lease (.launchRecordRead lease n bs)).refuseRecord lease n (bs.take 128) 0x10 none 0x09 := by
  simp [State.takeRecord, State.ember, he, hs]

/-- An atomic that the host asks for answers the old word to the host and leaves the new one at its home, where it does not fail; no
cell changes (R206, R363). -/
theorem State.performAtomic_host {r : AmoReq} {port : Nat} (hr : r.reply = .host port id) (hret : r.returning = true)
    (hw : ∀ q, .watch q ∈ s.homes.waiters → ∃ c h i n k, q.reply = .ctxReply c h i n k) :
    let w := BitVec.ofNat 64 (leNat (s.load r.loc 8))
    (s.performAtomic r).host.answers = s.host.answers ++ [(id, leBytes 8 w.toNat)] ∧ (s.performAtomic r).cells = s.cells ∧
      (s.performAtomic r).mem = if r.fn = .cas ∧ w ≠ r.cmp then s.mem else (s.store r.loc (leBytes 8 (amoNew r.fn w r.b r.cmp).toNat)).mem := by
  intro w
  have hp : s.partDies 16 r.reply = [] := by rw [hr]; rfl
  have hkeep : ∀ u : State, u.host = s.host → u.cells = s.cells →
      let t := (u.writeTaken r.reply).replyKept (s.homeNo r.lease r.loc) r.src r.seq r.cls r.reply (if r.returning then .word w else .nothing)
      t.host.answers = s.host.answers ++ [(id, leBytes 8 w.toNat)] ∧ t.cells = s.cells ∧ t.mem = u.mem := by
    intro u hh hc
    rw [hr, hret]
    exact ⟨congrArg (fun h : HostSide => h.answers ++ [(id, leBytes 8 w.toNat)]) hh, hc, rfl⟩
  have hcas : (decide (r.fn = .cas) && BitVec.ofNat 64 (s.loadNat r.loc 8) != r.cmp) = true ↔ r.fn = .cas ∧ w ≠ r.cmp := by
    simp [w, State.loadNat]
  unfold State.performAtomic
  rw [hp]
  dsimp only [List.foldl_nil]
  by_cases hc : r.fn = .cas ∧ w ≠ r.cmp
  · rw [if_pos hc, if_pos (hcas.2 hc)]
    obtain ⟨ha, hcl, hm⟩ := hkeep ((s.touch (s.amoAgent r) r.loc true).count (s.amoAgent r).lease 0x030 (s.amoAgent r).handle 1)
      (by simp) (by simp)
    exact ⟨ha, hcl, hm.trans (by simp)⟩
  · rw [if_neg hc, if_neg (mt hcas.1 hc)]
    obtain ⟨ha, hcl, hm⟩ := hkeep (((s.touch (s.amoAgent r) r.loc true).count (s.amoAgent r).lease 0x030 (s.amoAgent r).handle 1).homeWrite
      none r.loc (leBytes 8 (amoNew r.fn w r.b r.cmp).toNat)) ((State.homeWrite_host (by simpa using hw) ..).trans (by simp))
      ((State.homeWrite_cells ..).trans (by simp))
    exact ⟨ha, hcl, (hm.trans (State.homeWrite_mem ..)).trans (by simp only [State.store_mem, State.count_mem, State.touch_mem])⟩
end

end Sys2Proof.Machine
end

section
namespace Sys2Proof.Proofs
open Sys2Proof Sys2Proof.Machine

/-- Settles O56: each event's meaning at hand is a named update of the state, whose frame and registers the lemmas above give. -/
theorem hostAccessesAndLaunchQueuesTakeEffect : Obligations.HostAccessesAndLaunchQueuesTakeEffect := by
  intro s lease
  refine ⟨?_, ?_, ?_, ?_, ?_, ?_⟩
  · intro va n id ps hh
    refine ⟨fun hl hp => ?_, fun hl => ?_⟩
    · obtain ⟨hf, hb⟩ := s.pull_spec noAgent ps
      refine .of_next (exec_hostCxlRead hh hl hp) ⟨(congrArg State.mem hf :), (congrArg State.ctxs hf :), ?_⟩
      rw [← hb]
      exact congrArg (fun h : HostSide => h.answers ++ _) (congrArg State.host hf :)
    · exact .of_next (exec_hostCxlRead_dead hh hl) rfl
  · intro va data ps hh
    exact ⟨fun hl hp => .of_next (exec_hostCxlWrite hh hl hp) (s.pushHost_spec ..), fun hl => .of_next (exec_hostCxlWrite_dead hh hl) rfl⟩
  · intro va fn b cmp id l hh hf ha hl hp hw
    exact .of_next (exec_hostAtomic hh hf ha hl hp) (State.performAtomic_host (s := s.fresh) rfl rfl hw)
  · intro n h0 h1 h4
    refine ⟨fun v hh => .of_next (exec_lqTailDoorbell hh) ⟨_, rfl, ?_⟩, fun v hh => .of_next (exec_lqHeadWrite hh) ?_,
      fun v hh => .of_next (exec_lqCtlWrite hh) ?_⟩ <;> rw [State.lease_vfWrite s h0 h1]
    · by_cases hs : ((s.lease lease).queue n).state = lqError
      · rw [Lease.queue_tailDoorbell_error _ h4 _ hs]
        exact ⟨rfl, rfl, fun h => absurd hs h, fun h => absurd hs h, fun _ => rfl⟩
      · by_cases ha : 2 ^ ((s.lease lease).queue n).sizel < (v.setWidth 32 - ((s.lease lease).queue n).head).toNat
        · rw [Lease.queue_tailDoorbell_ahead _ h4 _ hs ha]
          exact ⟨rfl, rfl, fun _ h => absurd ha (Nat.not_lt.2 h), fun _ _ => ⟨rfl, rfl, rfl, rfl⟩, fun h => absurd h hs⟩
        · rw [Lease.queue_tailDoorbell_within _ h4 _ hs ha]
          exact ⟨rfl, rfl, fun _ _ => ⟨rfl, rfl⟩, fun _ h => absurd h ha, fun h => absurd h hs⟩
    · exact Lease.queue_modQueue _ h4 _
    · exact (Lease.queue_modQueue _ h4 _).trans (LaunchQueue.ctlWrite_eq ..)
  · exact fun n hh hd he => .of_next (exec_launchRecordRead hh hd he) rfl
  · exact fun n b bs hh hl => .of_next (exec_launchRecordRead_taken hh hl) ⟨rfl, fun he hs => State.takeRecord_suspended he hs⟩

end Sys2Proof.Proofs
end

section
/-! PROOFS. What serving a fault queue leaves alone (R386): every table but the lease blocks, and of those all but the fault queue, the page
services, the counter set and the interrupts. -/

namespace Sys2Proof.Machine

/-- A lease block without its fault queue, page services, counter set and interrupts. -/
def Lease.besideQueue (l : Lease) : Lease :=
  { l with fq := FaultQueue.reset, svcs := [], counters := Lease.reset.counters, cntOvf := 0, vectors := [] }

/-- What serving a fault queue cannot change: the state without storage, its homes, what is on its way, the clock's counters and the host's
answers, and of each lease what stands beside its fault queue. -/
def State.besideQueues (s : State) : State × (Nat → Lease) :=
  ({ s.besideHomes with mem := [], leases := [] }, fun k => (s.lease k).besideQueue)

theorem State.besideQueues_setLease {s : State} {n : Nat} {l : Lease} (h : l.besideQueue = (s.lease n).besideQueue) :
    (s.setLease n l).besideQueues = s.besideQueues := by
  refine Prod.ext rfl (funext fun k => ?_)
  show ((s.setLease n l).lease k).besideQueue = _
  rw [State.lease_setLease]
  split
  · subst_vars; exact h
  · rfl
theorem State.besideQueues_modLease {s : State} {n : Nat} {f : Lease → Lease} (h : ∀ l, (f l).besideQueue = l.besideQueue) :
    (s.modLease n f).besideQueues = s.besideQueues :=
  State.besideQueues_setLease (h _)
theorem State.besideQueues_count (s : State) (lease code handle n : Nat) : (s.count lease code handle n).besideQueues = s.besideQueues := by
  unfold State.count
  split
  · rfl
  · exact State.besideQueues_modLease fun _ => rfl
theorem State.besideQueues_homeWrite (s : State) (l : Loc) (bs : List Byte) : (s.homeWrite none l bs).besideQueues = s.besideQueues := by
  have h := State.homeWrite_besideHomes s l bs
  refine Prod.ext (congrArg (fun t : State => { t with mem := [], leases := [] }) h :) (funext fun k => ?_)
  exact congrArg Lease.besideQueue (State.lease_congr (congrArg State.leases h :) k)

theorem State.besideQueues_postService (s : State) (lease : Nat) (v : PageSvc) : (s.postService lease v).besideQueues = s.besideQueues := by
  unfold State.postService
  dsimp only
  split
  · rw [State.besideQueues_count]; exact State.besideQueues_setLease rfl
  · exact State.besideQueues_setLease rfl
theorem State.besideQueues_postServices (s : State) (lease : Nat) : (s.postServices lease).besideQueues = s.besideQueues :=
  foldl_keeps State.besideQueues (fun t v _ => by
    split
    · exact State.besideQueues_postService ..
    · rfl) s
theorem State.besideQueues_waitPage (s : State) (lease entry value : Nat) (r : FaultRec) (w : Option Event) :
    (s.waitPage lease entry value r w).besideQueues = s.besideQueues := by
  unfold State.waitPage
  dsimp only
  split
  · exact State.besideQueues_setLease rfl
  · rw [State.besideQueues_postServices]; exact State.besideQueues_setLease rfl
theorem State.besideQueues_writeRecord (s : State) (lease : Nat) (r : FaultRec) : (s.writeRecord lease r).1.besideQueues = s.besideQueues := by
  unfold State.writeRecord
  dsimp only
  split
  · rw [State.besideQueues_modLease fun l => by split <;> rfl]
    exact State.besideQueues_homeWrite ..
  · split
    · exact State.besideQueues_waitPage ..
    · rfl
    · rfl
  · exact State.besideQueues_modLease fun _ => rfl
theorem State.besideQueues_flushRecords (s : State) (lease n : Nat) : (s.flushRecords lease n).besideQueues = s.besideQueues := by
  induction n generalizing s with
  | zero => rfl
  | succ n ih =>
    unfold State.flushRecords
    dsimp only
    split
    · rfl
    · split
      · split
        · rw [ih]; exact State.besideQueues_writeRecord ..
        · exact State.besideQueues_writeRecord ..
      · rfl
theorem State.besideQueues_serveFrom (s : State) (lease n : Nat) : (s.serveFrom lease n).besideQueues = s.besideQueues := by
  induction n generalizing s with
  | zero => exact State.besideQueues_flushRecords ..
  | succ n ih =>
    have h : ((s.flushRecords lease 128).postServices lease).besideQueues = s.besideQueues :=
      (State.besideQueues_postServices ..).trans (State.besideQueues_flushRecords ..)
    unfold State.serveFrom
    dsimp only
    split
    · exact h
    · rw [ih, h]
theorem State.besideQueues_serveQueue (s : State) (lease : Nat) : (s.serveQueue lease).besideQueues = s.besideQueues := by
  unfold State.serveQueue
  split
  · rfl
  · exact State.besideQueues_serveFrom ..
/-- A posted record changes nothing beside the fault queues. -/
theorem State.besideQueues_postRecord (s : State) (lease : Nat) (r : FaultRec) : (s.postRecord lease r).besideQueues = s.besideQueues := by
  unfold State.postRecord
  split
  · rfl
  · rw [State.besideQueues_serveQueue]; exact State.besideQueues_modLease fun _ => rfl
theorem State.postRecord_dev (s : State) (lease : Nat) (r : FaultRec) : (s.postRecord lease r).dev = s.dev :=
  (congrArg (fun p => p.1.dev) (State.besideQueues_postRecord s lease r) :)
theorem State.postRecord_errUe (s : State) (lease : Nat) (r : FaultRec) (k : Nat) :
    ((s.postRecord lease r).lease k).errUe = (s.lease k).errUe :=
  (congrArg (fun p => (p.2 k).errUe) (State.besideQueues_postRecord s lease r) :)

end Sys2Proof.Machine
end

section
/-! PROOFS. Meters: what a measurement and a sample leave, identifier by identifier, and how a rail's energy is divided (R414 to R416). -/

namespace Sys2Proof.Machine

/-! ### Sums over the running meters -/

/-- What stands before an identifier in a list of identifiers, weighed. -/
def weightBefore (w : Nat → Nat) (id : Nat) (ids : List Nat) : Nat := ((ids.takeWhile fun k => k != id).map w).sum

theorem shareUpTo_mono (e all : Nat) {a b : Nat} (h : a ≤ b) : shareUpTo e a all ≤ shareUpTo e b all := by
  unfold shareUpTo
  split
  · exact Nat.le_refl _
  · exact Nat.div_le_div_right (Nat.mul_le_mul_left e h)

/-- The shares of distinct identifiers, each the step of `shareUpTo` over its own weight, sum to the step over all their weights. -/
theorem sum_shareUpTo (e all : Nat) (w : Nat → Nat) {ids : List Nat} (hn : ids.Nodup) (b : Nat) :
    (ids.map fun id => shareUpTo e (b + weightBefore w id ids + w id) all - shareUpTo e (b + weightBefore w id ids) all).sum =
      shareUpTo e (b + (ids.map w).sum) all - shareUpTo e b all := by
  induction ids generalizing b with
  | nil => simp
  | cons c ids ih =>
    obtain ⟨hc, hn⟩ := List.nodup_cons.1 hn
    have hhead : weightBefore w c (c :: ids) = 0 := by simp [weightBefore]
    have htail : ∀ id ∈ ids, weightBefore w id (c :: ids) = w c + weightBefore w id ids := by
      intro id hid
      have : c ≠ id := fun h => hc (h ▸ hid)
      simp [weightBefore, this]
    have hrest : (ids.map fun id => shareUpTo e (b + weightBefore w id (c :: ids) + w id) all - shareUpTo e (b + weightBefore w id (c :: ids)) all) =
        ids.map fun id => shareUpTo e (b + w c + weightBefore w id ids + w id) all - shareUpTo e (b + w c + weightBefore w id ids) all :=
      List.map_congr_left fun id hid => by rw [htail id hid, ← Nat.add_assoc]
    rw [List.map_cons, List.sum_cons, hrest, ih hn, hhead, List.map_cons, List.sum_cons, Nat.add_zero, ← Nat.add_assoc]
    have h1 := shareUpTo_mono e all (Nat.le_add_right b (w c))
    have h2 := shareUpTo_mono e all (Nat.le_add_right (b + w c) (ids.map w).sum)
    omega

/-- The share of an identifier in a rail's energy, in sums over the identifiers. -/
theorem State.railShare_eq (s : State) (rail id : Nat) :
    let w := s.railWeight rail; let all := (s.metered.map w).sum; let e := Config.railEnergy s.tick rail
    s.railShare rail id = if all = 0 then (if id = 0 then e else 0)
      else shareUpTo e (weightBefore w id s.metered + w id) all - shareUpTo e (weightBefore w id s.metered) all := by
  have ht : ((s.metered.map fun k => (k, s.railWeight rail k)).takeWhile fun p => p.1 != id).map Prod.snd =
      (s.metered.takeWhile fun k => k != id).map (s.railWeight rail) := by
    rw [List.takeWhile_map, List.map_map]; rfl
  unfold State.railShare
  simp only [← List.sum_eq_foldl_nat, ht, List.map_map]
  rfl

/-- The shares of the meters that run sum to the rail's energy (R415). -/
theorem State.sum_railShare (s : State) (rail : Nat) (hn : s.metered.Nodup) :
    (s.metered.map fun id => s.railShare rail id).sum = Config.railEnergy s.tick rail := by
  by_cases h : (s.metered.map (s.railWeight rail)).sum = 0
  · simp only [State.railShare_eq, if_pos h]
    obtain ⟨h0, -⟩ := List.nodup_cons.1 hn
    rw [State.metered, List.map_cons, List.sum_cons, if_pos rfl, List.sum_eq_zero_iff_forall_eq_nat.2 ?_, Nat.add_zero]
    intro x hx
    obtain ⟨id, hid, rfl⟩ := List.mem_map.1 hx
    exact if_neg fun e : id = 0 => h0 (e ▸ hid)
  · simp only [State.railShare_eq, if_neg h]
    have := sum_shareUpTo (Config.railEnergy s.tick rail) (s.metered.map (s.railWeight rail)).sum (s.railWeight rail) hn 0
    simp only [Nat.zero_add] at this
    rw [this, shareUpTo, shareUpTo, if_neg h, if_neg h, Nat.mul_div_cancel _ (Nat.pos_of_ne_zero h)]
    simp

theorem State.mem_metered (s : State) (l : Nat) : l ∈ s.metered ↔ l = 0 ∨ ∃ x, (l, x) ∈ s.leases ∧ x.state ≠ .none := by
  by_cases h : l = 0
  · simp [State.metered, h]
  · simp [State.metered, h]

/-! ### Meters after a measurement and a sample -/

theorem State.meter_setMeter (s : State) (n k : Nat) (m : Meter) : (s.setMeter n m).meter k = if n = k then m else s.meter k := by
  simp only [State.meter, State.setMeter_meters, Tab.get?_put]
  split <;> rfl

/-- A state without its meters and the model's counter, and no time of the last reading: what reading the monitors cannot change. -/
def State.besideMeters (s : State) : State := { s with meters := [], clock := { s.clock with tick := 0, measured := 0 } }

theorem State.measure_besideMeters (s : State) : s.measure.besideMeters = s.besideMeters := by
  unfold State.measure
  split
  · rfl
  · exact foldl_keeps State.besideMeters (f := fun t id => t.setMeter id ((s.meter id).take (s.energyOf id))) (fun _ _ _ => rfl) s
theorem State.sampleAll_besideMeters (s : State) (ids : List Nat) : (ids.foldl State.sampleMeter s).besideMeters = s.besideMeters :=
  foldl_keeps State.besideMeters (f := State.sampleMeter) (fun _ _ _ => rfl) s
theorem State.stopMeter_besideMeters (s : State) (id : Nat) : (s.stopMeter id).besideMeters = s.besideMeters :=
  s.measure_besideMeters
theorem State.stopMeters_besideMeters (s : State) : s.stopMeters.besideMeters = s.besideMeters :=
  foldl_keeps State.besideMeters (fun _ _ _ => State.stopMeter_besideMeters ..) s
theorem State.dtime_congr {s t : State} (h : t.besideMeters = s.besideMeters) : t.dtime = s.dtime :=
  (congrArg (fun u : State => u.clock.cycles / 4 % 18446744073709551616) h :)

/-- Nothing is read twice in one cycle. -/
theorem State.measure_again {s : State} (h : s.clock.measured = s.clock.cycles) : s.measure = s := by rw [State.measure, if_pos h]
/-- A reading of the monitors gives each running meter its share, and no other meter changes. -/
theorem State.meter_measure {s : State} (h : s.clock.measured ≠ s.clock.cycles) (l : Nat) :
    s.measure.meter l = if l ∈ s.metered then (s.meter l).take (s.energyOf l) else s.meter l := by
  have key : ∀ (ids : List Nat) (t : State),
      (ids.foldl (fun t id => t.setMeter id ((s.meter id).take (s.energyOf id))) t).meter l =
        if l ∈ ids then (s.meter l).take (s.energyOf l) else t.meter l := by
    intro ids
    induction ids with
    | nil => intro t; simp
    | cons id ids ih =>
      intro t
      rw [List.foldl_cons, ih, State.meter_setMeter]
      by_cases h1 : l ∈ ids
      · simp [h1]
      · by_cases h2 : id = l
        · subst h2; simp [h1]
        · simp [h1, h2, Ne.symm h2]
  rw [State.measure, if_neg h]
  exact key s.metered s

/-- Samples of distinct meters: each is sampled once, and no other meter changes (R415). -/
theorem State.meter_sampleAll {ids : List Nat} (hn : ids.Nodup) (s : State) (l : Nat) :
    (ids.foldl State.sampleMeter s).meter l = if l ∈ ids then (s.meter l).sample s.dtime else s.meter l := by
  induction ids generalizing s with
  | nil => simp
  | cons id ids ih =>
    obtain ⟨hid, hn⟩ := List.nodup_cons.1 hn
    rw [List.foldl_cons, ih hn, State.sampleMeter, State.meter_setMeter]
    by_cases h : id = l
    · subst h; simp [hid]
    · by_cases h1 : l ∈ ids
      · simp only [h1, h, if_true, if_false, List.mem_cons, or_true]; rfl
      · simp [h1, h, Ne.symm h]
theorem State.meter_sampleAll_of_not_mem {ids : List Nat} (s : State) {l : Nat} (h : l ∉ ids) :
    (ids.foldl State.sampleMeter s).meter l = s.meter l :=
  foldl_keeps (fun t => t.meter l) (fun t id hid => by
    rw [State.sampleMeter, State.meter_setMeter, if_neg]; rintro rfl; exact h hid) s
theorem State.sdtime_sampleAll {ids : List Nat} (s : State) {l : Nat} (h : l ∈ ids) :
    ((ids.foldl State.sampleMeter s).meter l).sdtime = s.dtime := by
  induction ids generalizing s with
  | nil => exact absurd h (List.not_mem_nil)
  | cons id ids ih =>
    rw [List.foldl_cons]
    by_cases h1 : l ∈ ids
    · exact ih (s.sampleMeter id) h1
    · obtain rfl : l = id := (List.mem_cons.1 h).resolve_right h1
      rw [State.meter_sampleAll_of_not_mem _ h1, State.sampleMeter, State.meter_setMeter_self]
      rfl

end Sys2Proof.Machine
end

section
/-! PROOFS. Resets, bring-up, power, trips and soft errors (O60). -/

namespace Sys2Proof.Machine

/-! ### Keys of storage that are cleared (R287, R404) -/

theorem Loc.key_dev_frame (l a : Nat) : decide ((Loc.dev l a).key % 4 < 2) = true := by simp [Loc.key]
theorem Loc.key_carve_frame (l a : Nat) : decide ((Loc.carve l a).key % 4 < 2) = true := by simp [Loc.key]
theorem Loc.key_host_frame (a : Nat) : decide ((Loc.host a).key % 4 < 2) = false := by simp [Loc.key]

theorem State.zeroFrames_mem (s : State) : s.zeroFrames.mem = s.mem.clear fun k => decide (k % 4 < 2) := rfl
/-- Device memory and carve-outs read zero once every frame has been written to zero; host memory is as it was (R404). -/
theorem State.zeroFrames_read (s : State) (l a : Nat) :
    s.zeroFrames.mem.read (Loc.dev l a).key = 0 ∧ s.zeroFrames.mem.read (Loc.carve l a).key = 0 := by
  simp only [State.zeroFrames_mem, Mem.read_clear, Loc.key_dev_frame, Loc.key_carve_frame]
  exact ⟨rfl, rfl⟩
theorem State.zeroFrames_read_host (s : State) (a : Nat) : s.zeroFrames.mem.read (Loc.host a).key = s.mem.read (Loc.host a).key := by
  simp only [State.zeroFrames_mem, Mem.read_clear, Loc.key_host_frame]
  rfl

/-! ### Resets (R400, R404) -/

theorem exec_coldPowerUp {s : State} (h : s.net.hand = some .coldPowerUp) :
    exec .coldPowerUp s = .next { (s.fresh0 s.dev.cold).zeroFrames with
      clock := { State.reset.clock with tick := s.clock.tick, nextId := s.clock.nextId, stamp := s.clock.stamp }, meters := [] } := by
  show execColdPowerUp s = _
  simp only [execColdPowerUp, h]

theorem exec_warmReset {s : State} (h : s.net.hand = some .warmReset) :
    exec .warmReset s = .next (s.stopMeters.warmMeters.fresh0 s.stopMeters.warmMeters.dev.warm) := by
  show execWarmReset s = _
  simp only [execWarmReset, h]

theorem Tab.get?_mapVal {κ α : Type} [DecidableEq κ] (f : α → α) (t : Tab κ α) (k : κ) :
    Tab.get? (Tab.mapVal f t) k = (Tab.get? t k).map f := by
  induction t with
  | nil => rfl
  | cons p t ih =>
    simp only [Tab.mapVal, List.map_cons, Tab.get?] at ih ⊢
    split
    · rfl
    · exact ih

/-- The meter of lease 0 notes a warm reset too (R418). -/
theorem State.warmMeters_warm (s : State) : (s.warmMeters.meter 0).warm = true := by
  simp [State.meter, State.warmMeters, Tab.get?_mapVal]

/-! ### Bring-up (R400, R401) -/

theorem State.stageLate_iff {s : State} :
    s.stageLate = true ↔ s.clock.stageStart + stageBound s.dev.stage * 4000000 < s.clock.cycles :=
  decide_eq_true_iff
theorem State.not_stageLate_iff {s : State} :
    s.stageLate = false ↔ s.clock.cycles ≤ s.clock.stageStart + stageBound s.dev.stage * 4000000 := by
  rw [← Bool.not_eq_true, State.stageLate_iff, Nat.not_lt]

theorem exec_bringupStageComplete {s : State} {fails : List DevFail} (h : s.net.hand = some (.bringupStageComplete fails))
    (hr : s.dev.ready = false) (he : s.dev.ember = false) (hl : s.stageLate = false) (hb : s.bootFails ++ fails = []) :
    exec .bringupStageComplete s = .next s.stageWork.nextStage := by
  show execBringupStageComplete s = _
  simp [execBringupStageComplete, h, Device.bringing, hr, he, hl, hb]
theorem exec_bringupStageComplete_failed {s : State} {fails fs : List DevFail} {f : DevFail}
    (h : s.net.hand = some (.bringupStageComplete fails)) (hr : s.dev.ready = false) (he : s.dev.ember = false) (hl : s.stageLate = false)
    (hb : s.bootFails ++ fails = f :: fs) : exec .bringupStageComplete s = .next (s.enterEmber f (fs.length + 1)) := by
  show execBringupStageComplete s = _
  simp [execBringupStageComplete, h, Device.bringing, hr, he, hl, hb]
theorem exec_bringupStageTimeout {s : State} (h : s.net.hand = some .bringupStageTimeout) (hr : s.dev.ready = false)
    (he : s.dev.ember = false) (hl : s.stageLate = true) :
    exec .bringupStageTimeout s = .next ((s.enterEmber (s.stageFinds.headD s.timeoutFail) (s.stageFinds.length + 1)).bump.bump) := by
  show execBringupStageTimeout s = _
  simp [execBringupStageTimeout, h, Device.bringing, hr, he, hl]

/-- A stage's work before the last leaves the stage, the marks of DEV_STATUS and the clock as they were; only stage 4 writes storage. -/
theorem State.stageWork_frame {s : State} (h : s.dev.stage < 6) :
    s.stageWork.dev.stage = s.dev.stage ∧ s.stageWork.dev.ready = s.dev.ready ∧ s.stageWork.dev.ember = s.dev.ember ∧
      s.stageWork.clock = s.clock ∧ (s.dev.stage ≠ 4 → s.stageWork.mem = s.mem) := by
  unfold State.stageWork
  split
  · unfold State.booted
    split <;> exact ⟨rfl, rfl, rfl, rfl, fun _ => rfl⟩
  · rename_i h4
    exact ⟨rfl, rfl, rfl, rfl, fun hn => absurd h4 hn⟩
  · omega
  · exact ⟨rfl, rfl, rfl, rfl, fun _ => rfl⟩
theorem State.stageWork_frames {s : State} (h : s.dev.stage = 4) : s.stageWork = s.zeroFrames := by
  simp only [State.stageWork, h]
theorem State.stageWork_last {s : State} (h : s.dev.stage = 6) :
    s.stageWork = { s.burnFuses with dev := { s.burnFuses.dev with ready := true } } := by
  simp only [State.stageWork, h]

theorem dieAt_le (x y : Nat) : dieAt x y ≤ 3 := by unfold dieAt; omega

/-- A stack has a number below 16 (R1). -/
theorem failUnit_stack (u : Nat) : failUnit 0x04 u / 256 / 4 ≤ 3 := by
  simp only [failUnit]; omega

/-- A failure names a die of R402. -/
theorem failDie_le (block d u : Nat) : failDie block d (failUnit block u) ≤ 9 := by
  unfold failDie
  split
  case h_1 => exact Nat.le_trans (dieAt_le ..) (by omega)
  case h_6 => exact Nat.le_trans (failUnit_stack u) (by omega)
  all_goals omega

/-- A failure that a stage finds names a block of R402, a die of it and a time within the stage; a stack's die is that of R3. -/
theorem State.failOf_spec (s : State) (f : Nat × Nat × Nat × Nat × BitVec 64 × Nat) :
    1 ≤ (s.failOf f).block ∧ (s.failOf f).block ≤ 14 ∧ (s.failOf f).die ≤ 9 ∧ (s.failOf f).dtime ≤ s.dtime ∧
      ((s.failOf f).block = 4 → (s.failOf f).die = (s.failOf f).unit / 256 / 4) := by
  refine ⟨Nat.le_add_right 1 _, ?_, failDie_le .., Nat.min_le_left .., fun h => ?_⟩
  · have := Nat.mod_lt f.2.1 (show 14 > 0 by omega)
    show 1 + f.2.1 % 14 ≤ 14
    omega
  · have hb : 1 + f.2.1 % 14 = 4 := h
    show failDie (1 + f.2.1 % 14) f.1 _ = failUnit (1 + f.2.1 % 14) _ / 256 / 4
    rw [hb]
    rfl

/-! ### Samples, power and trips (R411 to R415) -/

theorem exec_cinderSample {s : State} (h : s.net.hand = some .cinderSample) (hd : s.clock.lastSample + 4000000 ≤ s.clock.cycles) :
    exec .cinderSample s = .next { s.metered.foldl State.sampleMeter s.measure with
      clock := { (s.metered.foldl State.sampleMeter s.measure).clock with lastSample := s.clock.lastSample + 4000000 } } := by
  show execCinderSample s = _
  simp [execCinderSample, h, State.sampleDue, msCycles, hd]

theorem State.meter_sampled_of_not_mem {s : State} {l : Nat} (h : l ∉ s.metered) :
    (s.metered.foldl State.sampleMeter s.measure).meter l = s.meter l := by
  rw [State.meter_sampleAll_of_not_mem _ h]
  by_cases hc : s.clock.measured = s.clock.cycles
  · rw [State.measure_again hc]
  · rw [State.meter_measure hc, if_neg h]
theorem State.meter_sampled {s : State} {l : Nat} (hn : s.metered.Nodup) (h : l ∈ s.metered) :
    (s.metered.foldl State.sampleMeter s.measure).meter l = (s.measure.meter l).sample s.dtime := by
  rw [State.meter_sampleAll hn, if_pos h, State.dtime_congr s.measure_besideMeters]

theorem exec_powerPacingTick {s : State} (h : s.net.hand = some .powerPacingTick) (hd : s.dev.lastPace + 4000000 ≤ s.clock.cycles) :
    exec .powerPacingTick s = .next { s with dev := { s.dev with
      pace := nextPace (Config.power s.dev.cap s.tick).1 (Config.power s.dev.cap s.tick).2 (Config.hot s.tick) s.dev.pace,
      lastPace := s.dev.lastPace + 4000000 } }.bump := by
  show execPowerPacingTick s = _
  simp [execPowerPacingTick, h, State.paceDue, msCycles, hd]
/-- The pacing level stays, falls by one or rises by one, to 7 at most (R412). -/
theorem nextPace_cases (above below hot : Bool) (p : Nat) :
    nextPace above below hot p = p ∨ nextPace above below hot p = p - 1 ∨ nextPace above below hot p = min 7 (p + 1) := by
  unfold nextPace
  split
  · exact .inr (.inr rfl)
  · split
    · exact .inr (.inl rfl)
    · exact .inl rfl

theorem exec_junctionTrip {s : State} {die unit : Nat} (h : s.net.hand = some (.junctionTrip die unit)) :
    exec .junctionTrip s = .next (s.tripped die unit) := by
  show execJunctionTrip s = _
  simp only [execJunctionTrip, h]
theorem exec_coolantFlowLow {s : State} (h : s.net.hand = some .coolantFlowLow) : exec .coolantFlowLow s = .next (s.tripped 9 0) := by
  show execCoolantFlowLow s = _
  simp only [execCoolantFlowLow, h]
/-- A trip leaves Ember with TRIP, and its failure names the die and the unit that tripped (R413). -/
theorem State.tripped_spec (s : State) (die unit : Nat) : (s.tripped die unit).dev.ember = true ∧ (s.tripped die unit).dev.trip = true ∧
    ∃ f, (s.tripped die unit).dev.fail = some f ∧ f.die = die ∧ f.block = 0x0E ∧ f.unit = unit ∧ f.dtime = s.dtime :=
  ⟨rfl, rfl, _, rfl, rfl, rfl, rfl, rfl⟩

/-! ### Soft errors (R423, R424) -/

section
variable {s : State}

theorem exec_softErrorDetected {p : SoftWhere} (h : s.net.hand = some (.softErrorDetected p true)) :
    exec .softErrorDetected s = .next (s.countSoft (s.softOwner p) true) := by
  show execSoftErrorDetected s = _
  simp [execSoftErrorDetected, h]
theorem exec_softErrorDetected_uncorrected {p : SoftWhere} (h : s.net.hand = some (.softErrorDetected p false)) :
    exec .softErrorDetected s = .next ((s.countSoft (s.softOwner p) false).softUncorrected p) := by
  show execSoftErrorDetected s = _
  simp [execSoftErrorDetected, h]

/-- Counting a soft error changes DEV_ERR and the owner's ERRCNT alone. -/
theorem State.countSoft_corrected (owner : Nat) : s.countSoft owner true = ({ s with dev := { s.dev with
    ce := min (2 ^ 32 - 1) (s.dev.ce + 1) } } : State).modLease owner fun l => { l with errCe := min 65535 (l.errCe + 1) } := by
  simp [State.countSoft]
theorem State.countSoft_free : s.countSoft 0 false = { s with dev := { s.dev with ue := min (2 ^ 32 - 1) (s.dev.ue + 1) } } := by
  simp [State.countSoft]
theorem State.countSoft_uncorrected {owner : Nat} (h : 0 < owner) : s.countSoft owner false = ({ s with dev := { s.dev with
    ue := min (2 ^ 32 - 1) (s.dev.ue + 1) } } : State).modLease owner fun l => { l with errUe := min 65535 (l.errUe + 1) } := by
  simp [State.countSoft, Nat.ne_of_gt h]
theorem State.countSoft_dev (owner : Nat) : (s.countSoft owner false).dev = { s.dev with ue := min (2 ^ 32 - 1) (s.dev.ue + 1) } := by
  unfold State.countSoft
  dsimp only
  split <;> rfl

theorem State.softOwner_pad {c : CellId} {r : Rect} (h : s.rect? c.slot = some r) : s.softOwner (.pad c) = r.lease := by
  simp [State.softOwner, h]

/-- An uncorrectable error in a line marks it: what reads the line meets it (R193, R423). -/
theorem State.softUncorrected_line (lease addr : Nat) :
    (s.softUncorrected (.line lease addr)).dev = s.dev ∧
      ((Loc.dev lease addr).align 128) ∈ (s.softUncorrected (.line lease addr)).homes.bad := by
  refine ⟨State.postRecord_dev .., ?_⟩
  simp only [State.softUncorrected]
  split
  · rename_i h
    exact List.contains_iff_mem.1 h
  · exact List.mem_append_right _ List.mem_cons_self
theorem State.damaged_line {lease addr : Nat} (h : ((Loc.dev lease addr).align 128) ∈ s.homes.bad) :
    s.damaged (.dev lease (addr / 128 * 128)) 128 = true := by
  refine List.any_eq_true.2 ⟨_, h, ?_⟩
  have : addr - addr % 128 = addr / 128 * 128 := by omega
  simp [Loc.align, Loc.sameSpace, meets, Loc.addr, this]

/-- An uncorrectable error in a scratchpad sends the fault that freezes its rectangle, and a record (R423). -/
theorem State.softUncorrected_pad {c : CellId} {r : Rect} (h : s.rect? c.slot = some r) :
    (s.softUncorrected (.pad c)).dev = s.dev ∧ (∀ k, ((s.softUncorrected (.pad c)).lease k).errUe = (s.lease k).errUe) ∧
      ∃ f, .faultEvent c.slot f ∈ (s.softUncorrected (.pad c)).sent ∧ f.who = some ⟨c.slot, c.col, c.row, 0⟩ := by
  simp only [State.softUncorrected, State.softFreeze, h]
  exact ⟨State.postRecord_dev .., fun k => State.postRecord_errUe .., _,
    List.mem_map.2 ⟨_, List.mem_append_right _ List.mem_cons_self, rfl⟩, rfl⟩
end

end Sys2Proof.Machine
end

section
namespace Sys2Proof.Proofs
open Sys2Proof Sys2Proof.Machine

/-- Settles O60: clause by clause from what each event's meaning answers; the parts that are more than a reading of fields are
the division of a rail's energy, which telescopes over the running meters, and the frame of a posted record. -/
theorem resetsBringUpPowerAndErrorsTakeEffect : Obligations.ResetsBringUpPowerAndErrorsTakeEffect := by
  intro s
  refine ⟨fun hh => ?cold, fun hh => ?warm, fun fails hh hr he hl =>
      ⟨fun hb hf => ⟨fun h6 => ?stage, fun h6 => ?last⟩, fun f fs hb => ?failed⟩,
    fun hh hr he hl => ?late, fun f hf => ?finds, fun hh hd => ?sample, s.mem_metered, fun l => ?energy, fun rail hn => ?rail,
    fun hh hd => ?pace, fun die unit hh => .of_next (exec_junctionTrip hh) (s.tripped_spec die unit),
    fun hh => .of_next (exec_coolantFlowLow hh) (s.tripped_spec 9 0), fun hh => ?corrected, fun c r hh hc hp => ?padCorrected,
    fun lease addr hh => ?line, fun c r hh hc hp => ?pad, fun hh => ?free⟩
  case cold =>
    exact .of_next (exec_coldPowerUp hh) ⟨by show 0 / 4 % 18446744073709551616 = 0; rfl, rfl, rfl, rfl, rfl, rfl, rfl,
      (s.fresh0 s.dev.cold).zeroFrames_read,
      (s.fresh0 s.dev.cold).zeroFrames_read_host⟩
  case warm =>
    have hf := s.stopMeters_besideMeters
    refine .of_next (exec_warmReset hh) ⟨(show _ = State.dtime s.stopMeters from rfl).trans (State.dtime_congr hf),
      (congrArg State.mem hf :), rfl, rfl, rfl, rfl, ?_, ?_, ?_, State.warmMeters_warm _⟩
    · exact (congrArg (fun t : State => t.dev.banks) hf :)
    · exact (congrArg (fun t : State => t.dev.fused) hf :)
    · exact (congrArg (fun t : State => t.dev.leaf) hf :)
  case stage =>
    obtain ⟨hst, hrd, hem, hck, hm⟩ := s.stageWork_frame h6
    refine .of_next (exec_bringupStageComplete hh hr he (State.not_stageLate_iff.2 hl) (by rw [hb, hf]; rfl)) ?_
    rw [State.nextStage, if_pos (by rw [hst]; exact h6)]
    refine ⟨congrArg (· + 1) hst, hrd.trans hr, hem.trans he, congrArg Clock.cycles hck, hm, fun h4 => ?_⟩
    rw [State.stageWork_frames h4]
    exact s.zeroFrames_read
  case last =>
    refine .of_next (exec_bringupStageComplete hh hr he (State.not_stageLate_iff.2 hl) (by rw [hb, hf]; rfl)) ?_
    rw [State.stageWork_last h6, State.nextStage, if_neg (by show ¬s.dev.stage < 6; omega)]
    exact ⟨h6, rfl, rfl⟩
  case failed => exact .of_next (exec_bringupStageComplete_failed hh hr he (State.not_stageLate_iff.2 hl) hb) rfl
  case late =>
    refine .of_next (exec_bringupStageTimeout hh hr he (State.stageLate_iff.2 hl))
      ⟨rfl, rfl, rfl, fun g gs hg => ?_, fun hn => ⟨s.timeoutFail, ?_, rfl, rfl, rfl⟩⟩
    · show some (s.stageFinds.headD _) = _
      rw [hg]; rfl
    · show some (s.stageFinds.headD _) = _
      rw [hn]; rfl
  case finds =>
    obtain ⟨g, -, rfl⟩ := List.mem_map.1 hf
    exact s.failOf_spec g
  case sample =>
    have hm := s.measure_besideMeters
    have hf := (s.measure.sampleAll_besideMeters s.metered).trans hm
    refine .of_next (exec_cinderSample hh hd)
      ⟨(congrArg State.mem hf :), (congrArg State.leases hf :), rfl, ?_, fun l hl => ?_, fun hn l hl => ⟨fun hc => ?_, fun hc => ?_⟩⟩
    · exact (State.sdtime_sampleAll _ ((s.mem_metered 0).2 (.inl rfl))).trans (State.dtime_congr hm)
    · exact State.meter_sampled_of_not_mem hl
    · exact (State.meter_sampled hn hl).trans (by rw [State.meter_measure hc, if_pos hl]; rfl)
    · exact (State.meter_sampled hn hl).trans (by rw [State.measure_again hc]; rfl)
  case energy => exact List.sum_eq_foldl_nat.symm
  case rail => exact List.sum_eq_foldl_nat.symm.trans (s.sum_railShare rail hn)
  case pace => exact .of_next (exec_powerPacingTick hh hd) ⟨rfl, rfl, nextPace_cases ..⟩
  case corrected =>
    refine .of_next (exec_softErrorDetected hh) ?_
    rw [State.countSoft_corrected]
    exact ⟨rfl, rfl⟩
  case padCorrected =>
    refine .of_next (exec_softErrorDetected hh) ?_
    rw [State.softOwner_pad hc, State.countSoft_corrected]
    exact ⟨rfl, rfl, congrArg Lease.errCe (State.lease_modLease_self ..), rfl⟩
  case line =>
    obtain ⟨hdev, hbad⟩ := (s.countSoft (s.softOwner (.line lease addr)) false).softUncorrected_line lease addr
    exact .of_next (exec_softErrorDetected_uncorrected hh) ⟨hdev.trans (State.countSoft_dev _), hbad, State.damaged_line hbad⟩
  case pad =>
    refine .of_next (exec_softErrorDetected_uncorrected hh) ?_
    rw [State.softOwner_pad hc, State.countSoft_uncorrected hp]
    obtain ⟨hdev, hue, hf⟩ := State.softUncorrected_pad (s := ({ s with dev := { s.dev with
      ue := min (2 ^ 32 - 1) (s.dev.ue + 1) } } : State).modLease r.lease fun l => { l with errUe := min 65535 (l.errUe + 1) }) hc
    exact ⟨hdev, (hue r.lease).trans (congrArg Lease.errUe (State.lease_modLease_self ..)), hf⟩
  case free =>
    refine .of_next (exec_softErrorDetected_uncorrected hh) ?_
    exact State.countSoft_free

end Sys2Proof.Proofs
end

section
/-! PROOFS. Lease commands and the device's registers (O59): a command's result, the places of a lease's storage, the rectangle that passes to EMPTY,
the row halves that are returned, and the register blocks. -/

namespace Sys2Proof.Machine

/-! ### Commands (R376, R377) -/

section
variable {s : State} {lease op : Nat}

theorem State.cmdDone_lease (s : State) (lease result : Nat) :
    (s.cmdDone lease result).lease lease = { s.lease lease with cmdGo := false, cmdResult := BitVec.ofNat 8 result } :=
  State.lease_modLease_self ..
/-- A command that is done leaves GO clear and its result. -/
theorem State.cmdDone_spec (s : State) (lease : Nat) {result : Nat} (h : result < 256) :
    ((s.cmdDone lease result).lease lease).cmdGo = false ∧ ((s.cmdDone lease result).lease lease).cmdResult.toNat = result := by
  rw [State.cmdDone_lease]
  exact ⟨rfl, Nat.mod_eq_of_lt h⟩

theorem State.lease_bump (s : State) (k : Nat) : s.bump.lease k = s.lease k := rfl
theorem State.sent_post (s : State) (cls : Nat) (ev : Event) : (s.post cls ev).sent = s.sent ++ [ev] := by
  simp [State.sent, State.post, State.postIn, State.bump]

theorem State.commands_iff : s.commands lease op = true ↔ (s.lease lease).cmdGo = true ∧ (s.lease lease).cmdOp.toNat = op := by
  simp [State.commands]
/-- A command of a lease that is not LIVE is refused (R377). -/
theorem State.command_refused (hg : (s.lease lease).cmdGo = true ∧ (s.lease lease).cmdOp.toNat = op) (hl : (s.lease lease).state ≠ .live)
    (body : State) : s.command lease op body = .next (s.cmdDone lease resState) := by
  simp [State.command, State.commands_iff.2 hg, State.isLive, hl]
theorem State.command_live (hg : (s.lease lease).cmdGo = true ∧ (s.lease lease).cmdOp.toNat = op) (hl : (s.lease lease).state = .live)
    (body : State) : s.command lease op body = .next body := by
  simp [State.command, State.commands_iff.2 hg, State.isLive, hl]
/-- A command of a LIVE lease completes with whatever holds of its body. -/
theorem Completes.of_command {i : Instr} {body t : State} {P : State → Prop} (h : exec i s = s.command lease op body)
    (hg : (s.lease lease).cmdGo = true ∧ (s.lease lease).cmdOp.toNat = op) (hl : (s.lease lease).state = .live) (hb : body = t) (hP : P t) :
    Completes i s P :=
  .of_next (h.trans ((State.command_live hg hl body).trans (congrArg _ hb))) hP

/-- The rectangle that LEASE_ARG names stands in its slot. -/
theorem State.rect?_of_argRect {n : Nat} {r : Rect} (h : s.argRect lease = some (n, r)) : s.rect? n = some r := by
  simp only [State.argRect, Option.bind_eq_some_iff, Option.map_eq_some_iff, Option.filter_eq_some_iff, Prod.mk.injEq] at h
  obtain ⟨m, -, q, ⟨hq, -⟩, rfl, rfl⟩ := h
  exact hq
end

/-! ### The storage of a lease (R378, R379) -/

theorem leaseKey_dev (lease o a : Nat) : leaseKey lease (Loc.dev o a).key = (o % 256 == lease % 256) := by
  have h1 : 4 * (a * 256 + o % 256) % 4 = 0 := by omega
  have h2 : 4 * (a * 256 + o % 256) / 4 % 256 = o % 256 := by omega
  simp only [leaseKey, Loc.key, h1, h2]
  rfl
theorem leaseKey_carve (lease o a : Nat) : leaseKey lease (Loc.carve o a).key = (o % 256 == lease % 256) := by
  have h1 : (4 * (a * 256 + o % 256) + 1) % 4 = 1 := by omega
  have h2 : (4 * (a * 256 + o % 256) + 1) / 4 % 256 = o % 256 := by omega
  simp only [leaseKey, Loc.key, h1, h2]
  rfl
theorem State.wipe_mem (s : State) (lease : Nat) : (s.wipe lease).mem = s.mem.clear (leaseKey lease) := rfl
/-- A wiped lease's device memory and carve-out read zero; no other lease's device memory changes. -/
theorem State.wipe_read (s : State) (lease a : Nat) :
    (s.wipe lease).mem.read (Loc.dev lease a).key = 0 ∧ (s.wipe lease).mem.read (Loc.carve lease a).key = 0 := by
  simp only [State.wipe_mem, Mem.read_clear, leaseKey_dev, leaseKey_carve, beq_self_eq_true]
  exact ⟨rfl, rfl⟩
theorem State.wipe_read_other (s : State) {lease o : Nat} (h : o % 256 ≠ lease % 256) (a : Nat) :
    (s.wipe lease).mem.read (Loc.dev o a).key = s.mem.read (Loc.dev o a).key := by
  rw [State.wipe_mem, Mem.read_clear, leaseKey_dev, if_neg (by simpa using h)]

/-! ### CREATE and DESTROY (R378, R379) -/

section
variable {s : State} {lease : Nat}

theorem exec_leaseCreate (hh : s.net.hand = some (.leaseCreate lease)) (hg : (s.lease lease).cmdGo = true ∧ (s.lease lease).cmdOp.toNat = 1) :
    exec .leaseCreate s =
      if (s.lease lease).state ≠ .none ∨ !s.dev.ready ∨ s.ember then .next (s.cmdDone lease resState)
      else if s.createLacks lease then .next (s.cmdDone lease resLacking)
      else .next (s.create lease) := by
  show execLeaseCreate s = _
  simp [execLeaseCreate, hh, State.commands_iff.2 hg]

theorem State.create_lease (s : State) (lease : Nat) :
    (s.create lease).lease lease = { (s.lease lease).created with cmdGo := false, cmdResult := 0 } := by
  rw [State.create, State.cmdDone_lease]
  show ({ ((s.wipe lease).modLease lease Lease.created).lease lease with cmdGo := false, cmdResult := _ } : Lease) = _
  rw [State.lease_modLease_self]
  rfl
theorem State.create_meter (s : State) (lease : Nat) : (s.create lease).meter lease = (s.meter lease).created s.dtime :=
  State.meter_setMeter_self ..

theorem exec_leaseDestroy_none (hh : s.net.hand = some (.leaseDestroy lease))
    (hg : (s.lease lease).cmdGo = true ∧ (s.lease lease).cmdOp.toNat = 2) (hl : (s.lease lease).state = .none) :
    exec .leaseDestroy s = .next (s.cmdDone lease resState) := by
  show execLeaseDestroy s = _
  simp [execLeaseDestroy, hh, State.commands_iff.2 hg, hl]
theorem exec_leaseDestroy_live (hh : s.net.hand = some (.leaseDestroy lease))
    (hg : (s.lease lease).cmdGo = true ∧ (s.lease lease).cmdOp.toNat = 2) (hl : (s.lease lease).state = .live) :
    exec .leaseDestroy s = .next (s.beginEnd lease) := by
  show execLeaseDestroy s = _
  simp [execLeaseDestroy, hh, State.commands_iff.2 hg, hl]
theorem exec_leaseDestroy_ending (hh : s.net.hand = some (.leaseDestroy lease))
    (hg : (s.lease lease).cmdGo = true ∧ (s.lease lease).cmdOp.toNat = 2) (hl : (s.lease lease).state = .ending) (hd : s.endDue lease = true) :
    exec .leaseDestroy s = .next (s.finishEnd lease) := by
  show execLeaseDestroy s = _
  simp [execLeaseDestroy, hh, State.commands_iff.2 hg, hl, hd]
end

/-- A lease block in which a row half waits for no page. -/
def Lease.unwait (row : Nat) (l : Lease) : Lease :=
  { l with svcs := l.svcs.map fun v => { v with waiters := v.waiters.filter fun e => e != .rowHalfKstep row } }
theorem State.unwaitRow_eq (s : State) (row : Nat) : s.unwaitRow row = { s with leases := Tab.mapVal (Lease.unwait row) s.leases } := rfl
theorem State.unwaitRow_state (s : State) (row k : Nat) : ((s.unwaitRow row).lease k).state = (s.lease k).state := by
  simp only [State.lease, State.unwaitRow_eq, Tab.get?_mapVal]
  cases Tab.get? s.leases k <;> rfl
theorem State.dropRows_state (s : State) (lease k : Nat) : ((s.dropRows lease).lease k).state = (s.lease k).state :=
  foldl_keeps (f := fun t n => (t.unwaitRow n).setRow n (RowHalf.idle 0)) (fun t => (t.lease k).state)
    (fun t n _ => State.unwaitRow_state t n k) s
theorem State.dropRows_mem (s : State) (lease : Nat) : (s.dropRows lease).mem = s.mem :=
  foldl_keeps (f := fun t n => (t.unwaitRow n).setRow n (RowHalf.idle 0)) State.mem (fun _ _ _ => rfl) s
theorem State.resend_lease (s : State) (evs : List Event) (k : Nat) : (s.resend evs).lease k = s.lease k := rfl
theorem State.releaseWaits_state (s : State) (lease : Nat) : ((s.releaseWaits lease).lease lease).state = (s.lease lease).state := by
  simp only [State.releaseWaits, State.resend_lease, State.lease_modLease_self]

/-- The first steps of DESTROY for a lease that runs nothing (R379). -/
theorem State.beginEnd_spec {s : State} {lease : Nat} (hr : s.rectsOf lease = []) (ht : (s.lease lease).tasks = []) :
    ((s.beginEnd lease).lease lease).state = .ending ∧ .leaseDestroy lease ∈ (s.beginEnd lease).sent ∧ (s.beginEnd lease).mem = s.mem := by
  have hf : (s.modLease lease fun l => { l with state := .ending }).freeAll lease = s.modLease lease fun l => { l with state := .ending } := by
    rw [State.freeAll, show State.rectsOf (s.modLease ..) lease = [] from hr]; rfl
  have he : (s.modLease lease fun l => { l with state := .ending }).endTasks lease = s.modLease lease fun l => { l with state := .ending } := by
    rw [State.endTasks, State.lease_modLease_self, show ({ s.lease lease with state := .ending } : Lease).tasks = [] from ht]; rfl
  rw [State.beginEnd, hf, he]
  refine ⟨?_, List.mem_map.2 ⟨_, List.mem_append_right _ List.mem_cons_self, rfl⟩, (State.dropRows_mem ..).trans rfl⟩
  refine (State.releaseWaits_state ..).trans ((State.dropRows_state ..).trans ?_)
  rw [State.lease_modLease_self]

/-- The end of a lease leaves it NONE, its device memory and its carve-out zero (R379). -/
theorem State.finishEnd_spec (s : State) (lease : Nat) :
    ((s.finishEnd lease).lease lease).state = .none ∧
      ∀ a, (s.finishEnd lease).mem.read (Loc.dev lease a).key = 0 ∧ (s.finishEnd lease).mem.read (Loc.carve lease a).key = 0 := by
  refine ⟨?_, fun a => (s.stopMeter lease).wipe_read lease a⟩
  rw [State.finishEnd, State.cmdDone_lease]
  show (((s.stopMeter lease).dropLease lease).lease lease).state = .none
  rw [State.dropLease, State.lease_modLease_self]
  rfl

/-! ### A rectangle passes to EMPTY (R17, R48) -/

theorem State.postAll_rects (s : State) (cls : Nat) (evs : List Event) : (s.postAll cls evs).rects = s.rects :=
  foldl_keeps (f := fun t ev => t.post cls ev) State.rects (fun _ _ _ => rfl) s

theorem State.emptySlot_spec {s : State} {n : Nat} {r : Rect} (h : s.rect? n = some r) :
    (s.emptySlot n).rect? n = none ∧ ((s.emptySlot n).slot n).gen = ((s.slot n).gen + 1) % 256 ∧ (s.emptySlot n).mem = s.mem := by
  have hs : ∃ ps, (s.emptySlot n).slot n = { gen := ((s.slot n).gen + 1) % 256, purges := ps, rect := none } := by
    simp only [State.emptySlot, h, State.slot, State.postAll_rects, State.modLease_rects, Tab.get?_put_self]
    exact ⟨_, rfl⟩
  obtain ⟨ps, hs⟩ := hs
  refine ⟨congrArg Slot.rect hs, congrArg Slot.gen hs, ?_⟩
  simp only [State.emptySlot, h, (State.postAll_frame ..).1, State.modLease_mem]
  exact foldl_keeps (f := State.unwaitRow) State.mem (fun _ _ _ => rfl) s

/-- A rectangle without parent and children that has its outcome is freed by passing to EMPTY (R48). -/
theorem State.freeRect_childless {s : State} {n : Nat} {r : Rect} (h : s.rect? n = some r) (hp : r.parent = none) (hc : r.children = [])
    (ho : r.outcome.isSome = true) : s.freeRect n = s.emptySlot n := by
  have hre : s.reportEnd n 0 = s := by simp [State.reportEnd, h, ho]
  have hte : s.toEmpty n = s.emptySlot n := by simp [State.toEmpty, State.release, h, hc]
  rw [State.freeRect, hre, hte, h, Option.bind_some, hp]
  rfl

/-- A reel's place lies in the RESV frames (R395). -/
theorem State.reelPlace_bounds {s : State} {lease slot n a : Nat} (h : s.reelPlace lease slot n = some a) :
    (s.lease lease).bytes ≤ a ∧ a + n ≤ (s.lease lease).bytes + (s.lease lease).resvBytes := by
  unfold State.reelPlace at h
  dsimp only at h
  split at h
  · cases h
  · have := List.find?_some h
    simp only [Lease.reelAt, Bool.and_eq_true, decide_eq_true_eq] at this
    exact this.1

end Sys2Proof.Machine
end

section
/-! PROOFS. What the commands of LEASE_CMD and the register writes of the host answer (O59), event by event. -/

namespace Sys2Proof.Machine

section
variable {s : State} {lease : Nat}

/-! ### Row halves and rectangles (R377) -/

theorem exec_grantRow (hh : s.net.hand = some (.grantRow lease)) : exec .grantRow s = s.command lease 0x03
    (if (s.row (s.argRow lease)).lease ≠ 0 ∧ (s.row (s.argRow lease)).lease ≠ lease then s.cmdDone lease resLacking
     else (s.setRow (s.argRow lease) { s.row (s.argRow lease) with lease := lease }).cmdDone lease resDone) := by
  show execGrantRow s = _
  simp only [execGrantRow, hh]
theorem exec_revokeRow (hh : s.net.hand = some (.revokeRow lease)) : exec .revokeRow s = s.command lease 0x04
    (if (s.row (s.argRow lease)).lease ≠ lease then s.cmdDone lease resState
     else if (s.row (s.argRow lease)).bound.isSome || s.isReserved .mat (s.argRow lease) then s.cmdDone lease resBusy
     else (s.dropRow lease (s.argRow lease)).cmdDone lease resDone) := by
  show execRevokeRow s = _
  simp only [execRevokeRow, hh]

theorem State.rowBusy_iff {n : Nat} : ((s.row n).bound.isSome || s.isReserved .mat n) = true ↔
    (s.row n).bound ≠ none ∨ s.isReserved .mat n = true := by
  simp [Option.isSome_iff_ne_none]
theorem State.dropRow_row (s : State) (lease n : Nat) : (s.dropRow lease n).row n = RowHalf.idle 0 := State.row_setRow_self ..

/-! A command of a lease that is not LIVE is refused, whatever its handle names. -/

section
variable (hl : (s.lease lease).state ≠ .live)
include hl

theorem exec_preempt_dead (hh : s.net.hand = some (.preempt lease)) (hg : (s.lease lease).cmdGo = true ∧ (s.lease lease).cmdOp.toNat = 0x05) :
    exec .preempt s = .next (s.cmdDone lease resState) := by
  show execPreempt s = _
  simp only [execPreempt, hh, State.command_refused hg hl]
theorem exec_restore_dead (hh : s.net.hand = some (.restore lease)) (hg : (s.lease lease).cmdGo = true ∧ (s.lease lease).cmdOp.toNat = 0x06) :
    exec .restore s = .next (s.cmdDone lease resState) := by
  show execRestore s = _
  simp only [execRestore, hh, State.command_refused hg hl]
theorem exec_leaseFree_dead (hh : s.net.hand = some (.leaseFree lease)) (hg : (s.lease lease).cmdGo = true ∧ (s.lease lease).cmdOp.toNat = 0x07) :
    exec .leaseFree s = .next (s.cmdDone lease resState) := by
  show execLeaseFree s = _
  simp only [execLeaseFree, hh, State.command_refused hg hl]
theorem exec_dump_dead (hh : s.net.hand = some (.dump lease)) (hg : (s.lease lease).cmdGo = true ∧ (s.lease lease).cmdOp.toNat = 0x08) :
    exec .dump s = .next (s.cmdDone lease resState) := by
  show execDump s = _
  simp only [execDump, hh, State.command_refused hg hl]
end

/-! A command whose handle names no rectangle of the lease is refused; the others go by the rectangle's state. -/

section
variable (ha : s.argRect lease = none)
include ha

theorem exec_preempt_none (hh : s.net.hand = some (.preempt lease)) :
    exec .preempt s = s.command lease 0x05 (s.cmdDone lease resState) := by
  show execPreempt s = _
  simp only [execPreempt, hh, ha]
theorem exec_restore_none (hh : s.net.hand = some (.restore lease)) :
    exec .restore s = s.command lease 0x06 (s.cmdDone lease resState) := by
  show execRestore s = _
  simp only [execRestore, hh, ha]
theorem exec_leaseFree_none (hh : s.net.hand = some (.leaseFree lease)) :
    exec .leaseFree s = s.command lease 0x07 (s.cmdDone lease resState) := by
  show execLeaseFree s = _
  simp only [execLeaseFree, hh, ha]
theorem exec_dump_none (hh : s.net.hand = some (.dump lease)) : exec .dump s = s.command lease 0x08 (s.cmdDone lease resState) := by
  show execDump s = _
  simp only [execDump, hh, ha]
end

section
variable {n : Nat} {r : Rect} (ha : s.argRect lease = some (n, r))
include ha

theorem exec_preempt (hh : s.net.hand = some (.preempt lease)) : exec .preempt s = s.command lease 0x05
    (if r.state = .armed ∨ r.state = .running then (s.post 3 (.cutRequest n .preempt)).cmdDone lease resDone else s.cmdDone lease resState) := by
  show execPreempt s = _
  simp only [execPreempt, hh, ha]
theorem exec_restore_refused (hh : s.net.hand = some (.restore lease)) (hr : r.state ≠ .saved) :
    exec .restore s = s.command lease 0x06 (s.cmdDone lease resState) := by
  show execRestore s = _
  simp only [execRestore, hh, ha, if_pos hr]
theorem exec_restore {t : State} (hh : s.net.hand = some (.restore lease)) (hr : r.state = .saved) (ht : s.restoreRect n = some t) :
    exec .restore s = s.command lease 0x06 (t.cmdDone lease resDone) := by
  show execRestore s = _
  simp only [execRestore, hh, ha, if_neg (not_not_intro hr), ht]
theorem exec_leaseFree (hh : s.net.hand = some (.leaseFree lease)) :
    exec .leaseFree s = s.command lease 0x07 ((s.freeRect n).cmdDone lease resDone) := by
  show execLeaseFree s = _
  simp only [execLeaseFree, hh, ha]
theorem exec_dump (hh : s.net.hand = some (.dump lease)) :
    exec .dump s = s.command lease 0x08 (if r.state = .frozen then s.dumpRect lease n r else s.cmdDone lease resState) := by
  show execDump s = _
  simp only [execDump, hh, ha]
end

/-- DUMP stores the reel at the place that it finds and gives the place back in LEASE_ARG, or lacks room (R395). The function is unfolded before it
meets its arguments: the kernel would else evaluate the reel's bytes to compare the two sides. -/
theorem State.dumpRect_eq {slot : Nat} {r : Rect} {bs : List Byte}
    (hb : reelBytes s.tick (s.handleOf slot) (r.stoppedAt / 4) 2 r.stopCounts r = bs) : ∀ f, State.dumpRect = f →
      (∀ a, s.reelPlace lease slot bs.length = some a → f s lease slot r =
        ((((s.setRect slot { r with reel := some ⟨2, a, bs.length, none⟩ }).store (.dev lease a) bs).modLease lease fun l =>
          { l with arg := BitVec.ofNat 64 a }).bump).cmdDone lease resDone) ∧
      (s.reelPlace lease slot bs.length = none → f s lease slot r = s.cmdDone lease resLacking) := by
  intro f hf
  delta State.dumpRect at hf
  subst hf
  dsimp only
  rw [hb]
  exact ⟨fun a hp => by rw [hp], fun hp => by rw [hp]⟩
theorem State.dumpRect_placed {slot a : Nat} {r : Rect} {bs : List Byte}
    (hb : reelBytes s.tick (s.handleOf slot) (r.stoppedAt / 4) 2 r.stopCounts r = bs) (hp : s.reelPlace lease slot bs.length = some a) :
    ((s.dumpRect lease slot r).lease lease).cmdGo = false ∧ ((s.dumpRect lease slot r).lease lease).cmdResult.toNat = 0 ∧
      (s.dumpRect lease slot r).mem = (s.store (.dev lease a) bs).mem ∧
      ((s.dumpRect lease slot r).lease lease).arg = BitVec.ofNat 64 a := by
  rw [(State.dumpRect_eq hb _ rfl).1 a hp]
  simp only [State.cmdDone_lease, State.lease_bump, State.lease_modLease_self]
  exact ⟨trivial, rfl, rfl, trivial⟩
theorem State.dumpRect_lacking {slot : Nat} {r : Rect} {bs : List Byte}
    (hb : reelBytes s.tick (s.handleOf slot) (r.stoppedAt / 4) 2 r.stopCounts r = bs) (hp : s.reelPlace lease slot bs.length = none) :
    s.dumpRect lease slot r = s.cmdDone lease resLacking :=
  (State.dumpRect_eq hb _ rfl).2 hp

/-! ### LEASE_SCHED, LEASE_PT and DEV_PWR (R338, R371, R376, R411) -/

theorem isTenant_of (h0 : 0 < lease) (h1 : lease < 256) : isTenant lease = true := by simp [isTenant, h0, h1]

theorem exec_leaseSchedWrite {v : BitVec 64} (h : isTenant lease = true) (hh : s.net.hand = some (.leaseSchedWrite lease v)) :
    exec .leaseSchedWrite s = .next (s.schedWrite lease v) := by
  show execLeaseSchedWrite s = _
  simp only [execLeaseSchedWrite, hh, h, if_true]
theorem State.schedWrite_refused {v : BitVec 64} (h : s.schedRefused lease v = true) : s.schedWrite lease v = s := by
  rw [State.schedWrite, if_pos h]
/-- LEASE_SCHED with SUSP already set, or not set by the write, cuts nothing. -/
theorem State.schedWrite_quiet {v : BitVec 64} (h : s.schedRefused lease v = false)
    (hv : v.getLsbD 63 = false ∨ (s.lease lease).sched.getLsbD 63 = true) :
    s.schedWrite lease v = s.modLease lease fun l => { l with sched := v &&& schedMask } := by
  rw [State.schedWrite, if_neg (by simp [h])]
  refine if_neg ?_
  rcases hv with hv | hv
  · rw [hv, Bool.false_and]; exact Bool.false_ne_true
  · rw [hv, Bool.not_true, Bool.and_false]; exact Bool.false_ne_true
/-- Setting SUSP cuts the lease's ARMED and RUNNING rectangles (R371). -/
theorem State.schedWrite_suspends {v : BitVec 64} (h : s.schedRefused lease v = false) (hv : v.getLsbD 63 = true)
    (hs : (s.lease lease).sched.getLsbD 63 = false) :
    s.schedWrite lease v = (s.modLease lease fun l => { l with sched := v &&& schedMask }).suspendRects lease := by
  rw [State.schedWrite, if_neg (by simp [h])]
  exact if_pos (by simp only [hv, hs]; rfl)
/-- An accepted value is in LEASE_SCHED but for its reserved bits, and nothing is stored. -/
theorem State.schedWrite_spec {v : BitVec 64} (h : s.schedRefused lease v = false) :
    (s.schedWrite lease v).mem = s.mem ∧ ((s.schedWrite lease v).lease lease).sched = v &&& schedMask := by
  have hm : ((s.modLease lease fun l => { l with sched := v &&& schedMask }).lease lease).sched = v &&& schedMask := by
    rw [State.lease_modLease_self]
  by_cases hv : v.getLsbD 63 = false ∨ (s.lease lease).sched.getLsbD 63 = true
  · rw [State.schedWrite_quiet h hv]
    exact ⟨rfl, hm⟩
  · rw [not_or, Bool.not_eq_false, Bool.not_eq_true] at hv
    rw [State.schedWrite_suspends h hv.1 hv.2]
    obtain ⟨hmem, -, -, hleases, -⟩ := State.postAll_frame (s.modLease lease fun l => { l with sched := v &&& schedMask }) 3
      (((s.rectsOf lease).filter fun p => p.2.state == .armed || p.2.state == .running).map fun p => .cutRequest p.1 .suspend)
    exact ⟨hmem, (congrArg Lease.sched (State.lease_congr hleases lease)).trans hm⟩
theorem State.suspendRects_sent : (s.suspendRects lease).sent = s.sent ++
    ((s.rectsOf lease).filter fun p => p.2.state == .armed || p.2.state == .running).map fun p => .cutRequest p.1 .suspend :=
  (State.postAll_frame ..).2.2.2.2.2

theorem exec_leasePtWrite {v : BitVec 64} (h : isTenant lease = true) (hh : s.net.hand = some (.leasePtWrite lease v)) :
    exec .leasePtWrite s = .next (s.modLease lease fun l => l.ptWrite v) := by
  show execLeasePtWrite s = _
  simp only [execLeasePtWrite, hh, h, if_true]
theorem Lease.ptWrite_inval (l : Lease) (v : BitVec 64) : (l.ptWrite v).fq.inval = if l.state = .live then some (0, 0) else l.fq.inval := by
  unfold Lease.ptWrite
  split <;> rfl

theorem exec_devPwrWrite {v : BitVec 64} (hh : s.net.hand = some (.devPwrWrite v)) :
    exec .devPwrWrite s = .next { s with dev := s.dev.powerWrite v } := by
  show execDevPwrWrite s = _
  simp only [execDevPwrWrite, hh]
theorem Device.powerWrite_eq (d : Device) (v : BitVec 64) :
    d.powerWrite v = if 1500 ≤ v.toNat % 4096 ∧ v.toNat % 4096 ≤ 3400 then { d with cap := v.toNat % 4096 } else d := by
  unfold Device.powerWrite
  by_cases h : 1500 ≤ v.toNat % 4096 ∧ v.toNat % 4096 ≤ 3400
  · rw [if_pos h, if_neg (by omega)]
  · rw [if_neg h, if_pos (by omega)]

/-! ### Register blocks (R10, R366, R375, R376) -/

/-- Register `r` of a lease's block stands at 64 bytes a lease and 8 a register (R375). -/
theorem State.pfRegWrite_block {r : Nat} (h0 : 0 < lease) (h1 : lease < 256) (hr : r < 8) (v : BitVec 64) :
    s.pfRegWrite (0x10000 + 64 * lease + 8 * r) v = s.blockWrite lease r v := by
  have hl : (0x10000 + 64 * lease + 8 * r - 0x10000) / 64 = lease := by omega
  have hk : (0x10000 + 64 * lease + 8 * r) / 8 % 8 = r := by omega
  unfold State.pfRegWrite
  rw [if_neg (by omega), if_neg (by omega), if_neg (by omega), if_pos (by omega), hl, hk]
theorem exec_registerWrite_block {r : Nat} {v : BitVec 64} (h0 : 0 < lease) (h1 : lease < 256) (hr : r < 8)
    (hh : s.net.hand = some (.registerWrite .pf (0x10000 + 64 * lease + 8 * r) v)) :
    exec .registerWrite s = .next (s.blockWrite lease r v) := by
  show execRegisterWrite s = _
  simp only [execRegisterWrite, hh, State.pfRegWrite_block h0 h1 hr]
/-- A register that only a lease which does not exist takes. -/
theorem State.whileFree_eq (f : Lease → Lease) : (if (s.lease lease).state == .none then s.modLease lease f else s) =
    if (s.lease lease).state = .none then s.setLease lease (f (s.lease lease)) else s := by
  by_cases h : (s.lease lease).state = .none
  · rw [if_pos h, if_pos (by simpa using h)]; rfl
  · rw [if_neg h, if_neg (by simpa using h)]

/-- LEASE_CMD takes no write while GO reads 1 (R376). -/
theorem State.cmdWrite_busy {v : BitVec 64} (h : (s.lease lease).cmdGo = true) : s.cmdWrite lease v = s := by
  rw [State.cmdWrite, if_pos h]
theorem ofNat_mboxOp (v : BitVec 64) : BitVec.ofNat 8 (mboxOp v) = v.extractLsb' 56 8 := (BitVec.ofNat_toNat ..).trans (BitVec.setWidth_eq _)
theorem State.cmdWrite_idle {v : BitVec 64} (h : (s.lease lease).cmdGo = false) (hv : v.getLsbD 0 = false) :
    s.cmdWrite lease v = s.setLease lease { s.lease lease with cmdOp := v.extractLsb' 56 8, cmdGo := v.getLsbD 0 } := by
  rw [State.cmdWrite, if_neg (by simp [h]), ← ofNat_mboxOp]
  exact if_neg (by rw [mboxGo, hv]; decide)
/-- GO sends the command that OP names (R377). -/
theorem State.cmdWrite_go {v : BitVec 64} {ev : Event} (h : (s.lease lease).cmdGo = false) (hv : v.getLsbD 0 = true)
    (he : leaseCommand lease (v.extractLsb' 56 8).toNat = some ev) : s.cmdWrite lease v =
      (s.setLease lease { s.lease lease with cmdOp := v.extractLsb' 56 8, cmdGo := v.getLsbD 0 }).post 2 ev := by
  have he' : leaseCommand lease (mboxOp v) = some ev := he
  rw [State.cmdWrite, if_neg (by simp [h]), ← ofNat_mboxOp]
  simp only [he']
  exact if_pos hv

theorem exec_registerWrite_vf {off : Nat} {v : BitVec 64} (h : isTenant lease = true) (hh : s.net.hand = some (.registerWrite (.vf lease) off v)) :
    exec .registerWrite s = .next (s.vfRegWrite lease off v) := by
  show execRegisterWrite s = _
  simp only [execRegisterWrite, hh, h, if_true]

/-! ### The status query (R402) -/

theorem exec_mctpStatusQuery (hh : s.net.hand = some .mctpStatusQuery) :
    exec .mctpStatusQuery s = .next (s.hostAnswer 0 s.dev.statusBytes) := by
  show execMctpStatusQuery s = _
  simp only [execMctpStatusQuery, hh]
end

theorem leBytes_length (n v : Nat) : (leBytes n v).length = n := by
  induction n generalizing v with
  | zero => rfl
  | succ n ih => rw [leBytes, List.length_cons, ih]
/-- DEV_FAIL has 32 bytes. -/
theorem Device.failBytes_length (d : Device) : d.failBytes.length = 32 := by
  unfold Device.failBytes
  split <;> simp [leBytes_length]
/-- A status query answers DEV_STATUS in 8 bytes and DEV_FAIL in 32 (R402). -/
theorem Device.statusBytes_spec (d : Device) :
    d.statusBytes.length = 40 ∧ d.statusBytes.take 8 = leBytes 8 d.status.toNat ∧ d.statusBytes.drop 8 = d.failBytes :=
  ⟨by rw [Device.statusBytes, List.length_append, leBytes_length, Device.failBytes_length], List.take_left' (leBytes_length ..),
    List.drop_left' (leBytes_length ..)⟩
theorem Device.failBytes_some {d : Device} {g : DevFail} (h : d.fail = some g) :
    d.failBytes = leBytes 1 g.die ++ leBytes 1 g.block ++ leBytes 2 g.test ++ leBytes 4 g.unit ++ leBytes 8 g.dtime ++ leBytes 8 g.detail.toNat ++
      leBytes 8 0 := by
  rw [Device.failBytes, h]
theorem Device.failBytes_none {d : Device} (h : d.fail = none) : d.failBytes = leBytes 32 0 := by
  rw [Device.failBytes, h]

end Sys2Proof.Machine
end

section
namespace Sys2Proof.Proofs
open Sys2Proof Sys2Proof.Machine

/-- Settles O59: each command's meaning at hand is its named update of the state or the refusal of its result, and each register write the update of
one block. -/
theorem leaseCommandsAndDeviceRegistersTakeEffect : Obligations.LeaseCommandsAndDeviceRegistersTakeEffect := by
  intro s lease h0 h1
  have ht := isTenant_of h0 h1
  refine ⟨fun hg hh hs hr he => ⟨fun hl => ?create, fun hl => ?lacking⟩, fun hg hh hbad => ?refused,
    fun hs hg hh => .of_next (exec_leaseDestroy_none hh hg hs) rfl, fun hs => ?dead, fun hl => ?live, fun hg hh hs hd => ?ended,
    fun v hh => ⟨fun hv => ?schedRefused, fun hv => ?sched⟩, fun v hh => ?pt, fun v hh => ?power, fun off v hh => ?block,
    fun op => rfl, fun off v hh => ?vf, fun hh => ?status⟩
  case create =>
    refine .of_next ((exec_leaseCreate hh hg).trans ((if_neg (by simp [hs, hr, State.ember, he])).trans (if_neg (by simp [hl])))) ?_
    have hm : ∀ k, (s.create lease).mem.read k = (s.wipe lease).mem.read k := fun _ => rfl
    refine ⟨State.cmdDone_spec _ lease (by decide), ?_, ?_, ?_, fun a => ?_, fun o a ho => ?_⟩
    · rw [State.create_lease]; rfl
    · rw [State.create_lease]; rfl
    · rw [State.create_meter]; rfl
    · rw [hm, hm]; exact s.wipe_read lease a
    · rw [hm]; exact s.wipe_read_other (by rwa [Nat.mod_eq_of_lt h1]) a
  case lacking =>
    refine .of_next ((exec_leaseCreate hh hg).trans ((if_neg (by simp [hs, hr, State.ember, he])).trans (if_pos hl)))
      ⟨s.cmdDone_spec lease (by decide), ?_, rfl⟩
    rw [State.cmdDone_lease]
    exact hs
  case refused =>
    exact .of_next ((exec_leaseCreate hh hg).trans (if_pos (by simpa [State.ember] using hbad))) ⟨rfl, s.cmdDone_spec lease (by decide)⟩
  case dead =>
    refine ⟨fun hg hh => ?grantRow, fun hg hh => ?revokeRow, fun hg hh => ?preempt, fun hg hh => ?restore, fun hg hh => ?leaseFree,
      fun hg hh => ?dump⟩ <;> refine .of_next (t := s.cmdDone lease resState) ?_ rfl
    case grantRow => exact (exec_grantRow hh).trans (State.command_refused hg hs _)
    case revokeRow => exact (exec_revokeRow hh).trans (State.command_refused hg hs _)
    case preempt => exact exec_preempt_dead hs hh hg
    case restore => exact exec_restore_dead hs hh hg
    case leaseFree => exact exec_leaseFree_dead hs hh hg
    case dump => exact exec_dump_dead hs hh hg
  case live =>
    refine ⟨fun hg hh hr ht => .of_next (exec_leaseDestroy_live hh hg hl) (State.beginEnd_spec hr ht),
      fun hg hh => ⟨fun hn => ?grant, fun hn hne => ?held⟩, fun hg hh => ⟨fun ho hb hres => ?revoke, fun ho => ?notOwner, fun ho hb => ?busy⟩,
      fun ha => ?noRect,
      fun n r ha => ⟨fun hg hh => ⟨fun hr => ?cut, fun hr1 hr2 => ?notCut⟩,
        fun hg hh => ⟨fun t' hr ht => ?restored, fun hr => ?notSaved⟩,
        fun hg hh hp hc ho hn => ?free, fun hg hh hr => ?notFrozen, fun hg hh hr => ⟨fun a hp => ?reel, fun hp => ?noRoom⟩⟩⟩
    case grant =>
      exact .of_command (exec_grantRow hh) hg hl (if_neg fun h => h.1 hn)
        ⟨State.cmdDone_spec _ lease (by decide), State.row_setRow_self .., rfl⟩
    case held => exact .of_command (exec_grantRow hh) hg hl (if_pos ⟨hn, hne⟩) ⟨State.cmdDone_spec _ lease (by decide), rfl⟩
    case revoke =>
      have hfree := mt State.rowBusy_iff.1 fun h => h.elim (fun h => h hb) fun h => Bool.false_ne_true (hres.symm.trans h)
      have hrow := s.dropRow_row lease (s.argRow lease)
      exact .of_command (exec_revokeRow hh) hg hl ((if_neg (not_not_intro ho)).trans (if_neg hfree))
        ⟨State.cmdDone_spec _ lease (by decide), (congrArg RowHalf.lease hrow :), (congrArg RowHalf.task hrow :)⟩
    case notOwner => exact .of_command (exec_revokeRow hh) hg hl (if_pos ho) rfl
    case busy =>
      exact .of_command (exec_revokeRow hh) hg hl ((if_neg (not_not_intro ho)).trans (if_pos (State.rowBusy_iff.2 hb)))
        ⟨State.cmdDone_spec _ lease (by decide), rfl⟩
    case noRect =>
      exact ⟨fun hg hh => .of_command (exec_preempt_none ha hh) hg hl rfl rfl,
        fun hg hh => .of_command (exec_restore_none ha hh) hg hl rfl rfl,
        fun hg hh => .of_command (exec_leaseFree_none ha hh) hg hl rfl rfl,
        fun hg hh => .of_command (exec_dump_none ha hh) hg hl rfl rfl⟩
    case cut =>
      exact .of_command (exec_preempt ha hh) hg hl (if_pos hr) ⟨State.cmdDone_spec _ lease (by decide), State.sent_post ..⟩
    case notCut =>
      exact .of_command (exec_preempt ha hh) hg hl (if_neg (not_or_intro hr1 hr2)) ⟨State.cmdDone_spec _ lease (by decide), rfl⟩
    case restored =>
      exact .of_command (exec_restore ha hh hr ht) hg hl rfl ⟨State.cmdDone_spec _ lease (by decide), rfl⟩
    case notSaved =>
      exact .of_command (exec_restore_refused ha hh hr) hg hl rfl ⟨State.cmdDone_spec _ lease (by decide), rfl⟩
    case free =>
      have hr := State.rect?_of_argRect ha
      refine .of_command (exec_leaseFree ha hh) hg hl rfl ⟨State.cmdDone_spec _ lease (by decide), ?_⟩
      rw [State.freeRect_childless hr hp hc ho]
      exact State.emptySlot_spec hr
    case notFrozen => exact .of_command (exec_dump ha hh) hg hl (if_neg hr) ⟨State.cmdDone_spec _ lease (by decide), rfl⟩
    case reel =>
      obtain ⟨hgo, hres, hmem, harg⟩ := State.dumpRect_placed rfl hp
      exact .of_command (exec_dump ha hh) hg hl (if_pos hr) ⟨⟨hgo, hres⟩, hmem, harg, State.reelPlace_bounds hp⟩
    case noRoom =>
      exact .of_command (exec_dump ha hh) hg hl ((if_pos hr).trans (State.dumpRect_lacking rfl hp))
        ⟨State.cmdDone_spec _ lease (by decide), rfl⟩
  case ended =>
    obtain ⟨hst, hm⟩ := s.finishEnd_spec lease
    exact .of_next (exec_leaseDestroy_ending hh hg hs hd) ⟨State.cmdDone_spec _ lease (by decide), hst, hm⟩
  case schedRefused => exact .of_next (exec_leaseSchedWrite ht hh) (State.schedWrite_refused hv)
  case sched =>
    obtain ⟨hm, hs⟩ := State.schedWrite_spec hv
    refine .of_next (exec_leaseSchedWrite ht hh) ⟨hm, hs, fun hq => ?_, fun hv1 hs0 => ?_⟩
    · rw [State.schedWrite_quiet hv hq]; rfl
    · rw [State.schedWrite_suspends hv hv1 hs0, State.suspendRects_sent]; rfl
  case pt =>
    refine .of_next (exec_leasePtWrite ht hh) ⟨rfl, ?_, ?_⟩ <;> rw [State.lease_modLease_self]
    · rfl
    · exact Lease.ptWrite_inval ..
  case power =>
    refine .of_next (exec_devPwrWrite hh) ?_
    rw [Device.powerWrite_eq]
    split <;> rfl
  case block =>
    refine ⟨?_, ?_, ?_, ?_, ?_, ?_⟩ <;> rintro rfl
    · exact .of_next (exec_registerWrite_block (r := 1) h0 h1 (by decide) hh) (State.whileFree_eq _)
    · exact .of_next (exec_registerWrite_block (r := 2) h0 h1 (by decide) hh) (State.whileFree_eq _)
    · exact .of_next (exec_registerWrite_block (r := 4) h0 h1 (by decide) hh) (State.whileFree_eq _)
    · exact .of_next (exec_registerWrite_block (r := 5) h0 h1 (by decide) hh) (State.whileFree_eq _)
    · exact .of_next (exec_registerWrite_block (r := 6) h0 h1 (by decide) hh) rfl
    · refine ⟨fun hb => ?_, fun hb hv => ?_, fun ev hb hv he => ?_⟩
      · exact .of_next (exec_registerWrite_block (r := 7) h0 h1 (by decide) hh) (State.cmdWrite_busy hb)
      · exact .of_next (exec_registerWrite_block (r := 7) h0 h1 (by decide) hh) (State.cmdWrite_idle hb hv)
      · refine .of_next (exec_registerWrite_block (r := 7) h0 h1 (by decide) hh) ?_
        rw [show s.blockWrite lease 7 v = s.cmdWrite lease v from rfl, State.cmdWrite_go hb hv he]
        exact ⟨State.lease_setLease_self .., State.sent_post ..⟩
  case vf =>
    refine ⟨?_, ?_, ?_, ?_⟩ <;> rintro rfl
    · exact .of_next (exec_registerWrite_vf ht hh) rfl
    · exact .of_next (exec_registerWrite_vf ht hh) rfl
    · exact .of_next (exec_registerWrite_vf ht hh) rfl
    · exact .of_next (exec_registerWrite_vf ht hh) rfl
  case status =>
    obtain ⟨hlen, htake, hdrop⟩ := s.dev.statusBytes_spec
    exact .of_next (exec_mctpStatusQuery hh) ⟨_, hlen, htake, fun g hg => hdrop.trans (Device.failBytes_some hg),
      fun hn => hdrop.trans (Device.failBytes_none hn), rfl⟩

end Sys2Proof.Proofs
end
